-- ==== Sys2Proof/Word.lean ====
section
/-!
DEFINITION. The word types of the Holain Uzoak and their plainest arithmetic (00_scope.md R7: values
are little-endian; 02_numbers.md R44: 32-bit integers wrap modulo 2^32).
-/
namespace Sys2Proof

/-- A 32-bit register value. -/
abbrev Word := BitVec 32

/-- One byte of memory. -/
abbrev Byte := BitVec 8

/-- A 64-bit generic address (R66) or any other 64-bit register pair. -/
abbrev Word64 := BitVec 64

/-- A sparse map from numbers to words: entries in strictly rising key order, none of them zero; an
unlisted key reads as zero. -/
abbrev Store (w : Nat) := List (Nat × BitVec w)

/-- A table of records by number, in strictly rising key order. -/
abbrev Tab (α : Type) := List (Nat × α)

end Sys2Proof
end

