-- ==== Sys2Proof/Config.lean ====
section
/-!
DEFINITION. The free values: what the spec leaves to the implementation or to the surroundings of the
device. None of them has a body, so no proof can use a number for any of them.
-/
namespace Sys2Proof.Config

/-- Nanoseconds that %time advances during step n (R382: %time never decreases; how far it moves in
one instruction is not given); log 8. -/
opaque timeTick : Nat → Nat

/-- Cycles of the arithmetic clock that pass during step n (%clock, R164); log 8. -/
opaque cycleTick : Nat → Nat

/-- What a core's %clock differs from the device's cycle count (R164: not synchronised between cores); log 8. -/
opaque clockOffset : Nat → Nat

/-- The temperature in °C above 40 of a core at a cycle count, 0 when below (R311); log 51. -/
opaque heat : Nat → Nat → Nat

/-- Whether a group sees another group's SYSWR %handler before the next BAR (R166: either value);
the arguments are the step, the team and the group; log 10. -/
opaque handlerSeen : Nat → Nat → Nat → Bool

/-- The rate code that a rate-map byte above 6 acts as (R130 gives those codes no coarse pixel); used modulo 7; log 26. -/
opaque reservedRate : Nat → Nat

/-- The rotation ρ that the Concierge chooses for a team (R313); used modulo 4; log 15. -/
opaque rotation : Nat → Nat

/-- The identity seed (R368): the power-up contents of the fixed cellar SRAM region, corrected with the kind 3 helper
data given as the argument; log 39. -/
opaque identitySeed : List Byte → BitVec 256

/-- The SLH-DSA-SHA2-128f public key generated from a seed (R368; how a seed gives a key pair is not given); log 39. -/
opaque deviceKey : BitVec 256 → BitVec 256

/-- The SLH-DSA-SHA2-128f signature of a message with the key of a seed (R369), 17,088 bytes; log 39. -/
opaque deviceSign : BitVec 256 → List Byte → BitVec 136704

/-- The Holain root public key (KEYID 0, R364), 32 bytes; log 39. -/
opaque rootKey : BitVec 256

/-- The result the model leaves free when an elementary function (first argument: 0 FEXP2, 1 FLOG2,
2 FSIN) of an operand cannot be told from a rounding boundary at the working precision (R52); log 11. -/
opaque elementary : Nat → BitVec 32 → BitVec 32

/-- A first register of a helper lane, or a part of one, to which R252 gives no value (a centroid of no samples, the
place of a part with no pixel); arguments: the triangle's acceptance, the lane's place, the register; log 26. -/
opaque helperReg : Nat → Nat → Nat → BitVec 32

/-- Bytes a compressed frame reads as when it is mapped with another Z value, and a device encoding
(R345: unspecified); arguments: the physical address and a counter; log 18. -/
opaque encodedByte : Nat → Nat → Byte

/-- What a read of a control-window offset that may belong to an encode engine or display head of the partition returns (R375:
the registers of engines and heads appear there, and the spec does not give them); arguments: partition, what software has
written to such offsets so far, offset, step; log 49. -/
opaque windowWord : Nat → List (Nat × BitVec 32) → Nat → Nat → BitVec 32

/-- A byte that an encode engine writes to its partition's memory (R375); arguments: the physical address, what software has
written to the registers of engines and heads so far, step; log 49. -/
opaque mediaByte : Nat → List (Nat × BitVec 32) → Nat → Byte

/-- Whether a link that has trained again has lost lanes (R379: it then runs at 4); arguments: link, step; log 31. -/
opaque lanesFailed : Nat → Nat → Bool

/-- How the inspection page of a unit other than a core lays out what R386 names for it; arguments: UNIT, the contents in
the order of the rule, the offset in the page; log 50. -/
opaque inspectByte : Nat → List Nat → Nat → Byte

end Sys2Proof.Config
end

