-- ==== Sys2Proof/Syntax.lean ====
section
/-!
DEFINITION. The syntax of the machine's steps: the operand codes (06_formats_and_opcode_map.md R140) and
one constructor of `Instr` per row of the opcode table. A row with an encoding carries the fields of its
word, highest bits first; a row without one is an event of the device, the system software, the host or the
links, and carries what its author would have to say to make it happen.
-/
namespace Sys2Proof

/-- What an 8-bit operand code names (R140): v0–v191, s0–s59, or the latches q1–q4 (numbered 0–3).
Code 0xFF is `q 3`; in a field that is only written it stands for "_". -/
inductive Opd where
  | v (r : Fin 192)
  | s (r : Fin 60)
  | q (r : Fin 4)
  deriving DecidableEq, Repr

/-- A flit as a link receives it (R379): whether its CRC-32C is good, its link sequence number, and the
sequence number it acknowledges, if any. -/
structure FlitIn where
  good : Bool
  seq : BitVec 8
  ack : Option (BitVec 8)
  deriving DecidableEq, Repr

/-- A request that one device makes of another's export window (R378, R380). Offsets are in the 8 GiB
window; an atomic carries its width, function, natural flag and operands (R198). -/
inductive RemoteReq where
  | read (off len : Nat)
  | write (off : Nat) (data : List (BitVec 8))
  | atomic (off : Nat) (wide : Bool) (fn : BitVec 3) (nat : Bool) (val new : BitVec 64)
  deriving DecidableEq, Repr

/-- What a reply to a request brings: the bytes, and the offsets among them of those whose sector is poisoned (R346). -/
structure ReplyBytes where
  bytes : List (BitVec 8)
  lost : List Nat
  deriving DecidableEq, Repr

/-- The path of a host access (R371): port 0 is the PCIe port, whose function `part` makes it; ports 1 to 4 are the CXL ports,
through which it reaches the partition `part` (R370). -/
structure HostPath where
  port : Nat
  part : Nat
  deriving DecidableEq, Repr

/-- One constructor per row of the opcode table, in the table's order, but for the events without fields, which
stand last. -/
inductive Instr where
  | iadd (e : Bool) (d : Opd) (x : Opd) (y : Opd)
  | isub (e : Bool) (d : Opd) (x : Opd) (y : Opd)
  | imul (e : Bool) (d : Opd) (x : Opd) (y : Opd)
  | imulhI32 (e : Bool) (d : Opd) (x : Opd) (y : Opd)
  | imulhN32 (e : Bool) (d : Opd) (x : Opd) (y : Opd)
  | imac (e : Bool) (d : Opd) (x : Opd) (y : Opd)
  | iminI32 (e : Bool) (d : Opd) (x : Opd) (y : Opd)
  | iminN32 (e : Bool) (d : Opd) (x : Opd) (y : Opd)
  | imaxI32 (e : Bool) (d : Opd) (x : Opd) (y : Opd)
  | imaxN32 (e : Bool) (d : Opd) (x : Opd) (y : Opd)
  | and (e : Bool) (d : Opd) (x : Opd) (y : Opd)
  | or (e : Bool) (d : Opd) (x : Opd) (y : Opd)
  | xor (e : Bool) (d : Opd) (x : Opd) (y : Opd)
  | andn (e : Bool) (d : Opd) (x : Opd) (y : Opd)
  | shl (e : Bool) (d : Opd) (x : Opd) (y : Opd)
  | shr (e : Bool) (d : Opd) (x : Opd) (y : Opd)
  | sar (e : Bool) (d : Opd) (x : Opd) (y : Opd)
  | iaddImm (e : Bool) (d : Opd) (x : Opd) (i : BitVec 8)
  | shlImm (e : Bool) (d : Opd) (x : Opd) (n : BitVec 5)
  | shrImm (e : Bool) (d : Opd) (x : Opd) (n : BitVec 5)
  | sarImm (e : Bool) (d : Opd) (x : Opd) (n : BitVec 5)
  | icmpEq (e : Bool) (d : Opd) (x : Opd) (y : Opd)
  | icmpNe (e : Bool) (d : Opd) (x : Opd) (y : Opd)
  | icmpLtI32 (e : Bool) (d : Opd) (x : Opd) (y : Opd)
  | icmpLeI32 (e : Bool) (d : Opd) (x : Opd) (y : Opd)
  | icmpLtN32 (e : Bool) (d : Opd) (x : Opd) (y : Opd)
  | icmpLeN32 (e : Bool) (d : Opd) (x : Opd) (y : Opd)
  | sel (e : Bool) (d : Opd) (x : Opd) (y : Opd)
  | lea (e : Bool) (d : Opd) (x : Opd) (y : Opd)
  | bfx (e : Bool) (d : Opd) (x : Opd) (y : Opd)
  | bfi (e : Bool) (d : Opd) (x : Opd) (y : Opd)
  | iabs (e : Bool) (d : Opd) (x : Opd)
  | clz (e : Bool) (d : Opd) (x : Opd)
  | popc (e : Bool) (d : Opd) (x : Opd)
  | brev (e : Bool) (d : Opd) (x : Opd)
  | bint2 (e : Bool) (d : Opd) (x : Opd)
  | bint3 (e : Bool) (d : Opd) (x : Opd)
  | bdeint3 (e : Bool) (d : Opd) (x : Opd)
  | laneid (e : Bool) (d : Opd)
  | frcp (e : Bool) (d : Opd) (x : Opd)
  | frsq (e : Bool) (d : Opd) (x : Opd)
  | fsqrt (e : Bool) (d : Opd) (x : Opd)
  | fexp2 (e : Bool) (d : Opd) (x : Opd)
  | flog2 (e : Bool) (d : Opd) (x : Opd)
  | fsin (e : Bool) (d : Opd) (x : Opd)
  | unpack2F16X2 (e : Bool) (d : Opd) (x : Opd)
  | unpack2G16X2 (e : Bool) (d : Opd) (x : Opd)
  | faddF32 (e : Bool) (d : Opd) (x : Opd) (y : Opd)
  | fsubF32 (e : Bool) (d : Opd) (x : Opd) (y : Opd)
  | fmulF32 (e : Bool) (d : Opd) (x : Opd) (y : Opd)
  | ffmaF32 (e : Bool) (d : Opd) (x : Opd) (y : Opd)
  | fminF32 (e : Bool) (d : Opd) (x : Opd) (y : Opd)
  | fmaxF32 (e : Bool) (d : Opd) (x : Opd) (y : Opd)
  | faddPacked (e : Bool) (d : Opd) (x : Opd) (f : BitVec 1)
  | fsubPacked (e : Bool) (d : Opd) (x : Opd) (f : BitVec 1)
  | fmulPacked (e : Bool) (d : Opd) (x : Opd) (f : BitVec 1)
  | ffmaPacked (e : Bool) (d : Opd) (x : Opd) (f : BitVec 1)
  | fminPacked (e : Bool) (d : Opd) (x : Opd) (f : BitVec 1)
  | fmaxPacked (e : Bool) (d : Opd) (x : Opd) (f : BitVec 1)
  | fcmpEq (e : Bool) (d : Opd) (x : Opd) (y : Opd)
  | fcmpLt (e : Bool) (d : Opd) (x : Opd) (y : Opd)
  | fcmpLe (e : Bool) (d : Opd) (x : Opd) (y : Opd)
  | fcmpUn (e : Bool) (d : Opd) (x : Opd) (y : Opd)
  | fcvtF16F32 (e : Bool) (d : Opd) (x : Opd) (m : BitVec 3)
  | fcvtG16F32 (e : Bool) (d : Opd) (x : Opd) (m : BitVec 3)
  | fcvtF32F16 (e : Bool) (d : Opd) (x : Opd) (m : BitVec 3)
  | fcvtF32G16 (e : Bool) (d : Opd) (x : Opd) (m : BitVec 3)
  | fcvtI32F32 (e : Bool) (d : Opd) (x : Opd) (m : BitVec 3)
  | fcvtN32F32 (e : Bool) (d : Opd) (x : Opd) (m : BitVec 3)
  | fcvtF32I32 (e : Bool) (d : Opd) (x : Opd) (m : BitVec 3)
  | fcvtF32N32 (e : Bool) (d : Opd) (x : Opd) (m : BitVec 3)
  | fcvtF32F32 (e : Bool) (d : Opd) (x : Opd) (m : BitVec 3)
  | fcvtQF32 (e : Bool) (d : Opd) (x : Opd) (n : BitVec 3) (m : BitVec 3)
  | fcvtF32Q (e : Bool) (d : Opd) (x : Opd) (n : BitVec 3) (m : BitVec 3)
  | pack2F16X2 (e : Bool) (d : Opd) (x : Opd) (y : Opd)
  | pack2G16X2 (e : Bool) (d : Opd) (x : Opd) (y : Opd)
  | shfl (e : Bool) (d : Opd) (x : Opd) (y : Opd)
  | shflup (e : Bool) (d : Opd) (x : Opd) (n : BitVec 5)
  | shfldn (e : Bool) (d : Opd) (x : Opd) (n : BitVec 5)
  | shflx (e : Bool) (d : Opd) (x : Opd) (m : BitVec 5)
  | scan (e : Bool) (d : Opd) (x : Opd) (c : BitVec 5)
  | red (e : Bool) (d : Opd) (x : Opd) (c : BitVec 5)
  | ballot (e : Bool) (d : Opd) (x : Opd)
  | voteAny (e : Bool) (d : Opd) (x : Opd)
  | voteAll (e : Bool) (d : Opd) (x : Opd)
  | ldB (e : Bool) (d : Opd) (x : Opd) (o : BitVec 8)
  | ldH (e : Bool) (d : Opd) (x : Opd) (o : BitVec 8)
  | ldW (e : Bool) (d : Opd) (x : Opd) (o : BitVec 8)
  | ldD (e : Bool) (d : Opd) (x : Opd) (o : BitVec 8)
  | ldO (e : Bool) (d : Opd) (x : Opd) (o : BitVec 8)
  | stB (e : Bool) (d : Opd) (x : Opd) (o : BitVec 8)
  | stH (e : Bool) (d : Opd) (x : Opd) (o : BitVec 8)
  | stW (e : Bool) (d : Opd) (x : Opd) (o : BitVec 8)
  | stD (e : Bool) (d : Opd) (x : Opd) (o : BitVec 8)
  | stO (e : Bool) (d : Opd) (x : Opd) (o : BitVec 8)
  | ldl (e : Bool) (d : Opd) (x : Opd) (s : Opd)
  | ldt (e : Bool) (d : Opd) (x : Opd) (t : BitVec 1) (w : BitVec 2) (s : BitVec 5)
  | atomW (e : Bool) (d : Opd) (x : BitVec 7) (n : BitVec 1) (o : BitVec 3) (r : BitVec 2) (c : BitVec 3)
  | atomD (e : Bool) (d : Opd) (x : BitVec 7) (n : BitVec 1) (o : BitVec 3) (r : BitVec 2) (c : BitVec 3)
  | brz (h : BitVec 2) (x : Opd) (o : BitVec 14)
  | brnz (h : BitVec 2) (x : Opd) (o : BitVec 14)
  | exit (e : Bool)
  | trap (e : Bool) (n : BitVec 8)
  | join (e : Bool) (k : BitVec 8)
  | wait (k : BitVec 8)
  | leave (e : Bool) (k : BitVec 8)
  | kread (e : Bool) (d : Opd) (k : BitVec 8)
  | kset (e : Bool) (k : BitVec 8) (x : Opd)
  | bar
  | barn (b : BitVec 8) (c : BitVec 8)
  | sign (n : BitVec 8) (m : BitVec 4)
  | waitb (x : Opd)
  | pollb (e : Bool) (d : Opd) (x : Opd)
  | prf (e : Bool) (c : BitVec 1) (x : Opd)
  | fence (e : Bool) (k : BitVec 2) (s : BitVec 3)
  | nop (e : Bool)
  | yield (e : Bool)
  | eret
  | bkpt (e : Bool)
  | umov (e : Bool) (d : Opd) (x : Opd)
  | umovi (e : Bool) (d : Opd) (i : BitVec 16)
  | umovhi (e : Bool) (d : Opd) (i : BitVec 16)
  | uadd (e : Bool) (d : Opd) (x : Opd) (y : Opd)
  | usub (e : Bool) (d : Opd) (x : Opd) (y : Opd)
  | umul (e : Bool) (d : Opd) (x : Opd) (y : Opd)
  | uand (e : Bool) (d : Opd) (x : Opd) (y : Opd)
  | uor (e : Bool) (d : Opd) (x : Opd) (y : Opd)
  | uxor (e : Bool) (d : Opd) (x : Opd) (y : Opd)
  | ushl (e : Bool) (d : Opd) (x : Opd) (y : Opd)
  | ushr (e : Bool) (d : Opd) (x : Opd) (y : Opd)
  | usar (e : Bool) (d : Opd) (x : Opd) (y : Opd)
  | uminI32 (e : Bool) (d : Opd) (x : Opd) (y : Opd)
  | uminN32 (e : Bool) (d : Opd) (x : Opd) (y : Opd)
  | umaxI32 (e : Bool) (d : Opd) (x : Opd) (y : Opd)
  | umaxN32 (e : Bool) (d : Opd) (x : Opd) (y : Opd)
  | ucmpEq (e : Bool) (d : Opd) (x : Opd) (y : Opd)
  | ucmpNe (e : Bool) (d : Opd) (x : Opd) (y : Opd)
  | ucmpLtI32 (e : Bool) (d : Opd) (x : Opd) (y : Opd)
  | ucmpLeI32 (e : Bool) (d : Opd) (x : Opd) (y : Opd)
  | ucmpLtN32 (e : Bool) (d : Opd) (x : Opd) (y : Opd)
  | ucmpLeN32 (e : Bool) (d : Opd) (x : Opd) (y : Opd)
  | usel (e : Bool) (d : Opd) (x : Opd) (y : Opd)
  | uldW (e : Bool) (d : Opd) (x : Opd) (o : BitVec 8)
  | uldD (e : Bool) (d : Opd) (x : Opd) (o : BitVec 8)
  | ustW (e : Bool) (d : Opd) (x : Opd) (o : BitVec 8)
  | ustD (e : Bool) (d : Opd) (x : Opd) (o : BitVec 8)
  | ujmp (o : BitVec 16)
  | ubrZ (x : Opd) (o : BitVec 16)
  | ubrNz (x : Opd) (o : BitVec 16)
  | ucall (x : Opd) (o : BitVec 16)
  | uret (x : Opd)
  | ujr (x : Opd)
  | ureadlane (e : Bool) (d : Opd) (x : Opd) (y : Opd)
  | ufirst (e : Bool) (d : Opd)
  | sysrd (e : Bool) (d : Opd) (r : BitVec 16)
  | syswr (e : Bool) (d : Opd) (r : BitVec 16)
  | sched (e : Bool) (d : Opd) (x : Opd) (c : BitVec 4)
  | launch (e : Bool) (d : Opd) (x : Opd)
  | fmtset (e : Bool) (n : BitVec 3) (x : Opd)
  | mma (e : Bool) (z : BitVec 6) (a : BitVec 5) (b : BitVec 5) (p : BitVec 2) (c : BitVec 2) (s : BitVec 2) (t : BitVec 2)
  | mmaz (e : Bool) (z : BitVec 6) (a : BitVec 5) (b : BitVec 5) (p : BitVec 2) (c : BitVec 2) (s : BitVec 2) (t : BitVec 2)
  | zclr (e : Bool) (z : BitVec 6)
  | zrd (e : Bool) (d : BitVec 5) (z : BitVec 6) (b : BitVec 2) (f : BitVec 2) (m : BitVec 3) (s : BitVec 1) (n : BitVec 3)
  | zwr (e : Bool) (d : BitVec 5) (z : BitVec 6) (b : BitVec 2)
  | facetOpen (e : Bool) (d : Opd) (x : Opd)
  | facetNext (e : Bool) (d : Opd) (x : Opd)
  | facetMark (e : Bool) (g : Opd) (x : Opd) (y : Opd)
  | meshBump (e : Bool) (d : Opd) (x : Opd)
  | boxt (e : Bool) (d : Opd) (x : Opd) (y : Opd)
  | trit (e : Bool) (d : Opd) (x : Opd) (y : Opd)
  | stkPush (e : Bool) (p : Opd) (b : Opd)
  | stkPop (e : Bool) (p : Opd) (b : Opd)
  | rsave (e : Bool) (v : Opd) (a : Opd)
  | rload (e : Bool) (v : Opd) (a : Opd)
  | rastTri (e : Bool) (x : Opd) (y : Opd)
  | rastRate (e : Bool) (x : Opd) (y : Opd)
  | shapeSeal (e : Bool) (d : Opd) (x : Opd)
  | shapeDrop (e : Bool) (x : Opd)
  | kick (e : Bool) (d : Opd) (x : Opd) (y : Opd)
  | xform (e : Bool) (d : Opd) (x : Opd)
  | leaseGet (e : Bool) (d : Opd) (x : Opd)
  | leasePut (e : Bool)
  | wgReserve (e : Bool) (d : Opd) (x : Opd)
  | wgEmit (e : Bool) (x : Opd)
  | wgDone (e : Bool)
  | branchResolve (team group : Nat)
  | engineOpComplete (op : Nat)
  | engineOpStop (op : Nat)
  | stewardAtomic (cluster source : Nat) (seq : BitVec 32) (pa : Nat) (wide : Bool) (fn : BitVec 3) (nat : Bool) (val new : BitVec 64)
  | quartetStepStart (team cn : Nat)
  | quartetStepComplete (team cn : Nat)
  | rasterTriangle (core : Nat)
  | hardwarePrefetch (core : Nat) (addr : BitVec 64)
  | queueTailWrite (part queue : Nat) (val : BitVec 32)
  | queueErrClear (part queue : Nat)
  | packetTake (part queue : Nat)
  | dependencePoll (grid : Nat)
  | teamAdmit (part : Nat)
  | compactorMove (core : Nat)
  | coreScrub (core : Nat)
  | teamEnd (team : Nat)
  | gridRetire (grid : Nat)
  | wgNodeTeamForm (grid node : Nat)
  | wgRecordTimeout (grid node : Nat)
  | roomKeyHeldClear (part core : Nat)
  | roomKeyEnable (part core : Nat) (en : Bool)
  | faultRecordWrite (part : Nat)
  | resumeRetry (part : Nat) (token : BitVec 16)
  | resumeAbort (part : Nat) (token : BitVec 16)
  | invalidateRange (part : Nat)
  | invalidateAsid (part : Nat)
  | invalidatePartition (part : Nat)
  | invalidationDone (part : Nat)
  | guestbookOvfClear (part ring : Nat)
  | filterClear (part : Nat)
  | filterClearDone (part : Nat)
  | migrationStart (part slot : Nat)
  | migrationDone (part slot : Nat)
  | contextSave (part queue : Nat)
  | groupPreemptStop (team group : Nat)
  | contextSaveDone (part queue : Nat)
  | contextRestore (part queue : Nat)
  | contextRestoreDone (part queue : Nat)
  | queueAbort (part queue : Nat)
  | registerWrite (part off : Nat) (val : BitVec 32)
  | pcieConfigRequest (part : Nat)
  | quoteRequest (part : Nat)
  | quoteDone (part : Nat)
  | hostWrite (path : HostPath) (bar off : Nat) (data : List (BitVec 8))
  | hostRead (path : HostPath) (bar off len : Nat)
  | correctedError (unit source addr : Nat)
  | containedError (pa : Nat)
  | uncontainedCoreError (core unit : Nat)
  | uncontainedMemoryError (pa : Nat)
  | errorRecordWrite (part : Nat)
  | flitReceive (link : Nat) (flit : FlitIn)
  | flitAckTimeout (link : Nat)
  | linkTrainTimeout (link : Nat)
  | remoteRequestReceive (dev source : Nat) (seq : BitVec 32) (req : RemoteReq)
  | remoteReplyReceive (source dev : Nat) (seq : BitVec 32) (data : ReplyBytes)
  | requestReplyTimeout (source dev : Nat) (seq : BitVec 32)
  | snapshotRequest (part : Nat)
  | snapshotDone (part : Nat)
  | droopEvent (core : Nat)
  | powerOnBoot
  | lockstepMismatch
  | timeBoundLost
  | timeBoundRegained
  | standbyEntry
  deriving DecidableEq, Repr

end Sys2Proof
end

