-- ==== Sys2Proof/Machine/State.lean ====
section
/-!
DEFINITION. The state of the device: everything the spec gives the machine, as plain data. Tables
(`Tab`) are keyed lists in strictly rising key order; sparse contents (`Store`) list nonzero entries
only. Each field's docstring names the rule that gives it.
-/
namespace Sys2Proof.Machine

/-- The latches q1–q4 of one instruction set (R24, R143); `none` is an invalid latch. -/
structure Latches where
  q1 : Option Word
  q2 : Option Word
  q3 : Option Word
  q4 : Option Word
  deriving DecidableEq, Repr

/-- Invalid latches: the start of every run (R24). -/
def Latches.invalid : Latches := ⟨none, none, none, none⟩

/-- A fragment's name: a birth number and the lane-branch decisions its lanes have taken since (R25).
Two lanes belong to one fragment exactly when both parts agree; a fragment's ancestors are the names
with the same birth number whose trail is a beginning of its own. -/
structure FragKey where
  base : Nat
  trail : List Bool
  deriving DecidableEq, Repr

/-- What keeps a lane from issuing. -/
inductive Hold where
  /-- Runnable at its program counter. -/
  | run
  /-- Arrived at WAIT on k (R208). -/
  | wait (k : Nat)
  /-- Arrived at BAR (number 16) or at BARN b with a group count (R214, R217). -/
  | barrier (b count : Nat)
  /-- Held at a matrix word bound to a convergence register (R228, R229). -/
  | matrix (cn : Nat) (i : Instr)
  /-- Parked in the waiting room on a fault token (R29, R335). -/
  | parked (token : Nat)
  /-- Parked with no token free yet: page, class and what its record would hold (R335). -/
  | parkedFree (va : Nat) (kind cause level : Nat) (lod : Bool)
  deriving DecidableEq, Repr

/-- One lane (R14). -/
structure Lane where
  /-- Not exited (R360 LIVE). -/
  live : Bool
  /-- Program counter (R14). -/
  pc : Word64
  /-- Meeting register, MEMB (R205). -/
  meet : BitVec 12
  /-- Sticky arithmetic status: SAT NX UF OF DZ NV (R50). -/
  status : BitVec 6
  /-- Reported flags RPT (R355). -/
  rpt : BitVec 6
  /-- Fragment membership (R25). -/
  frag : FragKey
  hold : Hold
  /-- It waits at a hold point for lanes of its fragment's ancestry (R29). -/
  halt : Bool
  /-- It waits at its word for a convergence register or an engine (R219, R206). -/
  stalled : Bool
  /-- The lane has arrived at its word by a transfer and R137's check is still to be made. -/
  arrive : Bool
  /-- How many words of the lane's run come before its word (R21); none where only the code in memory tells. -/
  inRun : Option Nat
  /-- The trap level whose handler set the lane belongs to (R350): 0 outside every handler. -/
  level : Nat
  /-- A helper lane of a shading group (R132). -/
  helper : Bool
  /-- The lane set's latches (R24). -/
  q : Latches
  /-- v registers (R14). -/
  v : Store 32
  deriving DecidableEq, Repr

/-- Where bytes lie: at an offset of the team's scratchpad, or at a physical address. -/
inductive Place where
  | scratch (off : Nat)
  | phys (pa : Nat)
  /-- A byte of a frame that is mapped with another Z value than its encoding (R345). -/
  | enc (pa : Nat)
  deriving DecidableEq, Repr

/-- One store instruction's bytes in the group's store FIFO (R93): the bytes that survive it. -/
structure FifoEntry where
  bytes : List (Place × Byte)
  deriving DecidableEq, Repr

/-- What one store instruction of a group left in one sector of global memory: the groups of its team see it, and
memory does not hold it yet (R98, R99). -/
structure Buffered where
  group : Nat
  bytes : List (Place × Byte)
  deriving DecidableEq, Repr

/-- One handler instance of a group (R349). -/
structure Handler where
  /-- The lanes that entered it (ENTER). -/
  enter : BitVec 32
  /-- The frame's address F. -/
  frame : Word64
  /-- The fragment of every lane at entry, by lane number. -/
  keys : List FragKey
  /-- k0–k11 and f0–f7 at entry (R351, R224), and every lane's return point with its place in its run (R21). -/
  masks : Store 32
  f : Store 32
  runs : List (Word64 × Option Nat)
  deriving DecidableEq, Repr

/-- A lane branch whose condition has not resolved yet (R32, R294). -/
structure Pending where
  addr : Word64
  hint : BitVec 2
  active : BitVec 32
  predicted : BitVec 32
  taken : BitVec 32
  deriving DecidableEq, Repr

/-- What a request to another device does (R380). -/
inductive ReqKind where
  | read
  | write
  | atomic
  deriving DecidableEq, Repr

/-- A reply to a remote access that a lane's instruction is waiting for (R380). -/
structure RemoteReply where
  kind : ReqKind
  lane : Nat
  pa : Nat
  len : Nat
  flowSource : Nat
  flowDest : Nat
  seq : BitVec 32
  /-- `none` until the reply arrives; then whether it failed, and what it brought. -/
  answer : Option (Bool × ReplyBytes)
  deriving DecidableEq, Repr

/-- An access of a lane's word that has passed its path (R191) and waits for another device (R380): the word goes on with
it, and does not begin it again. -/
structure Began where
  lane : Nat
  /-- The word, which is not fetched again. -/
  word : BitVec 32
  kind : ReqKind
  va : Nat
  len : Nat
  places : List Place
  /-- The bytes of an access that is a whole read already. -/
  bytes : Option (List Byte)
  deriving DecidableEq, Repr

/-- One group of 32 lanes (R14). -/
structure Group where
  /-- The quarter it sits on (R16). -/
  quarter : Nat
  lanes : Tab Lane
  /-- s0–s59. -/
  s : Store 32
  /-- k0–k11 (R205). -/
  k : Store 32
  /-- f0–f7; 0 is the starting, invalid state (R223). -/
  f : Store 32
  /-- Accumulator tiles: slot (i, j) of tile z at 1024 z + 64 i + j (R226). -/
  z : Store 56
  /-- The uniform set's latches. -/
  uq : Latches
  /-- Lanes part-way through the run the group is issuing, with latches still good (R22, R24). -/
  runMask : BitVec 32
  /-- How many words of the run precede the one being issued (R21). -/
  runPos : Nat
  /-- The store FIFO, oldest first. -/
  fifo : List FifoEntry
  /-- Sectors whose bytes later loads of the group may return as they stood (R99: loads of different sectors are not
  ordered): sector number and 32 bytes. -/
  early : Tab (List Byte)
  /-- Handler instances, level 1 first (R349). -/
  handlers : List Handler
  /-- %traplevel. -/
  trapLevel : BitVec 2
  trapCause : BitVec 8
  trapPc : Word64
  trapInfo : Word
  /-- %handler as this group sees it, and as it stood when the word issued at which lanes of the group
  were last held to arrive, trap or go on together: BAR, BARN or a matrix word (R166). -/
  handler : Word64
  heldHandler : Word64
  pending : Option Pending
  /-- The branch predictor's records (R294): the lanes that took the branch at an address when they last
  executed it. No program sees them. -/
  history : Store 32
  /-- The next fragment birth number. -/
  nextBase : Nat
  /-- Every lane has ended (R39). -/
  ended : Bool
  /-- The group stopped (R354). -/
  stopped : Bool
  /-- Asked to stop at its next run boundary, and whether it has stopped there (R357). -/
  stopping : Bool
  saved : Bool
  /-- Buddy blocks of register granules and of tiles: (start, length) (R314). -/
  regBlocks : List (Nat × Nat)
  zBlocks : List (Nat × Nat)
  remote : List RemoteReply
  /-- The accesses that the replies in `remote` are for, and the word that issued last (R380). -/
  began : List Began
  word : BitVec 32
  /-- 32-byte pieces as they stood at a moment since the group's last word, for the loads of its next word, and those of the
  word at issue: the pieces of one access are read one by one (R11, R94). Scratchpad pieces have even numbers. -/
  ahead : Tab (List Byte)
  pieces : Tab (List Byte)
  /-- Whether the group's next load or relaxed atomic is put off, if it can be (R99). -/
  lazy : Bool
  deriving DecidableEq, Repr

/-- A barrier b0–b15, or the team barrier (R216). -/
structure Barrier where
  gen : BitVec 8
  count : BitVec 6
  arrived : BitVec 32
  deriving DecidableEq, Repr

/-- A convergence register (R220). -/
structure Conv where
  signed : BitVec 128
  gen : BitVec 8
  fixed : Bool
  quartet : BitVec 3
  mask : BitVec 4
  complete : Bool
  deriving DecidableEq, Repr

/-- One group's part of a started quartet step: its word's fields and the operands as they stood at the
start (R229). Register r (0–8) of lane l of a block is at key 32 r + l. -/
structure StepWord where
  z : Nat
  zero : Bool
  p : Nat
  sa : Nat
  sb : Nat
  a : Store 32
  b : Store 32
  fa : Word
  fb : Word
  deriving DecidableEq, Repr

/-- A started quartet step (R229), keyed by its convergence register. -/
structure QStep where
  quartet : Nat
  container : Nat
  words : List StepWord
  deriving DecidableEq, Repr

/-- A work-graph team's bunks (R264, R319). -/
structure WgTeam where
  node : Nat
  /-- Bunks reserved for port p and not yet taken. -/
  left : Tab Nat
  /-- Free bunk addresses drawn for the team's reservation. -/
  pool : List Nat
  /-- Bunks taken by WG.RESERVE and not emitted: (address, port). -/
  held : List (Nat × Nat)
  /-- Bunks of the records the team consumed; they return to the hostel at its end. -/
  consumed : List Nat
  /-- The address of its input list, 0 for node 0. -/
  input : Nat
  done : Bool
  deriving DecidableEq, Repr

/-- A shading lane's coverage (R252): its triangle's place in acceptance order and the virtual
addresses of its covered samples' colours. -/
structure ShadeLane where
  seq : Nat
  samples : List Nat
  deriving DecidableEq, Repr

/-- A lane's load or relaxed atomic that has issued and is performed later: accesses of different sectors are not ordered
at die scope and wider (R99). -/
structure Late where
  group : Nat
  lane : Nat
  dst : Opd
  places : List Place
  /-- For an atomic (R199): its function, whether it takes its operands as unsigned, the operand, and the new value. -/
  atomic : Option (BitVec 3 × Bool × Nat × Nat)
  /-- How many words of the run the lane has executed since: where the result stands among the latches (R143). -/
  age : Nat
  deriving DecidableEq, Repr

/-- One team (R14). -/
structure Team where
  grid : Nat
  /-- %team. -/
  index : Nat
  part : Nat
  /-- %core, %cluster and %pcore (R15). -/
  core : Nat
  cluster : Nat
  pcore : Nat
  ngroup : Nat
  /-- .regs (R17) and .ztiles (R225). -/
  regs : Nat
  ztiles : Nat
  /-- Scratchpad limit (R68) and the allocation's bytes. -/
  limit : Nat
  scratch : Store 8
  /-- Stores that the groups of the team see and memory does not hold yet, oldest first, each within one sector (R98,
  R99). -/
  buffer : List Buffered
  /-- Accesses that are put off, in the order of their issue (R99). -/
  late : List Late
  /-- %handler as last written (R164). -/
  handler : Word64
  groups : Tab Group
  /-- b0–b15 at 0–15, the team barrier at 16. -/
  barriers : Tab Barrier
  /-- c0–c7. -/
  conv : Tab Conv
  /-- Started quartet steps. -/
  steps : Tab QStep
  wg : Option WgTeam
  /-- Shading lanes by 32 × group + lane; empty for every other team. -/
  shade : Tab ShadeLane
  /-- The grid whose RAST.TRI a shading team serves (R252), else none. -/
  shadeFor : Option Nat
  /-- The scratchpad's buddy block in granules: (start, length). -/
  block : Nat × Nat
  deriving DecidableEq, Repr

/-- A record waiting at a work-graph node (R320). -/
structure WgRecord where
  bunk : Nat
  /-- Cycle count at its WG.EMIT. -/
  since : Nat
  deriving DecidableEq, Repr

/-- A node of a work graph (R318). -/
structure WgNode where
  /-- Ports 0–7: (TARGET, MAX). -/
  ports : List (Nat × Nat)
  depth : Nat
  timeout : Nat
  thresh : Nat
  packet : BitVec 1024
  pending : List WgRecord
  /-- Teams formed and waiting for admission: their records. -/
  formed : List (List WgRecord)
  /-- Teams of the node admitted so far, and those of them that have not ended. -/
  made : Nat
  live : Nat
  closed : Bool
  deriving DecidableEq, Repr

/-- A grid's work graph (R318–R321). -/
structure WorkGraph where
  nodes : Tab WgNode
  /-- Free bunks among the HCOUNT bunks. -/
  free : List Nat
  /-- Where the bunks held apart for input lists begin, and the numbers of those in use. -/
  listBase : Nat
  lists : List Nat
  deriving DecidableEq, Repr

/-- An access that the Concierge makes on a grid's behalf (R407): the dependence word, the completion
record, the retirement counter, the work-graph descriptor and its packets, an input list in the hostel. -/
inductive CAccess where
  | dependence
  | record
  | counter
  | graph
  | hostel
  deriving DecidableEq, Repr

/-- What the Concierge is waiting for on a grid's behalf (R407): nothing, or a fault token for an access. -/
inductive CWait where
  | none
  | token (token : Nat) (what : CAccess)
  deriving DecidableEq, Repr

/-- One grid (R14, R358). -/
structure Grid where
  packet : BitVec 1024
  depth : Nat
  /-- The parent grid's number; none for a queue grid. -/
  parent : Option Nat
  part : Nat
  queue : Nat
  tenant : BitVec 16
  asid : BitVec 16
  root : BitVec 44
  /-- Its place among the packets taken from its queue (R308). -/
  order : Nat
  /-- The next %team to admit, live teams and live child grids (R358). -/
  next : Nat
  liveTeams : Nat
  liveKids : Nat
  /-- The dependence word has been seen satisfied (R309). -/
  depOk : Bool
  stopped : Bool
  aborted : Bool
  /-- The completion record and the counter add of its retirement are behind it (R307). -/
  recordDone : Bool
  counterDone : Bool
  wg : Option WorkGraph
  /-- The raster unit's launch for this grid's triangles (R251). -/
  shadesFor : Option Nat
  wait : CWait
  deriving DecidableEq, Repr

/-- A transform stage (R255) with its 64 bits. -/
abbrev Stage := BitVec 64

/-- A sealed shape record (R254) and the team that owns its handle. -/
structure Shape where
  team : Nat
  record : BitVec 768
  /-- SHAPE.DROP has been executed; the entry goes when its last operation completes (R256). -/
  dropped : Bool
  deriving DecidableEq, Repr

/-- One engine operation in flight (R257–R262). -/
structure EngineOp where
  team : Nat
  grid : Nat
  part : Nat
  pcore : Nat
  asid : BitVec 16
  /-- Courier room, or none for the Porter. -/
  room : Option Nat
  /-- Its source and destination range-lock entries. -/
  locks : List Nat
  src : Nat
  srcLen : Nat
  dst : Nat
  dstLen : Nat
  /-- Shape mode: the record, the tile origin and DIR (R257). -/
  shape : Option (BitVec 768 × BitVec 128 × Bool)
  handle : Option Nat
  stages : List Stage
  bobj : Nat
  /-- What the barrier object counts for this operation. -/
  owes : Nat
  /-- The token it waits on (R261). -/
  token : Option Nat
  /-- System software has stopped it (R336, R363). -/
  aborted : Bool
  /-- Once its data are known: the destination bytes, by virtual address, that another device has not confirmed yet
  (R108, R380), and the stop that ends it, if one does. -/
  out : Option (List (Nat × Byte) × Option (Nat × Nat))
  remote : List RemoteReply
  deriving DecidableEq, Repr

/-- A range lock (R107): destination or source, and its range, with the room for R386. -/
structure RangeLock where
  /-- The team whose operation it belongs to, and its address space: a range names addresses of that space,
  or of that team's scratchpad. -/
  team : Nat
  part : Nat
  asid : BitVec 16
  base : Nat
  len : Nat
  dst : Bool
  room : Nat
  deriving DecidableEq, Repr

/-- A cached translation, or a cached non-leaf entry of a page table (R330). -/
structure TlbEntry where
  part : Nat
  asid : BitVec 16
  global : Bool
  vpn : Nat
  level : Nat
  pte : BitVec 64
  deriving DecidableEq, Repr

/-- A key of the guestbook filter (R87). -/
structure GbKey where
  ring : Nat
  resid : Nat
  level : Nat
  tile : Nat
  deriving DecidableEq, Repr

/-- A cached waystation record (R122): its address space, address and GEN, and its bytes. -/
structure WayEntry where
  part : Nat
  asid : BitVec 16
  addr : Nat
  gen : Word
  bytes : BitVec 4096
  deriving DecidableEq, Repr

/-- A core's room-key register (R322). -/
structure RoomKey where
  remain : Word
  holder : BitVec 6
  held : Bool
  en : Bool
  deriving DecidableEq, Repr

/-- A triangle accepted by the raster unit (R251). -/
structure RastTri where
  seq : Nat
  grid : Nat
  team : Nat
  /-- The render state (R249) as read at RAST.TRI, and its address. -/
  state : BitVec 512
  stateAddr : Nat
  /-- Screen x, y, z of a, b, c, then the tag. -/
  verts : List Word
  token : Option Nat
  deriving DecidableEq, Repr

/-- A lane of a shading team as it starts (R252): its first v registers, whether it is a helper, and the virtual
addresses of its covered samples' colours. -/
structure ShadeInit where
  regs : List Word
  helper : Bool
  samples : List Nat
  deriving DecidableEq, Repr

/-- A shading team to be dispatched (R132): its grid, its triangle's place in acceptance order, and its lanes, 32 to
a group. -/
structure ShadeJob where
  grid : Nat
  seq : Nat
  lanes : List ShadeInit
  deriving DecidableEq, Repr

/-- One physical core. -/
structure Core where
  /-- The tenant tag it last served (R316), and whether it has been scrubbed since. -/
  tag : Option (BitVec 16)
  /-- An uncontained error took it out until the partition reboots (R376). -/
  dead : Bool
  shapes : Tab Shape
  /-- Guestbook duplicate filter, oldest first (R87). -/
  filter : List GbKey
  way : List WayEntry
  locks : Tab RangeLock
  tlb : List TlbEntry
  /-- Its paging-structure cache: non-leaf entries, oldest first (R330). -/
  walks : List TlbEntry
  key : RoomKey
  /-- Cycle counts of droop events (R311). -/
  droops : List Nat
  raster : List RastTri
  /-- Shading teams that wait for room on the core, oldest first. -/
  jobs : List ShadeJob
  /-- The number of its next atomic on global memory (R380). -/
  atomSeq : BitVec 32
  /-- The last acceptance number whose colour each physical sample address holds (R252). -/
  colours : Tab Nat
  deriving DecidableEq, Repr

/-- One compute die: the Porter's and Courier's walk-ahead TLB and paging-structure cache, and the rooms in use (R261,
R330). -/
structure Die where
  tlb : List TlbEntry
  walks : List TlbEntry
  rooms : Tab Nat
  deriving DecidableEq, Repr

/-- An outstanding fault token (R335). -/
structure Token where
  part : Nat
  asid : BitVec 16
  page : Nat
  write : Bool
  deriving DecidableEq, Repr

/-- A launch queue: its register block (R303), translation root (R325) and context register (R356). -/
structure Queue where
  qbase : Word64
  qlog : BitVec 5
  en : Bool
  prio : BitVec 3
  err : Bool
  tail : Word
  head : Word
  estat : Word
  retired : Word
  leaseMax : Word
  rootMode : BitVec 4
  rootAsid : BitVec 16
  rootPpn : BitVec 44
  cbase : Word64
  csize : Word64
  need : Word64
  nteam : Word
  ngrid : Word
  rstat : BitVec 4
  /-- The command a busy context register is carrying out: 0 none, 1 save, 2 restore, 3 abort. -/
  cmd : BitVec 2
  /-- CBASE and CSIZE as they stood when that command was written (R407). -/
  areaBase : Nat
  areaSize : Nat
  /-- Team blocks still to be admitted by a restore, by offset in the area, with the grid numbers, and the area's bytes as
  the restore read them (R361). -/
  restore : List (Nat × Nat)
  area : List Byte
  /-- A packet whose work-graph descriptor the Concierge could not read: the token (R407). -/
  wait : CWait
  deriving DecidableEq, Repr

/-- A ring of records: fault ring (R333) or error ring (R377). -/
structure Ring where
  base : Word64
  log : BitVec 5
  en : Bool
  produce : Word
  consume : Word
  /-- Records waiting in the device, oldest first. -/
  waiting : List (BitVec 256)
  deriving DecidableEq, Repr

/-- A guestbook ring (R340). -/
structure GbRing where
  base : Word64
  cap : BitVec 5
  en : Bool
  ovf : Bool
  produce : Word
  consume : Word
  ovfCount : Word
  /-- Entries not placed yet, in the order in which they will be: %time has not passed their STAMP (R89). -/
  waiting : List (BitVec 128)
  deriving DecidableEq, Repr

/-- The invalidation register (R331). -/
structure Inval where
  scope : BitVec 2
  asid : BitVec 16
  npages : Word
  va : Word64
  done : Bool
  /-- The invalidation in progress: SCOPE, ASID, NPAGES and VA as GO was written. -/
  job : Option (BitVec 2 × BitVec 16 × Word × Word64)
  deriving DecidableEq, Repr

/-- A migration slot (R343). -/
structure MigSlot where
  src : Word64
  dst : Word64
  size : BitVec 2
  zsrc : Bool
  zdst : Bool
  state : BitVec 2
  /-- The copy in progress: SRC, DST, SIZE, ZSRC and ZDST as GO was written. -/
  job : Option (Nat × Nat × Nat × Bool × Bool)
  deriving DecidableEq, Repr

/-- The inspection register and its page (R385). -/
structure Inspect where
  stamp : Word64
  index : BitVec 8
  unit : BitVec 4
  done : Bool
  page : Store 8
  /-- UNIT and INDEX of the snapshot being taken, as they stood when GO was written. -/
  job : Option (Nat × Nat)
  deriving DecidableEq, Repr

/-- What the configuration gives a partition (R372, R373). -/
structure PartCfg where
  sysCores : BitVec 16
  clUnits : BitVec 8
  chGroups : BitVec 8
  tierBase : Nat
  tierSize : Nat
  /-- Its network port and storage namespace (0xFF none), encode engines and display heads (R366, R375). -/
  netPort : BitVec 8
  nSpace : BitVec 8
  encode : BitVec 8
  heads : BitVec 8
  /-- The physical core of each %core; its length is NCORE. -/
  cores : List Nat
  deriving DecidableEq, Repr

/-- One partition. -/
structure Part where
  cfg : PartCfg
  /-- NOOS and IDFAIL (R369). -/
  noos : Bool
  idFail : Bool
  /-- Its system cores run (R367 step 6). -/
  running : Bool
  /-- Stopped by an uncontained memory error (R376). -/
  halted : Bool
  quoteBusy : Bool
  quoteAddr : Word64
  /-- QADDR as it stood when GO was written. -/
  quoteAt : Nat
  /-- Concierge weights (R312) and the round-robin count (R311). -/
  dw : BitVec 4
  tw : BitVec 4
  placed : Nat
  /-- Admission alternation: the queue last served (R308). -/
  lastQueue : Nat
  queues : Tab Queue
  rings : Tab GbRing
  fault : Ring
  error : Ring
  cedrop : Word
  fclr : Bool
  inval : Inval
  mig : Tab MigSlot
  inspect : Inspect
  /-- What software has written to the registers of the partition's encode engines and display heads, by offset of the
  control window, oldest first (R375). -/
  media : List (Nat × Word)
  /-- Child-grid slots in use (R310). -/
  kids : Nat
  /-- MSI-X messages sent, by vector (R370). -/
  msix : Store 32
  /-- Machine-check interrupts raised to its system cores (R376). -/
  mcheck : Nat
  deriving DecidableEq, Repr

/-- One Milette link (R379). -/
structure Link where
  lanes : Nat
  /-- 0 up, 1 training, 2 down. -/
  state : Nat
  /-- Retries of the flit that waits for its acknowledgement. -/
  retries : Nat
  /-- The next flit expected, and the last of this end's flits that the other end acknowledged. -/
  nextRecv : BitVec 8
  lastAck : BitVec 8
  deriving DecidableEq, Repr

/-- An unanswered request of a flow that leaves this device (R380). -/
structure FlowReq where
  seq : BitVec 32
  req : RemoteReq
  tries : Nat
  deriving DecidableEq, Repr

/-- A flow from a unit of this device to another device (R380). -/
structure FlowOut where
  source : Nat
  dest : Nat
  next : BitVec 32
  unanswered : List FlowReq
  deriving DecidableEq, Repr

/-- A flow from another device into this one (R380): the next expected number and the kept replies. -/
structure FlowIn where
  dev : Nat
  source : Nat
  expect : BitVec 32
  kept : List (BitVec 32 × ReplyBytes)
  deriving DecidableEq, Repr

/-- The kept replies of one source's last atomics at a Steward (R380). -/
structure Kept where
  source : Nat
  replies : List (BitVec 32 × BitVec 64)
  deriving DecidableEq, Repr

/-- How far the boot has come (R367). -/
inductive Phase where
  /-- Powered, and the night clerk has not booted. -/
  | off
  /-- No accepted kind 1, 2 or 3 record: only the flash-write window is exposed. -/
  | recovery
  | running
  deriving DecidableEq, Repr

/-- An accepted record: where it lies in flash, its version and its bytes' SHA-256 (R365, R369). -/
structure Accepted where
  kind : Nat
  part : Nat
  addr : Nat
  version : Word
  hash : List Byte
  deriving DecidableEq, Repr

/-- The boot state and what it fixed (R364–R373). -/
structure Boot where
  phase : Phase
  flash : Store 8
  devnum : BitVec 22
  accepted : List Accepted
  /-- The accepted configuration body. -/
  body : Store 8
  poolBase : Nat
  poolSize : Nat
  disabled : BitVec 32
  /-- The role of each CXL port: port p at [2p+1:2p], 1 upstream, 2 downstream (R370, R372). -/
  cxlRole : BitVec 32
  /-- The identity seed (R368); zero before step 3 of the boot. -/
  seed : BitVec 256
  deriving DecidableEq, Repr

/-- A host's posted write that is not performed yet (R371): by which port (0 the PCIe port, 1 to 4 a CXL port) and
which partition's function, and what it writes. -/
structure Posted where
  port : Nat
  part : Nat
  bar : Nat
  off : Nat
  data : List Byte
  deriving DecidableEq, Repr

/-- A store of a system core to memory that is not performed yet (R103). -/
structure SystemStore where
  core : Nat
  pa : Nat
  data : List Byte
  deriving DecidableEq, Repr

/-- What a system core does in memory (R103, R304): it stores, or it orders its stores with a FENCE. -/
inductive SystemAct where
  | store (pa : Nat) (data : List Byte)
  | fence
  deriving DecidableEq, Repr

/-- What a save leaves that the context area has no field for (R362): the area's bytes, and its grids and teams as they
stood, in the order of their records, and by the offsets of their blocks (DESIGN CHOICE, log 27). -/
structure Shelf where
  area : List Byte
  grids : List Grid
  teams : Tab Team
  deriving DecidableEq, Repr

/-- What the model's step does next: an issue slot of a group, given to the fragment of a lane; the oldest store of
a FIFO, or one piece of it, made visible to the team; an entry of a team's buffer performed; a sector's bytes noted for a
group's later loads, or a piece's for its next word; a group told to put off its next load or relaxed atomic; a team's put-off
accesses performed; a host's posted write performed; a store or a FENCE of a system core, or one of its stores performed; bytes that an encode engine writes; the cached non-leaf entries of a core (or of a die) lost; or an event of the
table. -/
inductive Turn where
  | issue (team group lane : Nat)
  | drain (team group piece : Nat)
  | spill (team entry : Nat)
  | early (team group sector : Nat)
  | ahead (team group piece : Nat)
  | putOff (team group : Nat)
  | settle (team : Nat)
  | post (entry : Nat)
  | system (core : Nat) (act : SystemAct)
  | perform (entry : Nat)
  | media (part pa len : Nat)
  | forget (die : Bool) (n : Nat)
  | event (i : Instr)
  deriving DecidableEq, Repr

/-- Which turn comes next. The plan is the order in which the surroundings and the arbiters act; an
empty plan leaves the choice to the model's own round robin. -/
structure Sched where
  plan : List Turn
  /-- The issue slot being used: team, group, lane. -/
  cur : Option (Nat × Nat × Nat)
  /-- Turns that the model's own arbiter has given: which kind of turn, and which event, comes next. -/
  turn : Nat
  /-- Its queues: the ready groups (team, group), and the ready lanes (team, group, lane), each in the order in
  which they became ready or last issued. -/
  groups : List (Nat × Nat)
  lanes : List (Nat × Nat × Nat)
  /-- Pairs of a group that waits to issue a run and another of its quarter that has issued one since (R28). -/
  ran : List ((Nat × Nat) × (Nat × Nat))
  /-- What each ready lane's fragment has waited (R27): lane, runs of other fragments, most other ready ones. -/
  skips : List ((Nat × Nat × Nat) × Nat × Nat)
  /-- The groups that have executed YIELD, each with the groups that have issued a run since (R171). -/
  yields : List ((Nat × Nat) × List (Nat × Nat))
  deriving DecidableEq, Repr

/-- The device. -/
structure State where
  /-- Physical memory: GDDR7, the second tier and host-visible memory, by physical address. -/
  mem : Store 8
  /-- Poisoned sectors: physical address / 32 (R75, R346). -/
  poison : Store 1
  /-- How each 4 KiB frame's bytes are held (R345), by frame number: 0 not settled, 1 plain, 2 compressed. -/
  enc : Store 2
  /-- Whether the page of each 4 KiB frame is poison-tracked (R326, R346), by frame number: 0 no leaf has reached the
  frame, 1 P = 0, 2 P = 1. -/
  prot : Store 2
  boot : Boot
  parts : Tab Part
  cores : Tab Core
  dies : Tab Die
  grids : Tab Grid
  teams : Tab Team
  ops : Tab EngineOp
  tokens : Tab Token
  stewards : Tab (List Kept)
  links : Tab Link
  flowsOut : List FlowOut
  flowsIn : List FlowIn
  /-- Replies that the Concierge and the raster units wait for; `lane` is the number of the grid, queue or
  triangle they wait for it with. -/
  remotes : List RemoteReply
  /-- Posted writes of the host, oldest first. -/
  posted : List Posted
  /-- Stores of the system cores that are not performed yet, oldest first (R103). -/
  systems : List SystemStore
  /-- What saves have left beside their context areas. -/
  shelf : List Shelf
  /-- The 20 ns bound holds (R382). -/
  timeBound : Bool
  /-- %time in nanoseconds, and the arithmetic clock's cycles since boot. -/
  time : Nat
  cycles : Nat
  /-- Steps taken: the index of the free values. -/
  steps : Nat
  /-- The next number for a grid, team, operation or accepted triangle. -/
  fresh : Nat
  /-- What the last host read returned (R371), and whether the last configuration request was told to
  retry (R367). -/
  hostReply : List Byte
  hostRetry : Bool
  sched : Sched
  deriving DecidableEq, Repr

/-- Why a step can stop. -/
inductive Fault where
  /-- Raised by every word's meaning when no fragment holds the issue slot (`sched.cur` names none):
  no such step of the device exists. Safe: nothing is claimed of it. -/
  | noIssuer
  deriving DecidableEq, Repr

/-- Why a step has no meaning. -/
inductive Refusal where
  /-- Raised by an arm of `exec` whose instruction has no meaning yet. Safe: nothing is claimed of it. -/
  | notModelled (mnemonic : String)
  deriving DecidableEq, Repr

/-- An idle link: up, at its full 8 lanes (PRESUMED, log 31). -/
def Link.reset : Link := ⟨8, 0, 0, 0, 0⟩

/-- A core with nothing in it. -/
def Core.reset : Core :=
  { tag := none, dead := false, shapes := [], filter := [], way := [], locks := [], tlb := [],
    walks := [], key := ⟨0, 0, false, false⟩, droops := [], raster := [], jobs := [], atomSeq := 0, colours := [] }

/-- The boot state of a device that has power and nothing in its flash. -/
def Boot.reset : Boot :=
  { phase := .off, flash := [], devnum := 0, accepted := [], body := [], poolBase := 0, poolSize := 0,
    disabled := 0, cxlRole := 0, seed := 0 }

/-- The machine right after power-on, before POWER_ON_BOOT (R367): no partition exists, no core holds
a team, memory lists nothing (DESIGN CHOICE, logs 1, 2, 8 and 61). -/
def State.reset : State :=
  { mem := [], poison := [], enc := [], prot := [], boot := Boot.reset, parts := [],
    cores := (List.range 256).map (fun c => (c, Core.reset)),
    dies := [(0, ⟨[], [], []⟩), (1, ⟨[], [], []⟩)],
    grids := [], teams := [], ops := [], tokens := [], stewards := [],
    links := (List.range 18).map (fun l => (l, Link.reset)),
    flowsOut := [], flowsIn := [], remotes := [], posted := [], systems := [], shelf := [], timeBound := true, time := 0, cycles := 0, steps := 0, fresh := 1,
    hostReply := [], hostRetry := false, sched := ⟨[], none, 0, [], [], [], [], []⟩ }

end Sys2Proof.Machine
end

