-- ==== Sys2Proof/Machine/Flags.lean ====
section
/-!
DEFINITION. Status flags (R50): their bits, how an instruction raises them, which of them are reported by a
STATUS trap (R355), and how SYSWR %status clears them (R164). The flags each float operation raises stand
with the operation (Machine/Float.lean, Machine/Narrow.lean, Machine/Elementary.lean).
-/
namespace Sys2Proof.Machine

/-- Status flags (R50). -/
abbrev Flags := BitVec 6

/-- Invalid operation. -/
def flagNV : Flags := 1#6
/-- Division by zero. -/
def flagDZ : Flags := 2#6
/-- Overflow. -/
def flagOF : Flags := 4#6
/-- Underflow. -/
def flagUF : Flags := 8#6
/-- Inexact. -/
def flagNX : Flags := 16#6
/-- Saturated. -/
def flagSAT : Flags := 32#6

/-- The lane with flags ORed into its sticky status (R50). -/
def Lane.raise (L : Lane) (f : Flags) : Lane := { L with status := L.status ||| f }

/-- NV, DZ and OF: the flags that a STATUS trap reports (R355). -/
def reportable : Flags := flagNV ||| flagDZ ||| flagOF

/-- Whether a lane has flags to report that it has not reported (R355). -/
def Lane.unreported (L : Lane) : Bool := L.status &&& reportable &&& ~~~ L.rpt != 0

/-- The lane with flags reported: RPT takes its status (R355). -/
def Lane.report (L : Lane) : Lane := { L with rpt := L.rpt ||| L.status }

/-- The lane with flags cleared by SYSWR %status, in its status and in RPT (R164, R355). -/
def Lane.clearStatus (L : Lane) (f : Flags) : Lane :=
  { L with status := L.status &&& ~~~ f, rpt := L.rpt &&& ~~~ f }

end Sys2Proof.Machine
end

