-- ==== Sys2Proof/Machine/Float.lean ====
section
/-!
DEFINITION. Float formats and exact arithmetic with one rounding (02_numbers.md R45 to R54, R61, R63).
Finite values are exact: m × 2^e with a sign. Nothing here is approximated; the functions that need an
enclosure are in Machine/Elementary.lean.
-/
namespace Sys2Proof.Machine

/-- A rounding mode (R53), in its encoded order (R146). -/
inductive RMode where
  | rne
  | rz
  | ru
  | rd
  | ro
  deriving DecidableEq, Repr

/-- The mode a field holds (R185); the reserved values do not reach here. -/
def roundMode (n : Nat) : RMode :=
  match n with
  | 0 => .rne
  | 1 => .rz
  | 2 => .ru
  | 3 => .rd
  | _ => .ro

/-- A binary format (R45): fraction bits, exponent bits and bias. -/
structure Fmt where
  frac : Nat
  exp : Nat
  bias : Nat
  deriving DecidableEq, Repr

def f32 : Fmt := ⟨23, 8, 127⟩
def f16 : Fmt := ⟨10, 5, 15⟩
def g16 : Fmt := ⟨7, 8, 127⟩
def a56 : Fmt := ⟨44, 11, 1023⟩

/-- The exponent of the smallest normal value. -/
def Fmt.emin (f : Fmt) : Int := 1 - (f.bias : Int)

/-- The exponent of the largest finite values. -/
def Fmt.emax (f : Fmt) : Int := (2 ^ f.exp - 2 : Nat) - (f.bias : Int)

/-- The sign bit, as a number. -/
def Fmt.sign (f : Fmt) : Nat := 2 ^ (f.exp + f.frac)

/-- Infinity's magnitude code. -/
def Fmt.inf (f : Fmt) : Nat := (2 ^ f.exp - 1) * 2 ^ f.frac

/-- The canonical NaN (R45). -/
def Fmt.nan (f : Fmt) : Nat := f.inf + 2 ^ (f.frac - 1)

/-- The largest finite magnitude code. -/
def Fmt.maxFinite (f : Fmt) : Nat := f.inf - 1

/-- A decoded float: a NaN (signalling or not, R48), an infinity, or ± m × 2^e. -/
inductive FVal where
  | nan (signalling : Bool)
  | inf (neg : Bool)
  | fin (neg : Bool) (m : Nat) (e : Int)
  deriving DecidableEq, Repr

/-- The value of a code (R45). -/
def Fmt.value (f : Fmt) (code : Nat) : FVal :=
  let neg := code / f.sign % 2 == 1
  let ex := code / 2 ^ f.frac % 2 ^ f.exp
  let fr := code % 2 ^ f.frac
  if ex = 2 ^ f.exp - 1 then
    if fr = 0 then .inf neg else .nan (fr < 2 ^ (f.frac - 1))
  else if ex = 0 then .fin neg fr (f.emin - f.frac)
  else .fin neg (2 ^ f.frac + fr) ((ex : Int) - f.bias - f.frac)

/-- A code with a sign put on its magnitude. -/
def Fmt.signed (f : Fmt) (neg : Bool) (mag : Nat) : Nat := if neg then f.sign + mag else mag

/-- The number of bits of a number: 0 for 0. -/
def bitLength (m : Nat) : Nat := if m = 0 then 0 else Nat.log2 m + 1

/-- The integer chosen for (m + δ) × 2^(−shift), where 0 < δ < 1 when sticky and δ = 0 otherwise, and
whether that is inexact (R53; the parity of a code is that of its integer). -/
def roundShift (mode : RMode) (neg : Bool) (m : Nat) (sticky : Bool) (shift : Int) : Nat × Bool :=
  match shift with
  | .negSucc k => (m * 2 ^ (k + 1), sticky)
  | .ofNat 0 => (m, sticky)
  | .ofNat (k + 1) =>
    let lo := m / 2 ^ (k + 1)
    let rem := m % 2 ^ (k + 1)
    let half := 2 ^ k
    let inexact := rem != 0 || sticky
    let up :=
      match mode with
      | .rne => decide (rem > half) || (rem == half && (sticky || lo % 2 == 1))
      | .rz => false
      | .ru => inexact && !neg
      | .rd => inexact && neg
      | .ro => inexact && lo % 2 == 0
    (if up then lo + 1 else lo, inexact)

/-- Round of R10 and R53 on the magnitude (m + δ) × 2^e with a sign, and its flags (R50, R51). The caller
gives m enough bits that δ lies below the last place. A nonzero value that rounds to zero keeps its sign (PRESUMED,
log 66). -/
def roundTo (f : Fmt) (mode : RMode) (neg : Bool) (m : Nat) (e : Int) (sticky : Bool) : Nat × Flags :=
  if m = 0 ∧ sticky = false then (f.signed neg 0, 0) else
  let top : Int := (bitLength m : Int) - 1 + e
  let qmin : Int := f.emin - f.frac
  let q : Int := max (top - f.frac) qmin
  let (r, inexact) := roundShift mode neg m sticky (q - e)
  let mag := (q - qmin).toNat * 2 ^ f.frac + r
  if mag > f.maxFinite then
    let big :=
      match mode with
      | .rne => f.inf
      | .rz => f.maxFinite
      | .ro => f.maxFinite
      | .ru => if neg then f.maxFinite else f.inf
      | .rd => if neg then f.inf else f.maxFinite
    (f.signed neg big, flagOF ||| flagNX)
  else
    let free := (roundShift mode neg m sticky (top - f.frac - e)).1
    let tiny := decide (top < f.emin) && !(top + 1 == f.emin && free == 2 ^ (f.frac + 1))
    let nx := if inexact then flagNX else 0
    let uf := if inexact && tiny then flagUF else 0
    (f.signed neg mag, nx ||| uf)

/-- The NaN result with NV when a signalling NaN took part (R48). -/
def nanResult (f : Fmt) (signalling : Bool) : Nat × Flags :=
  (f.nan, if signalling then flagNV else 0)

/-- An invalid operation's result (R48, R50). -/
def invalid (f : Fmt) : Nat × Flags := (f.nan, flagNV)

/-- Whether a value is a signalling NaN. -/
def FVal.signalling : FVal → Bool
  | .nan s => s
  | _ => false

/-- A finite value as a signed integer at a given exponent no higher than its own. -/
def scaled (neg : Bool) (m : Nat) (e at_ : Int) : Int :=
  let v : Int := (m * 2 ^ (e - at_).toNat : Nat)
  if neg then -v else v

/-- The exact sum of two finite values, rounded once (R47, R49, R53). -/
def addFin (f : Fmt) (mode : RMode) (n1 : Bool) (m1 : Nat) (e1 : Int) (n2 : Bool) (m2 : Nat) (e2 : Int) :
    Nat × Flags :=
  let e := min e1 e2
  let t := scaled n1 m1 e1 e + scaled n2 m2 e2 e
  if t = 0 then (f.signed (n1 && n2) 0, 0)
  else roundTo f mode (decide (t < 0)) t.natAbs e false

/-- FADD (R181): a + b. -/
def fadd (f : Fmt) (a b : Nat) : Nat × Flags :=
  match f.value a, f.value b with
  | .nan s, y => nanResult f (s || y.signalling)
  | x, .nan s => nanResult f (s || x.signalling)
  | .inf n1, .inf n2 => if n1 == n2 then (f.signed n1 f.inf, 0) else invalid f
  | .inf n, .fin _ _ _ => (f.signed n f.inf, 0)
  | .fin _ _ _, .inf n => (f.signed n f.inf, 0)
  | .fin n1 m1 e1, .fin n2 m2 e2 => addFin f .rne n1 m1 e1 n2 m2 e2

/-- A code with its sign bit turned over. -/
def Fmt.negate (f : Fmt) (a : Nat) : Nat := if a / f.sign % 2 == 1 then a - f.sign else a + f.sign

/-- FSUB (R181): a − b. A NaN operand keeps its class under the sign change. -/
def fsub (f : Fmt) (a b : Nat) : Nat × Flags := fadd f a (f.negate b)

/-- FMUL (R181): a × b. A zero product has the sign of the product of the operands' signs (PRESUMED, log 66). -/
def fmul (f : Fmt) (a b : Nat) : Nat × Flags :=
  match f.value a, f.value b with
  | .nan s, y => nanResult f (s || y.signalling)
  | x, .nan s => nanResult f (s || x.signalling)
  | .inf n1, .inf n2 => (f.signed (n1 != n2) f.inf, 0)
  | .inf n1, .fin n2 m _ => if m = 0 then invalid f else (f.signed (n1 != n2) f.inf, 0)
  | .fin n1 m _, .inf n2 => if m = 0 then invalid f else (f.signed (n1 != n2) f.inf, 0)
  | .fin n1 m1 e1, .fin n2 m2 e2 => roundTo f .rne (n1 != n2) (m1 * m2) (e1 + e2) false

/-- The product of two values that are not NaN, exactly: none for 0 × ∞. -/
def exactProduct : FVal → FVal → Option FVal
  | .inf n1, .inf n2 => some (.inf (n1 != n2))
  | .inf n1, .fin n2 m _ => if m = 0 then none else some (.inf (n1 != n2))
  | .fin n1 m _, .inf n2 => if m = 0 then none else some (.inf (n1 != n2))
  | .fin n1 m1 e1, .fin n2 m2 e2 => some (.fin (n1 != n2) (m1 * m2) (e1 + e2))
  | x, .nan _ => some x
  | .nan _, y => some y

/-- FFMA (R181, R48, R49): a × b + d with one rounding; 0 × ∞ is invalid whatever d is. -/
def ffma (f : Fmt) (a b d : Nat) : Nat × Flags :=
  let va := f.value a
  let vb := f.value b
  let vd := f.value d
  match va, vb with
  | .nan s, y => nanResult f (s || y.signalling || vd.signalling)
  | x, .nan s => nanResult f (s || x.signalling || vd.signalling)
  | x, y =>
    match exactProduct x y with
    | none => invalid f
    | some p =>
      match p, vd with
      | _, .nan s => nanResult f s
      | .inf n1, .inf n2 => if n1 == n2 then (f.signed n1 f.inf, 0) else invalid f
      | .inf n, .fin _ _ _ => (f.signed n f.inf, 0)
      | .fin _ _ _, .inf n => (f.signed n f.inf, 0)
      | .fin n1 m1 e1, .fin n2 m2 e2 => addFin f .rne n1 m1 e1 n2 m2 e2
      | .nan s, _ => nanResult f s

/-- A total order key of a code that is no NaN, with −0 below +0 (R48). -/
def Fmt.orderKey (f : Fmt) (a : Nat) : Int :=
  let mag : Int := (a % f.sign : Nat)
  if a / f.sign % 2 == 1 then -mag - 1 else mag

/-- FMIN and FMAX: minimumNumber and maximumNumber (R48). -/
def fminmax (f : Fmt) (max : Bool) (a b : Nat) : Nat × Flags :=
  let va := f.value a
  let vb := f.value b
  let nv := if va.signalling || vb.signalling then flagNV else 0
  match va, vb with
  | .nan _, .nan _ => (f.nan, nv)
  | .nan _, _ => (b, nv)
  | _, .nan _ => (a, nv)
  | _, _ =>
    let less := decide (f.orderKey a ≤ f.orderKey b)
    (if less == max then b else a, nv)

/-- The order of two values that are not NaN, as a comparison of exact reals: −0 equals +0. -/
def FVal.compare : FVal → FVal → Ordering
  | .inf n1, .inf n2 => if n1 == n2 then .eq else if n1 then .lt else .gt
  | .inf n, .fin _ _ _ => if n then .lt else .gt
  | .fin _ _ _, .inf n => if n then .gt else .lt
  | .fin n1 m1 e1, .fin n2 m2 e2 =>
    let e := min e1 e2
    Ord.compare (scaled n1 m1 e1 e) (scaled n2 m2 e2 e)
  | _, _ => .eq

/-- FCMP (R182): the relation's number (0 eq, 1 lt, 2 le, 3 un), and NV for a signalling NaN. -/
def fcmp (f : Fmt) (rel : Nat) (a b : Nat) : Bool × Flags :=
  let va := f.value a
  let vb := f.value b
  let nv := if va.signalling || vb.signalling then flagNV else 0
  match va, vb with
  | .nan _, _ => (rel == 3, nv)
  | _, .nan _ => (rel == 3, nv)
  | x, y =>
    let c := x.compare y
    (match rel with
      | 0 => c == .eq
      | 1 => c == .lt
      | 2 => c != .gt
      | _ => false, nv)

/-- A conversion between float formats (R53, R54): rounded by the mode; a NaN becomes the canonical one. -/
def fcvt (src dst : Fmt) (mode : RMode) (a : Nat) : Nat × Flags :=
  match src.value a with
  | .nan s => nanResult dst s
  | .inf n => (dst.signed n dst.inf, 0)
  | .fin n m e => roundTo dst mode n m e false

/-- Whether a magnitude m × 2^e is beyond the largest finite value of a format. -/
def Fmt.beyond (f : Fmt) (m : Nat) (e : Int) : Bool :=
  let g := f.emax - f.frac
  let b := min e g
  (2 ^ (f.frac + 1) - 1) * 2 ^ (g - b).toNat < m * 2 ^ (e - b).toNat

/-- ZRD's conversion with saturation (R63): beyond the largest finite value, ∞ included, the largest
finite value with SAT and NX. -/
def fcvtSat (src dst : Fmt) (mode : RMode) (a : Nat) : Nat × Flags :=
  match src.value a with
  | .nan s => nanResult dst s
  | .inf n => (dst.signed n dst.maxFinite, flagSAT ||| flagNX)
  | .fin n m e =>
    if dst.beyond m e then (dst.signed n dst.maxFinite, flagSAT ||| flagNX)
    else roundTo dst mode n m e false

/-- A finite value rounded to an integer by a mode (R54), and whether that changed it. -/
def roundInt (mode : RMode) (neg : Bool) (m : Nat) (e : Int) : Int × Bool :=
  let (r, inexact) := roundShift mode neg m false (-e)
  (if neg then -(r : Int) else r, inexact)

/-- A float to an integer of a range (R54): saturating with NV outside it, 0 with NV for a NaN, NX when
inexact. -/
def fToInt (f : Fmt) (mode : RMode) (lo hi : Int) (a : Nat) : Int × Flags :=
  match f.value a with
  | .nan _ => (0, flagNV)
  | .inf n => (if n then lo else hi, flagNV)
  | .fin n m e =>
    let (r, inexact) := roundInt mode n m e
    if r < lo then (lo, flagNV) else if r > hi then (hi, flagNV)
    else (r, if inexact then flagNX else 0)

/-- An integer to a float (R54). -/
def intToF (f : Fmt) (mode : RMode) (v : Int) : Nat × Flags :=
  roundTo f mode (decide (v < 0)) v.natAbs 0 false

/-- A float rounded to an integral value in its own format (R185, conversion 8); a nonzero value that rounds to zero
keeps its sign (PRESUMED, log 66). -/
def fIntegral (f : Fmt) (mode : RMode) (a : Nat) : Nat × Flags :=
  match f.value a with
  | .nan s => nanResult f s
  | .inf _ => (a, 0)
  | .fin n m e =>
    let (r, inexact) := roundInt mode n m e
    let (c, _) := roundTo f .rz n r.natAbs 0 false
    (c, if inexact then flagNX else 0)

/-- The integer square root of a number with at most 2 k bits, from its highest bit down. -/
def isqrtFrom (n : Nat) : Nat → Nat → Nat
  | 0, r => r
  | k + 1, r => isqrtFrom n k (if (r + 2 ^ k) * (r + 2 ^ k) ≤ n then r + 2 ^ k else r)

/-- The integer square root. -/
def isqrt (n : Nat) : Nat := isqrtFrom n (bitLength n / 2 + 1) 0

/-- FRCP (R52): 1 / a. -/
def frcp (f : Fmt) (a : Nat) : Nat × Flags :=
  match f.value a with
  | .nan s => nanResult f s
  | .inf n => (f.signed n 0, 0)
  | .fin n m e =>
    if m = 0 then (f.signed n f.inf, flagDZ) else
    let s := bitLength m + f.frac + 4
    roundTo f .rne n (2 ^ s / m) (-(s : Int) - e) (2 ^ s % m != 0)

/-- FSQRT (R52). -/
def fsqrt (f : Fmt) (a : Nat) : Nat × Flags :=
  match f.value a with
  | .nan s => nanResult f s
  | .inf n => if n then invalid f else (f.inf, 0)
  | .fin n m e =>
    if m = 0 then (a, 0) else if n then invalid f else
    let up : Nat := 2 * (f.frac + 4) + (if e % 2 = 0 then 0 else 1)
    let big := m * 2 ^ up
    let r := isqrt big
    roundTo f .rne false r ((e - up) / 2) (r * r != big)

/-- FRSQ (R52): 1 / √a. -/
def frsq (f : Fmt) (a : Nat) : Nat × Flags :=
  match f.value a with
  | .nan s => nanResult f s
  | .inf n => if n then invalid f else (0, 0)
  | .fin n m e =>
    if m = 0 then (f.signed n f.inf, flagDZ) else if n then invalid f else
    let odd : Nat := if e % 2 = 0 then 0 else 1
    let m' := m * 2 ^ odd
    let t := bitLength m' + f.frac + 4
    let r := isqrt (2 ^ (2 * t) / m')
    roundTo f .rne false r (-(t : Int) - (e - odd) / 2) (r * r * m' != 2 ^ (2 * t))

/-- A term of an exact sum: a signed integer m × 2^e. -/
structure Dyadic where
  m : Int
  e : Int
  deriving DecidableEq, Repr

/-- The exact sum of two dyadics. -/
def Dyadic.add (a b : Dyadic) : Dyadic :=
  let e := min a.e b.e
  ⟨a.m * 2 ^ (a.e - e).toNat + b.m * 2 ^ (b.e - e).toNat, e⟩

/-- The exact product of two dyadics. -/
def Dyadic.mul (a b : Dyadic) : Dyadic := ⟨a.m * b.m, a.e + b.e⟩

/-- The negated dyadic. -/
def Dyadic.neg (a : Dyadic) : Dyadic := ⟨-a.m, a.e⟩

/-- The order of two dyadics. -/
def Dyadic.compare (a b : Dyadic) : Ordering := Ord.compare (a.add b.neg).m 0

/-- A finite float value as a dyadic. -/
def FVal.dyadic : FVal → Dyadic
  | .fin n m e => ⟨if n then -(m : Int) else m, e⟩
  | _ => ⟨0, 0⟩

/-- The quotient of two integers times 2^e, rounded once (the divisor positive): the exact rational is
never formed; its bits below the last place become the sticky bit. Of an exact zero the sign is + (DESIGN CHOICE, log 66).
-/
def roundQuot (f : Fmt) (mode : RMode) (num : Int) (den : Nat) (e : Int) : Nat × Flags :=
  if num = 0 then (0, 0) else
  let s := bitLength den + f.frac + 4
  let big := num.natAbs * 2 ^ s
  roundTo f mode (decide (num < 0)) (big / den) (e - s) (big % den != 0)

end Sys2Proof.Machine
end

