-- ==== Sys2Proof/Machine/Elementary.lean ====
section
/-!
DEFINITION. FEXP2, FLOG2 and FSIN (02_numbers.md R52): the exact mathematical result, rounded once. The
result is enclosed between two fixed-point numbers whose distance covers every truncation below; when both
ends round alike, that is the result. Where they do not, the model leaves the value free
(Config.elementary): the true rounding lies at one of the two.
-/
namespace Sys2Proof.Machine

/-- Σ over k < n of x^k / (k! step): a Taylor sum kept in fixed point with b fraction bits; `term` is the
current term and each next one is term × x / ((k + 1) × …). -/
def expSum (b x : Nat) : Nat → Nat → Nat → Nat → Nat
  | 0, _, _, acc => acc
  | n + 1, k, term, acc =>
    let acc := acc + term
    expSum b x n (k + 1) (term * x / 2 ^ b / (k + 1)) acc

/-- Σ over k < n of z^(2k+1) / (2k+1) with alternating signs when alt is set: atanh or atan of z, in fixed
point with b fraction bits; pow is z^(2k+1) and sq is z². -/
def atanSum (alt : Bool) (b sq : Nat) : Nat → Nat → Nat → Int → Int
  | 0, _, _, acc => acc
  | n + 1, k, pow, acc =>
    let t : Int := (pow / (2 * k + 1) : Nat)
    let acc := if alt && k % 2 == 1 then acc - t else acc + t
    atanSum alt b sq n (k + 1) (pow * sq / 2 ^ b) acc

/-- atanh(num / den) or atan(num / den) with b fraction bits. -/
def atanOf (alt : Bool) (b num den terms : Nat) : Int :=
  let z := num * 2 ^ b / den
  atanSum alt b (z * z / 2 ^ b) terms 0 z 0

/-- ln 2 = 2 atanh(1/3) with b fraction bits. -/
def ln2 (b : Nat) : Nat := (2 * atanOf false b 1 3 (b / 3 + 4)).toNat

/-- π = 16 atan(1/5) − 4 atan(1/239) with b fraction bits (Machin). -/
def piFix (b : Nat) : Nat :=
  (16 * atanOf true b 1 5 (b / 4 + 4) - 4 * atanOf true b 1 239 (b / 15 + 4)).toNat

/-- The rounding of a value that lies strictly between lo and hi, in units of 2^(−b), when both ends give
the same code. -/
def roundBetween (f : Fmt) (neg : Bool) (b lo hi : Nat) : Option (Nat × Flags) :=
  let low := roundTo f .rne neg lo (-(b : Int)) true
  let high := roundTo f .rne neg (hi - 1) (-(b : Int)) true
  if low = high then some low else none

/-- The free result of an elementary function, with NX (DESIGN CHOICE, log 11). -/
def freeResult (fn : Nat) (a : Nat) : Nat × Flags :=
  ((Config.elementary fn (BitVec.ofNat 32 a)).toNat, flagNX)

/-- FEXP2 (R52). -/
def fexp2 (a : Nat) : Nat × Flags :=
  match f32.value a with
  | .nan s => nanResult f32 s
  | .inf n => (if n then 0 else f32.inf, 0)
  | .fin neg m e =>
    if m = 0 then (0x3F800000, 0) else
    let top := (bitLength m : Int) - 1 + e
    if top ≥ 8 then
      -- 2^a beyond every finite value, or below half the smallest one
      if neg then (0, flagUF ||| flagNX) else (f32.inf, flagOF ||| flagNX)
    else
      let b : Nat := 256
      -- a × 2^149 is an integer
      let g : Nat := 149
      let one : Nat := 2 ^ g
      let v := scaled neg m e (-(g : Int))
      let n := v / (one : Int)
      let fr := (v % (one : Int)).toNat
      if fr = 0 then roundTo f32 .rne false 1 n false else
      let x := fr * ln2 b / one
      let y := expSum b x 80 0 (2 ^ b) 0
      let lo := y - 2 ^ 24
      let lo := if lo < 2 ^ b then 2 ^ b else lo
      let hi := y + 2 ^ 24
      let scale (w : Nat) (dn : Bool) := roundTo f32 .rne false (if dn then w else w - 1) (n - b) true
      if scale lo true = scale hi false then scale lo true else freeResult 0 a

/-- FLOG2 (R52). -/
def flog2 (a : Nat) : Nat × Flags :=
  match f32.value a with
  | .nan s => nanResult f32 s
  | .inf n => if n then invalid f32 else (f32.inf, 0)
  | .fin neg m e =>
    if m = 0 then (f32.signed true f32.inf, flagDZ) else if neg then invalid f32 else
    let l := bitLength m - 1
    let ex : Int := l + e
    if m = 2 ^ l then intToF f32 .rne ex else
    let b : Nat := 256
    -- ln(m / 2^l) = 2 atanh((m − 2^l) / (m + 2^l)), the argument below 1/3
    let ln := (2 * atanOf false b (m - 2 ^ l) (m + 2 ^ l) 90).toNat
    let y := ln * 2 ^ b / ln2 b
    let t : Int := ex * 2 ^ b + y
    let lo := t - 2 ^ 24
    let hi := t + 2 ^ 24
    if lo ≥ 0 then (roundBetween f32 false b lo.toNat hi.toNat).getD (freeResult 1 a)
    else if hi ≤ 0 then (roundBetween f32 true b (-hi).toNat (-lo).toNat).getD (freeResult 1 a)
    else freeResult 1 a

/-- Σ of the sine (odd) or cosine (even) series: term × x² / ((k + 1)(k + 2)), alternating. -/
def sinSum (b sq : Nat) : Nat → Nat → Nat → Bool → Int → Int
  | 0, _, _, _, acc => acc
  | n + 1, k, term, minus, acc =>
    let acc := if minus then acc - term else acc + term
    sinSum b sq n (k + 2) (term * sq / 2 ^ b / ((k + 1) * (k + 2))) (!minus) acc

/-- FSIN (R52): the argument in radians, reduced exactly by an enclosure of π. -/
def fsin (a : Nat) : Nat × Flags :=
  match f32.value a with
  | .nan s => nanResult f32 s
  | .inf _ => invalid f32
  | .fin neg m e =>
    if m = 0 then (a, 0) else
    let b : Nat := 640
    -- |a| × 2^b is an integer: e ≥ −149
    let x : Nat := m * 2 ^ (e + (b : Int)).toNat
    let half := piFix b / 2
    let k := x / half
    let r := x - k * half
    let sq := r * r / 2 ^ b
    let y :=
      if k % 2 = 0 then sinSum b sq 120 1 r false 0 else sinSum b sq 120 0 (2 ^ b) false 0
    let minus := (k / 2 % 2 == 1) != neg
    -- the argument's error is at most (k + 1) times that of π/2
    let err : Int := 2 ^ 24 * ((k : Int) + 1)
    if y - err > 0 then
      (roundBetween f32 minus b (y - err).toNat (y + err).toNat).getD (freeResult 2 a)
    else freeResult 2 a

end Sys2Proof.Machine
end

