-- ==== Sys2Proof/Machine/Store.lean ====
section
/-!
DEFINITION. Operations on sparse stores and tables: keyed lists in one canonical form (keys strictly
rising; a store lists no zero), so that equal contents are equal data.
-/
namespace Sys2Proof.Machine

/-- The record at a key. -/
def Tab.get? {α : Type} : Tab α → Nat → Option α
  | [], _ => none
  | (k, a) :: m, i => if k = i then some a else Tab.get? m i

/-- The table with a record put at a key, in place of any that was there. -/
def Tab.put {α : Type} : Tab α → Nat → α → Tab α
  | [], i, a => [(i, a)]
  | (k, b) :: m, i, a =>
    if i < k then (i, a) :: (k, b) :: m
    else if i = k then (i, a) :: m
    else (k, b) :: Tab.put m i a

/-- The table without the record at a key. -/
def Tab.drop {α : Type} : Tab α → Nat → Tab α
  | [], _ => []
  | (k, a) :: m, i => if k = i then m else (k, a) :: Tab.drop m i

/-- The table with a function applied to the record at a key, if there is one. -/
def Tab.modify {α : Type} : Tab α → Nat → (α → α) → Tab α
  | [], _, _ => []
  | (k, a) :: m, i, f => if k = i then (k, f a) :: m else (k, a) :: Tab.modify m i f

/-- Keys in strictly rising order, all of them above a bound. -/
def Tab.risingFrom {α : Type} : Nat → Tab α → Bool
  | _, [] => true
  | b, (k, _) :: m => decide (b ≤ k) && Tab.risingFrom (k + 1) m

/-- The canonical form of a table: keys strictly rising. -/
def Tab.wf {α : Type} (m : Tab α) : Bool := Tab.risingFrom 0 m

/-- The value a store holds at a key: zero where none is listed. -/
def Store.get {w : Nat} (m : Store w) (i : Nat) : BitVec w := (Tab.get? m i).getD 0

/-- The store with a value written at a key; writing zero removes the entry. -/
def Store.set {w : Nat} (m : Store w) (i : Nat) (a : BitVec w) : Store w :=
  if a = 0 then Tab.drop m i else Tab.put m i a

/-- The canonical form of a store: keys strictly rising and no listed zero. -/
def Store.wf {w : Nat} (m : Store w) : Bool := Tab.wf m && m.all (fun e => e.2 != 0)

/-- Values at n keys from a base, lowest first. -/
def Store.getRange {w : Nat} (m : Store w) (base : Nat) : Nat → List (BitVec w)
  | 0 => []
  | n + 1 => Store.get m base :: Store.getRange m (base + 1) n

/-- The store with a list of values written from a base upward. -/
def Store.setRange {w : Nat} (m : Store w) (base : Nat) : List (BitVec w) → Store w
  | [] => m
  | a :: as => Store.setRange (Store.set m base a) (base + 1) as

/-- The lowest number below a bound that is no key of a table. -/
def Tab.lowestFree {α : Type} (m : Tab α) (bound : Nat) : Option Nat :=
  (List.range bound).find? (fun i => (Tab.get? m i).isNone)

end Sys2Proof.Machine
end

