-- ==== Sys2Proof/Machine/Memory.lean ====
section
/-!
DEFINITION. Physical memory, address translation and fault tokens (03_memories_and_lod.md R66 to R75,
23_translation_and_residency.md R325 to R336, R346, R348; 26_partitions_and_fleet.md R372, R373, R378).
-/
namespace Sys2Proof.Machine

/-- The state with a function applied to one partition. -/
def State.modPart (s : State) (p : Nat) (f : Part → Part) : State := { s with parts := Tab.modify s.parts p f }

/-- The state with a function applied to one core. -/
def State.modCore (s : State) (c : Nat) (f : Core → Core) : State := { s with cores := Tab.modify s.cores c f }

/-- The state with a function applied to one die. -/
def State.modDie (s : State) (d : Nat) (f : Die → Die) : State := { s with dies := Tab.modify s.dies d f }

/-- The state with a function applied to one team. -/
def State.modTeam (s : State) (t : Nat) (f : Team → Team) : State := { s with teams := Tab.modify s.teams t f }

/-- The state with a function applied to one grid. -/
def State.modGrid (s : State) (g : Nat) (f : Grid → Grid) : State := { s with grids := Tab.modify s.grids g f }

/-- The state with a function applied to one group of a team. -/
def State.modGroup (s : State) (t g : Nat) (f : Group → Group) : State :=
  s.modTeam t fun T => { T with groups := Tab.modify T.groups g f }

/-- The state with a function applied to one lane of a group. -/
def State.modLane (s : State) (t g l : Nat) (f : Lane → Lane) : State :=
  s.modGroup t g fun G => { G with lanes := Tab.modify G.lanes l f }

/-- Bits [lo + n - 1 : lo] of a number. -/
def bitsOf (v lo n : Nat) : Nat := v / 2 ^ lo % 2 ^ n

/-- The little-endian value of some bytes (R7). -/
def leValue : List Byte → Nat
  | [] => 0
  | b :: bs => b.toNat + 256 * leValue bs

/-- The n bytes of a value, lowest first (R7). -/
def toBytes : Nat → Nat → List Byte
  | 0, _ => []
  | n + 1, v => BitVec.ofNat 8 v :: toBytes n (v / 256)

/-- A canonical Sv57 address: bits [63:57] equal bit 56 (R66). -/
def canonical (a : Nat) : Bool := a < 2 ^ 56 || (2 ^ 64 - 2 ^ 56 ≤ a && a < 2 ^ 64)

/-- The scratchpad window's first address (R67). -/
def windowBase : Nat := 2 ^ 64 - 2 ^ 19

/-- Whether an address lies in the scratchpad window (R67). -/
def inWindow (a : Nat) : Bool := windowBase ≤ a

/-- A global address: canonical and outside the window (R69). -/
def globalAddr (a : Nat) : Bool := canonical a && !inWindow a

/-- Whether any of n bytes at a lies in the window (R67). -/
def meetsWindow (a n : Nat) : Bool := windowBase < a + n

/-- The 10^9-byte GB of external capacities (R8; DEDUCED, log 3). -/
def gigabyte : Nat := 1000000000

/-- A partition's memory ranges: 32 GB for each channel group, and its TIER range (R372, R373). -/
def PartCfg.ranges (c : PartCfg) : List (Nat × Nat) :=
  ((List.range 8).filter (fun g => c.chGroups.getLsbD g)).map (fun g => (32 * gigabyte * g, 32 * gigabyte))
    ++ (if c.tierSize = 0 then [] else [(c.tierBase, c.tierSize)])

/-- Whether [a, a + n) lies within the union of some ranges: each turn advances past one range. -/
def coveredBy (rs : List (Nat × Nat)) : Nat → Nat → Nat → Bool
  | _, _, 0 => true
  | 0, _, _ + 1 => false
  | fuel + 1, a, n + 1 =>
    match rs.find? (fun r => r.1 ≤ a && a < r.1 + r.2) with
    | none => false
    | some r => coveredBy rs fuel (r.1 + r.2) (n + 1 - (r.1 + r.2 - a))

/-- Whether n bytes at a physical address lie in a partition's memory (R373). -/
def PartCfg.holds (c : PartCfg) (a n : Nat) : Bool := coveredBy c.ranges 10 a n

/-- Whether n bytes at a physical address lie in the shared pool (R348, R373). -/
def State.inPool (s : State) (a n : Nat) : Bool :=
  s.boot.poolBase ≤ a && a + n ≤ s.boot.poolBase + s.boot.poolSize

/-- Whether a device structure at a physical address is in the partition's memory or the pool (R407). -/
def State.ownRange (s : State) (p a n : Nat) : Bool :=
  s.inPool a n || match Tab.get? s.parts p with
    | some q => q.cfg.holds a n
    | none => false

/-- A physical address with bit 55 set names remote memory (R378). -/
def remotePa (pa : Nat) : Bool := bitsOf pa 55 1 == 1

/-- A byte of physical memory. -/
def State.byte (s : State) (pa : Nat) : Byte := Store.get s.mem pa

/-- n bytes of physical memory. -/
def State.bytes (s : State) (pa n : Nat) : List Byte := Store.getRange s.mem pa n

/-- The little-endian value of n bytes of physical memory. -/
def State.physValue (s : State) (pa n : Nat) : Nat := leValue (s.bytes pa n)

/-- Bytes written to physical memory from an address upward. -/
def State.writePhys (s : State) (pa : Nat) (bs : List Byte) : State :=
  { s with mem := Store.setRange s.mem pa bs }

/-- Whether the sector of a physical address is poisoned (R75). -/
def State.poisoned (s : State) (pa : Nat) : Bool := Store.get s.poison (pa / 32) == 1#1

/-- Marks or clears the poison of the sector of a physical address. -/
def State.setPoison (s : State) (pa : Nat) (on : Bool) : State :=
  { s with poison := Store.set s.poison (pa / 32) (if on then 1 else 0) }

/-- The encoding that a leaf's Z bit names: 1 plain, 2 compressed (R326, R345). -/
def zCode (z : Nat) : BitVec 2 := if z = 0 then 1 else 2

/-- The poison tracking that a leaf's P bit names: 1 none, 2 tracked (R326, R346). -/
def pCode (p : Nat) : BitVec 2 := if p = 0 then 1 else 2

/-- An access to the frame of a physical address through a mapping with a Z value: the first one settles how
the frame's bytes are held. -/
def State.useFrame (s : State) (pa z : Nat) : State :=
  if Store.get s.enc (pa / 4096) = 0 then { s with enc := Store.set s.enc (pa / 4096) (zCode z) } else s

/-- Whether a frame's bytes are held otherwise than a mapping's Z value says (R345). -/
def State.mixed (s : State) (pa z : Nat) : Bool := Store.get s.enc (pa / 4096) != zCode z

/-- An access as translation and range locks see it (R107, R328). -/
inductive AccKind where
  | load
  | store
  | atomic
  | fetch
  | engineRead
  | engineWrite
  deriving DecidableEq, Repr

/-- KIND of a fault record (R334). -/
def AccKind.code : AccKind → Nat
  | .load => 0
  | .store => 1
  | .atomic => 2
  | .fetch => 3
  | .engineRead => 4
  | .engineWrite => 5

/-- Class of a token's key: write for kinds 1, 2 and 5 (R335). -/
def AccKind.writes : AccKind → Bool
  | .store => true
  | .atomic => true
  | .engineWrite => true
  | _ => false

/-- An address space: partition, ASID and root table (R325). -/
structure Space where
  part : Nat
  asid : BitVec 16
  root : BitVec 44
  deriving DecidableEq, Repr

/-- Why a walk failed: CAUSE, LEVEL and LOD of its fault record (R334). -/
structure XFail where
  cause : Nat
  level : Nat
  lod : Bool
  deriving DecidableEq, Repr

/-- The size in bytes of a leaf at a level (R327). -/
def leafSize (level : Nat) : Nat := 2 ^ (12 + 9 * level)

/-- Whether an entry that is valid is malformed at a level (R327). A pointer at level 0 leads nowhere and
counts as malformed (DEDUCED, log 17). -/
def malformed (e level : Nat) : Bool :=
  let leaf := bitsOf e 1 3 != 0
  bitsOf e 63 1 == 1 || bitsOf e 60 1 == 1 || bitsOf e 61 2 == 3 || bitsOf e 57 2 == 3 ||
  (bitsOf e 2 1 == 1 && bitsOf e 1 1 == 0) ||
  (!leaf && (bitsOf e 54 10 != 0 || bitsOf e 7 1 == 1 || bitsOf e 6 1 == 1 || bitsOf e 4 1 == 1 || level == 0)) ||
  (leaf && (level == 4 || bitsOf e 10 (9 * level) != 0))

/-- Whether a cached entry covers an address of a space. -/
def TlbEntry.covers (e : TlbEntry) (sp : Space) (va : Nat) : Bool :=
  e.part == sp.part && (e.global || e.asid == sp.asid) && va / leafSize e.level == e.vpn

/-- Where a walk has come to: the entry's address, value and level; whether an entry on its way or it itself has G set,
so that its mapping is global (R326); and the non-leaf entries that it has read. -/
structure Walk where
  at_ : Nat
  pte : Nat
  level : Nat
  global : Bool
  path : List TlbEntry
  deriving DecidableEq, Repr

/-- A walk from the table at ppn of a level down to a leaf (R327). A level whose non-leaf entry a paging-structure cache
holds is not read (R330). -/
def walkFrom (s : State) (cached : List TlbEntry) (sp : Space) (va : Nat) (global : Bool) : Nat → Nat → Except XFail Walk
  | level, ppn =>
    let deeper (g : Bool) (e : Nat) : Except XFail Walk :=
      match level with
      | 0 => .error ⟨3, 0, false⟩
      | l + 1 => walkFrom s cached sp va g l (bitsOf e 10 44)
    match cached.find? (fun x => x.level == level && x.covers sp va) with
    | some x => deeper (global || x.global) x.pte.toNat
    | none =>
      let at_ := ppn * 4096 + 8 * bitsOf va (12 + 9 * level) 9
      if s.poisoned at_ then .error ⟨5, level, false⟩ else
      if !s.ownRange sp.part at_ 8 then .error ⟨4, level, false⟩ else
      let e := s.physValue at_ 8
      let leaf := bitsOf e 1 3 != 0
      let lod := (leaf || level == 0) && bitsOf e 54 1 == 1
      let global := global || bitsOf e 5 1 == 1
      if bitsOf e 0 1 = 0 then .error ⟨1, level, lod⟩ else
      if malformed e level then .error ⟨3, level, leaf && bitsOf e 54 1 == 1⟩ else
      if leaf then .ok ⟨at_, e, level, global, []⟩
      else (deeper global e).map (fun w =>
        { w with path := ⟨sp.part, sp.asid, global, va / leafSize level, level, BitVec.ofNat 64 e⟩ :: w.path })

/-- Whether a leaf grants an access to user mode (R328). -/
def leafGrants (e : Nat) (k : AccKind) : Bool :=
  bitsOf e 4 1 == 1 &&
  match k with
  | .load => bitsOf e 1 1 == 1
  | .engineRead => bitsOf e 1 1 == 1
  | .store => bitsOf e 2 1 == 1
  | .engineWrite => bitsOf e 2 1 == 1
  | .atomic => bitsOf e 1 1 == 1 && bitsOf e 2 1 == 1
  | .fetch => bitsOf e 3 1 == 1

/-- The link or the lack of one that a remote device number's requests leave by (R378): none is no route. -/
def State.route (s : State) (dev : Nat) : Option Nat :=
  let hi := (Store.get s.boot.body (0x680 + dev / 2048)).toNat
  let use (e : Nat) : Option Nat := if e ≤ 17 then some e else none
  if hi = 0xFE then use (Store.get s.boot.body (0xE80 + dev % 2048)).toNat else use hi

/-- Whether remote memory at an address can be reached (R378): a route whose link is not down. A device has no
route to itself (DEDUCED, log 30). -/
def State.remoteOk (s : State) (pa : Nat) : Bool :=
  bitsOf pa 33 22 != s.boot.devnum.toNat && match s.route (bitsOf pa 33 22) with
  | none => false
  | some l =>
    match Tab.get? s.links l with
    | some lk => lk.state != 2
    | none => false

/-- Whether the frame behind an address may be used under a leaf (R328, R348, R378): a large leaf of remote memory spans
several devices. -/
def frameOk (s : State) (sp : Space) (e level va : Nat) : Option Nat :=
  let base := bitsOf e 10 44 * 4096
  if remotePa base then (if s.remoteOk (base + va % leafSize level) then none else some 6)
  else if bitsOf e 59 1 = 1 then (if s.inPool base (leafSize level) then none else some 4)
  else match Tab.get? s.parts sp.part with
    | some q => if q.cfg.holds base (leafSize level) then none else some 4
    | none => some 4

/-- Which translation cache an agent uses (R330). -/
inductive TlbSel where
  | core (c : Nat)
  | die (d : Nat)
  | none
  deriving DecidableEq, Repr

/-- The entries of a translation cache. -/
def State.tlbOf (s : State) : TlbSel → List TlbEntry
  | .core c => match Tab.get? s.cores c with
    | some k => k.tlb
    | none => []
  | .die d => match Tab.get? s.dies d with
    | some k => k.tlb
    | none => []
  | .none => []

/-- The cached non-leaf entries of an agent (R330). -/
def State.walksOf (s : State) : TlbSel → List TlbEntry
  | .core c => match Tab.get? s.cores c with
    | some k => k.walks
    | none => []
  | .die d => match Tab.get? s.dies d with
    | some k => k.walks
    | none => []
  | .none => []

/-- A cache with an entry put into it; a full one loses its oldest (R330; which one it loses, and how many non-leaf
entries it holds, is a DESIGN CHOICE, log 14). -/
def cachePut (cap : Nat) (l : List TlbEntry) (e : TlbEntry) : List TlbEntry :=
  let l := l.filter (fun x => !(x.part == e.part && x.asid == e.asid && x.vpn == e.vpn && x.level == e.level))
  (if l.length < cap then l else l.drop 1) ++ [e]

/-- What a walk found put into an agent's caches (R330): the leaf, and the non-leaf entries read on the way. -/
def State.cachePut (s : State) (sel : TlbSel) (e : TlbEntry) (path : List TlbEntry) : State :=
  match sel with
  | .core c => s.modCore c fun k =>
    { k with tlb := Machine.cachePut 512 k.tlb e, walks := path.foldl (Machine.cachePut 512) k.walks }
  | .die d => s.modDie d fun k =>
    { k with tlb := Machine.cachePut 1024 k.tlb e, walks := path.foldl (Machine.cachePut 1024) k.walks }
  | .none => s

/-- The cached non-leaf entries of a core or a die lost: a cache may drop them at any time. -/
def State.forgetWalks (s : State) (die : Bool) (n : Nat) : State :=
  if die then s.modDie n fun k => { k with walks := [] } else s.modCore n fun k => { k with walks := [] }

/-- The result of a translation: the state after A, D and cache updates with the physical address, the
page's PBMT type and whether the frame is mapped with another Z value than its encoding; or the failure. -/
inductive XRes where
  | ok (s : State) (pa pbmt : Nat) (mixed : Bool)
  | fail (f : XFail)
  deriving DecidableEq, Repr

/-- The physical address of a virtual one under a leaf. -/
def leafAddr (e level va : Nat) : Nat := bitsOf e 10 44 * 4096 + va % leafSize level

/-- An access to the frame of a physical address through a leaf with a P bit (R346). Two leaves that differ are a
DESIGN CHOICE: the later one counts (log 65). -/
def State.trackFrame (s : State) (pa p : Nat) : State :=
  if Store.get s.prot (pa / 4096) = pCode p then s else { s with prot := Store.set s.prot (pa / 4096) (pCode p) }

/-- A translation's result under a leaf (R345, R346: how the frame is held is settled by its first use; a frame of
another device is that device's matter). -/
def reach (s : State) (e level va : Nat) : XRes :=
  let pa := leafAddr e level va
  if remotePa pa then .ok s pa (bitsOf e 61 2) false
  else
    let s := (s.useFrame pa (bitsOf e 55 1)).trackFrame pa (bitsOf e 56 1)
    .ok s pa (bitsOf e 61 2) (s.mixed pa (bitsOf e 55 1))

/-- Translation of one byte's address (R326 to R330): by a cached entry that grants the access with A and D
as it needs them, else by a walk, which sets A and D. Of an entry that fails more than one check the CAUSE is that of the
first, in the order permission, frame, and of a table poison, place (DESIGN CHOICE, log 17). -/
def translate (s : State) (sel : TlbSel) (sp : Space) (va : Nat) (k : AccKind) : XRes :=
  if !canonical va then .fail ⟨1, 4, false⟩ else
  let good (e : TlbEntry) : Bool :=
    let v := e.pte.toNat
    e.covers sp va && leafGrants v k && (frameOk s sp v e.level va).isNone &&
      bitsOf v 6 1 == 1 && (bitsOf v 7 1 == 1 || !k.writes)
  match (s.tlbOf sel).find? good with
  | some e => reach s e.pte.toNat e.level va
  | none =>
    match walkFrom s (s.walksOf sel) sp va false 4 sp.root.toNat with
    | .error f => .fail f
    | .ok w =>
      let e := w.pte
      let lod := bitsOf e 54 1 == 1
      if !leafGrants e k then .fail ⟨2, w.level, lod⟩ else
      match frameOk s sp e w.level va with
      | some c => .fail ⟨c, w.level, lod⟩
      | none =>
        let low := bitsOf e 0 8
        let low' := low ||| 0x40 ||| (if k.writes then 0x80 else 0)
        let e' := e - low + low'
        let s := if low' = low then s else s.writePhys w.at_ [BitVec.ofNat 8 low']
        let s := s.cachePut sel ⟨sp.part, sp.asid, w.global, va / leafSize w.level, w.level, BitVec.ofNat 64 e'⟩ w.path
        reach s e' w.level va

/-- A message on an MSI-X vector of a partition (R370). -/
def Part.interrupt (P : Part) (v : Nat) : Part := { P with msix := Store.set P.msix v (Store.get P.msix v + 1) }

/-- Appends a record to those waiting for a partition's fault ring. -/
def State.pushFault (s : State) (p : Nat) (r : BitVec 256) : State :=
  s.modPart p fun q => { q with fault := { q.fault with waiting := q.fault.waiting ++ [r] } }

/-- A fault record (R334). -/
def faultRecord (stamp va token asid source kind : Nat) (f : XFail) (room : Nat) : BitVec 256 :=
  BitVec.ofNat 256
    (stamp % 2 ^ 64 * 2 ^ 192 + va % 2 ^ 64 * 2 ^ 128 + token * 2 ^ 112 + asid * 2 ^ 96 + source * 2 ^ 84
      + kind * 2 ^ 80 + f.cause * 2 ^ 76 + (if f.lod then 2 ^ 75 else 0) + f.level * 2 ^ 72 + room * 2 ^ 68)

/-- A failed access joins the outstanding token with its key, or takes the lowest free one and forms a
record (R335; which free one is a DESIGN CHOICE, log 13); none when all 1,024 are taken. -/
def raiseFault (s : State) (sp : Space) (va : Nat) (k : AccKind) (f : XFail) (source room : Nat) :
    State × Option Nat :=
  let key : Token := ⟨sp.part, sp.asid, va / 4096, k.writes⟩
  match s.tokens.find? (fun t => t.2 == key) with
  | some t => (s, some t.1)
  | none =>
    match Tab.lowestFree s.tokens 1024 with
    | none => (s, none)
    | some i =>
      let s := { s with tokens := Tab.put s.tokens i key }
      (s.pushFault sp.part (faultRecord s.time va i sp.asid.toNat source k.code f room), some i)

end Sys2Proof.Machine
end

