-- ==== Sys2Proof/Decode.lean ====
section
/-!
DEFINITION. Decoding and encoding instruction words, by the formats and the opcode map of
06_formats_and_opcode_map.md (R134, R138, R140, R144 to R148) and the entries of the instruction chapters.
Decoding is total and refuses by name; which field values an instruction may carry (R149 step 1 beyond the
encoding itself) is judged when the word issues, in Machine/Operands.lean.
-/
namespace Sys2Proof

/-- Why a word is no instruction (each of them traps ILLEGAL when the word issues, R149). -/
inductive DecodeError where
  /-- SET and MAJOR name no instruction (R144). -/
  | unallocatedMajor
  /-- The function, SUB, op or conversion is not allocated, or a reserved bit beside it is set. -/
  | unallocatedFunction
  /-- A reserved bit is not zero. -/
  | reservedBits
  /-- E = 0 on a control transfer (R136). -/
  | notEnded
  /-- Fewer than four bytes. -/
  | short
  deriving DecidableEq, Repr

/-- Bits [lo + n - 1 : lo] of a word. -/
def field (w : BitVec 32) (lo n : Nat) : BitVec n := w.extractLsb' lo n

/-- Bit lo of a word. -/
def flag (w : BitVec 32) (lo : Nat) : Bool := w.toNat / 2 ^ lo % 2 == 1

/-- The operand that an 8-bit code names (R140). -/
def Opd.ofCode (c : Nat) : Opd :=
  if h : c < 192 then .v ⟨c, h⟩
  else if h : c - 192 < 60 then .s ⟨c - 192, h⟩
  else .q ⟨(c - 252) % 4, Nat.mod_lt _ (by decide)⟩

/-- The 8-bit code of an operand (R140). -/
def Opd.code : Opd → Nat
  | .v r => r.val
  | .s r => 192 + r.val
  | .q r => 252 + r.val

/-- The operand whose code stands at [lo + 7 : lo] of a word. -/
def opd (w : BitVec 32) (lo : Nat) : Opd := Opd.ofCode (w.toNat / 2 ^ lo % 256)

/-- Lane words, SET = 0 (R144). -/
def decodeLane (w : BitVec 32) : Except DecodeError Instr :=
  match w.toNat / 2 ^ 24 % 64 with
  | 1 => .ok (.iadd (flag w 30) (opd w 16) (opd w 8) (opd w 0))
  | 2 => .ok (.isub (flag w 30) (opd w 16) (opd w 8) (opd w 0))
  | 3 => .ok (.imul (flag w 30) (opd w 16) (opd w 8) (opd w 0))
  | 4 => .ok (.imulhI32 (flag w 30) (opd w 16) (opd w 8) (opd w 0))
  | 5 => .ok (.imulhN32 (flag w 30) (opd w 16) (opd w 8) (opd w 0))
  | 6 => .ok (.imac (flag w 30) (opd w 16) (opd w 8) (opd w 0))
  | 7 => .ok (.iminI32 (flag w 30) (opd w 16) (opd w 8) (opd w 0))
  | 8 => .ok (.iminN32 (flag w 30) (opd w 16) (opd w 8) (opd w 0))
  | 9 => .ok (.imaxI32 (flag w 30) (opd w 16) (opd w 8) (opd w 0))
  | 10 => .ok (.imaxN32 (flag w 30) (opd w 16) (opd w 8) (opd w 0))
  | 11 => .ok (.and (flag w 30) (opd w 16) (opd w 8) (opd w 0))
  | 12 => .ok (.or (flag w 30) (opd w 16) (opd w 8) (opd w 0))
  | 13 => .ok (.xor (flag w 30) (opd w 16) (opd w 8) (opd w 0))
  | 14 => .ok (.andn (flag w 30) (opd w 16) (opd w 8) (opd w 0))
  | 15 => .ok (.shl (flag w 30) (opd w 16) (opd w 8) (opd w 0))
  | 16 => .ok (.shr (flag w 30) (opd w 16) (opd w 8) (opd w 0))
  | 17 => .ok (.sar (flag w 30) (opd w 16) (opd w 8) (opd w 0))
  | 18 => .ok (.iaddImm (flag w 30) (opd w 16) (opd w 8) (field w 0 8))
  | 19 =>
    if field w 5 3 == 0#3 then .ok (.shlImm (flag w 30) (opd w 16) (opd w 8) (field w 0 5)) else
    if field w 5 3 == 1#3 then .ok (.shrImm (flag w 30) (opd w 16) (opd w 8) (field w 0 5)) else
    if field w 5 3 == 2#3 then .ok (.sarImm (flag w 30) (opd w 16) (opd w 8) (field w 0 5)) else
    .error .unallocatedFunction
  | 20 => .ok (.icmpEq (flag w 30) (opd w 16) (opd w 8) (opd w 0))
  | 21 => .ok (.icmpNe (flag w 30) (opd w 16) (opd w 8) (opd w 0))
  | 22 => .ok (.icmpLtI32 (flag w 30) (opd w 16) (opd w 8) (opd w 0))
  | 23 => .ok (.icmpLeI32 (flag w 30) (opd w 16) (opd w 8) (opd w 0))
  | 24 => .ok (.icmpLtN32 (flag w 30) (opd w 16) (opd w 8) (opd w 0))
  | 25 => .ok (.icmpLeN32 (flag w 30) (opd w 16) (opd w 8) (opd w 0))
  | 26 => .ok (.sel (flag w 30) (opd w 16) (opd w 8) (opd w 0))
  | 27 => .ok (.lea (flag w 30) (opd w 16) (opd w 8) (opd w 0))
  | 28 => .ok (.bfx (flag w 30) (opd w 16) (opd w 8) (opd w 0))
  | 29 => .ok (.bfi (flag w 30) (opd w 16) (opd w 8) (opd w 0))
  | 30 =>
    if field w 0 8 == 0#8 then .ok (.iabs (flag w 30) (opd w 16) (opd w 8)) else
    if field w 0 8 == 1#8 then .ok (.clz (flag w 30) (opd w 16) (opd w 8)) else
    if field w 0 8 == 2#8 then .ok (.popc (flag w 30) (opd w 16) (opd w 8)) else
    if field w 0 8 == 3#8 then .ok (.brev (flag w 30) (opd w 16) (opd w 8)) else
    if field w 0 8 == 4#8 then .ok (.bint2 (flag w 30) (opd w 16) (opd w 8)) else
    if field w 0 8 == 5#8 then .ok (.bint3 (flag w 30) (opd w 16) (opd w 8)) else
    if field w 0 8 == 6#8 then .ok (.bdeint3 (flag w 30) (opd w 16) (opd w 8)) else
    if field w 0 16 == 7#16 then .ok (.laneid (flag w 30) (opd w 16)) else
    if field w 0 8 == 16#8 then .ok (.frcp (flag w 30) (opd w 16) (opd w 8)) else
    if field w 0 8 == 17#8 then .ok (.frsq (flag w 30) (opd w 16) (opd w 8)) else
    if field w 0 8 == 18#8 then .ok (.fsqrt (flag w 30) (opd w 16) (opd w 8)) else
    if field w 0 8 == 19#8 then .ok (.fexp2 (flag w 30) (opd w 16) (opd w 8)) else
    if field w 0 8 == 20#8 then .ok (.flog2 (flag w 30) (opd w 16) (opd w 8)) else
    if field w 0 8 == 21#8 then .ok (.fsin (flag w 30) (opd w 16) (opd w 8)) else
    if field w 0 8 == 32#8 then .ok (.unpack2F16X2 (flag w 30) (opd w 16) (opd w 8)) else
    if field w 0 8 == 33#8 then .ok (.unpack2G16X2 (flag w 30) (opd w 16) (opd w 8)) else
    .error .unallocatedFunction
  | 31 => .ok (.faddF32 (flag w 30) (opd w 16) (opd w 8) (opd w 0))
  | 32 => .ok (.fsubF32 (flag w 30) (opd w 16) (opd w 8) (opd w 0))
  | 33 => .ok (.fmulF32 (flag w 30) (opd w 16) (opd w 8) (opd w 0))
  | 34 => .ok (.ffmaF32 (flag w 30) (opd w 16) (opd w 8) (opd w 0))
  | 35 => .ok (.fminF32 (flag w 30) (opd w 16) (opd w 8) (opd w 0))
  | 36 => .ok (.fmaxF32 (flag w 30) (opd w 16) (opd w 8) (opd w 0))
  | 37 =>
    if field w 1 7 == 0#7 then .ok (.faddPacked (flag w 30) (opd w 16) (opd w 8) (field w 0 1)) else
    if field w 1 7 == 8#7 then .ok (.fsubPacked (flag w 30) (opd w 16) (opd w 8) (field w 0 1)) else
    if field w 1 7 == 16#7 then .ok (.fmulPacked (flag w 30) (opd w 16) (opd w 8) (field w 0 1)) else
    if field w 1 7 == 24#7 then .ok (.ffmaPacked (flag w 30) (opd w 16) (opd w 8) (field w 0 1)) else
    if field w 1 7 == 32#7 then .ok (.fminPacked (flag w 30) (opd w 16) (opd w 8) (field w 0 1)) else
    if field w 1 7 == 40#7 then .ok (.fmaxPacked (flag w 30) (opd w 16) (opd w 8) (field w 0 1)) else
    .error .unallocatedFunction
  | 38 => .ok (.fcmpEq (flag w 30) (opd w 16) (opd w 8) (opd w 0))
  | 39 => .ok (.fcmpLt (flag w 30) (opd w 16) (opd w 8) (opd w 0))
  | 40 => .ok (.fcmpLe (flag w 30) (opd w 16) (opd w 8) (opd w 0))
  | 41 => .ok (.fcmpUn (flag w 30) (opd w 16) (opd w 8) (opd w 0))
  | 42 =>
    if field w 3 5 == 0#5 then .ok (.fcvtF16F32 (flag w 30) (opd w 16) (opd w 8) (field w 0 3)) else
    if field w 3 5 == 1#5 then .ok (.fcvtG16F32 (flag w 30) (opd w 16) (opd w 8) (field w 0 3)) else
    if field w 3 5 == 2#5 then .ok (.fcvtF32F16 (flag w 30) (opd w 16) (opd w 8) (field w 0 3)) else
    if field w 3 5 == 3#5 then .ok (.fcvtF32G16 (flag w 30) (opd w 16) (opd w 8) (field w 0 3)) else
    if field w 3 5 == 4#5 then .ok (.fcvtI32F32 (flag w 30) (opd w 16) (opd w 8) (field w 0 3)) else
    if field w 3 5 == 5#5 then .ok (.fcvtN32F32 (flag w 30) (opd w 16) (opd w 8) (field w 0 3)) else
    if field w 3 5 == 6#5 then .ok (.fcvtF32I32 (flag w 30) (opd w 16) (opd w 8) (field w 0 3)) else
    if field w 3 5 == 7#5 then .ok (.fcvtF32N32 (flag w 30) (opd w 16) (opd w 8) (field w 0 3)) else
    if field w 3 5 == 8#5 then .ok (.fcvtF32F32 (flag w 30) (opd w 16) (opd w 8) (field w 0 3)) else
    if field w 6 2 == 2#2 then .ok (.fcvtQF32 (flag w 30) (opd w 16) (opd w 8) (field w 3 3) (field w 0 3)) else
    if field w 6 2 == 3#2 then .ok (.fcvtF32Q (flag w 30) (opd w 16) (opd w 8) (field w 3 3) (field w 0 3)) else
    .error .unallocatedFunction
  | 43 => .ok (.pack2F16X2 (flag w 30) (opd w 16) (opd w 8) (opd w 0))
  | 44 => .ok (.pack2G16X2 (flag w 30) (opd w 16) (opd w 8) (opd w 0))
  | 45 => .ok (.shfl (flag w 30) (opd w 16) (opd w 8) (opd w 0))
  | 46 =>
    if field w 5 3 == 0#3 then .ok (.shflup (flag w 30) (opd w 16) (opd w 8) (field w 0 5)) else
    if field w 5 3 == 1#3 then .ok (.shfldn (flag w 30) (opd w 16) (opd w 8) (field w 0 5)) else
    if field w 5 3 == 2#3 then .ok (.shflx (flag w 30) (opd w 16) (opd w 8) (field w 0 5)) else
    if field w 5 3 == 3#3 then .ok (.scan (flag w 30) (opd w 16) (opd w 8) (field w 0 5)) else
    if field w 5 3 == 4#3 then .ok (.red (flag w 30) (opd w 16) (opd w 8) (field w 0 5)) else
    if field w 0 8 == 160#8 then .ok (.ballot (flag w 30) (opd w 16) (opd w 8)) else
    if field w 0 8 == 192#8 then .ok (.voteAny (flag w 30) (opd w 16) (opd w 8)) else
    if field w 0 8 == 193#8 then .ok (.voteAll (flag w 30) (opd w 16) (opd w 8)) else
    .error .unallocatedFunction
  | 47 => .ok (.ldB (flag w 30) (opd w 16) (opd w 8) (field w 0 8))
  | 48 => .ok (.ldH (flag w 30) (opd w 16) (opd w 8) (field w 0 8))
  | 49 => .ok (.ldW (flag w 30) (opd w 16) (opd w 8) (field w 0 8))
  | 50 => .ok (.ldD (flag w 30) (opd w 16) (opd w 8) (field w 0 8))
  | 51 => .ok (.ldO (flag w 30) (opd w 16) (opd w 8) (field w 0 8))
  | 52 => .ok (.stB (flag w 30) (opd w 16) (opd w 8) (field w 0 8))
  | 53 => .ok (.stH (flag w 30) (opd w 16) (opd w 8) (field w 0 8))
  | 54 => .ok (.stW (flag w 30) (opd w 16) (opd w 8) (field w 0 8))
  | 55 => .ok (.stD (flag w 30) (opd w 16) (opd w 8) (field w 0 8))
  | 56 => .ok (.stO (flag w 30) (opd w 16) (opd w 8) (field w 0 8))
  | 57 => .ok (.ldl (flag w 30) (opd w 16) (opd w 8) (opd w 0))
  | 58 => .ok (.ldt (flag w 30) (opd w 16) (opd w 8) (field w 7 1) (field w 5 2) (field w 0 5))
  | 59 => .ok (.atomW (flag w 30) (opd w 16) (field w 9 7) (field w 8 1) (field w 5 3) (field w 3 2) (field w 0 3))
  | 60 => .ok (.atomD (flag w 30) (opd w 16) (field w 9 7) (field w 8 1) (field w 5 3) (field w 3 2) (field w 0 3))
  | 61 =>
    if !flag w 30 then .error .notEnded else
    .ok (.brz (field w 22 2) (opd w 14) (field w 0 14))
  | 62 =>
    if !flag w 30 then .error .notEnded else
    .ok (.brnz (field w 22 2) (opd w 14) (field w 0 14))
  | 63 =>
    if field w 0 24 == 0#24 then .ok (.exit (flag w 30)) else
    if field w 0 16 == 1#16 then .ok (.trap (flag w 30) (field w 16 8)) else
    if field w 0 16 == 2#16 then .ok (.join (flag w 30) (field w 16 8)) else
    if field w 0 16 == 3#16 && flag w 30 then .ok (.wait (field w 16 8)) else
    if field w 0 16 == 4#16 then .ok (.leave (flag w 30) (field w 16 8)) else
    if field w 0 8 == 5#8 then .ok (.kread (flag w 30) (opd w 16) (field w 8 8)) else
    if field w 0 8 == 6#8 then .ok (.kset (flag w 30) (field w 16 8) (opd w 8)) else
    if field w 0 24 == 7#24 && flag w 30 then .ok .bar else
    if field w 0 8 == 8#8 && flag w 30 then .ok (.barn (field w 16 8) (field w 8 8)) else
    if field w 0 8 == 9#8 && field w 12 4 == 0#4 && flag w 30 then .ok (.sign (field w 16 8) (field w 8 4)) else
    if field w 0 8 == 10#8 && field w 16 8 == 0#8 && flag w 30 then .ok (.waitb (opd w 8)) else
    if field w 0 8 == 11#8 then .ok (.pollb (flag w 30) (opd w 16) (opd w 8)) else
    if field w 0 8 == 12#8 && field w 17 7 == 0#7 then .ok (.prf (flag w 30) (field w 16 1) (opd w 8)) else
    if field w 5 19 == 1#19 then .ok (.fence (flag w 30) (field w 3 2) (field w 0 3)) else
    .error .unallocatedFunction
  | _ => .error .unallocatedMajor

/-- Uniform words, SET = 1 (R144). -/
def decodeUniform (w : BitVec 32) : Except DecodeError Instr :=
  match w.toNat / 2 ^ 24 % 64 with
  | 0 =>
    if field w 0 24 == 0#24 then .ok (.nop (flag w 30)) else
    if field w 0 24 == 1#24 then .ok (.yield (flag w 30)) else
    if field w 0 24 == 2#24 && flag w 30 then .ok .eret else
    if field w 0 24 == 3#24 then .ok (.bkpt (flag w 30)) else
    .error .unallocatedFunction
  | 1 =>
    if field w 0 8 == 0#8 then .ok (.umov (flag w 30) (opd w 16) (opd w 8)) else
    .error .reservedBits
  | 2 => .ok (.umovi (flag w 30) (opd w 16) (field w 0 16))
  | 3 => .ok (.umovhi (flag w 30) (opd w 16) (field w 0 16))
  | 4 => .ok (.uadd (flag w 30) (opd w 16) (opd w 8) (opd w 0))
  | 5 => .ok (.usub (flag w 30) (opd w 16) (opd w 8) (opd w 0))
  | 6 => .ok (.umul (flag w 30) (opd w 16) (opd w 8) (opd w 0))
  | 7 => .ok (.uand (flag w 30) (opd w 16) (opd w 8) (opd w 0))
  | 8 => .ok (.uor (flag w 30) (opd w 16) (opd w 8) (opd w 0))
  | 9 => .ok (.uxor (flag w 30) (opd w 16) (opd w 8) (opd w 0))
  | 10 => .ok (.ushl (flag w 30) (opd w 16) (opd w 8) (opd w 0))
  | 11 => .ok (.ushr (flag w 30) (opd w 16) (opd w 8) (opd w 0))
  | 12 => .ok (.usar (flag w 30) (opd w 16) (opd w 8) (opd w 0))
  | 13 => .ok (.uminI32 (flag w 30) (opd w 16) (opd w 8) (opd w 0))
  | 14 => .ok (.uminN32 (flag w 30) (opd w 16) (opd w 8) (opd w 0))
  | 15 => .ok (.umaxI32 (flag w 30) (opd w 16) (opd w 8) (opd w 0))
  | 16 => .ok (.umaxN32 (flag w 30) (opd w 16) (opd w 8) (opd w 0))
  | 17 => .ok (.ucmpEq (flag w 30) (opd w 16) (opd w 8) (opd w 0))
  | 18 => .ok (.ucmpNe (flag w 30) (opd w 16) (opd w 8) (opd w 0))
  | 19 => .ok (.ucmpLtI32 (flag w 30) (opd w 16) (opd w 8) (opd w 0))
  | 20 => .ok (.ucmpLeI32 (flag w 30) (opd w 16) (opd w 8) (opd w 0))
  | 21 => .ok (.ucmpLtN32 (flag w 30) (opd w 16) (opd w 8) (opd w 0))
  | 22 => .ok (.ucmpLeN32 (flag w 30) (opd w 16) (opd w 8) (opd w 0))
  | 23 => .ok (.usel (flag w 30) (opd w 16) (opd w 8) (opd w 0))
  | 24 => .ok (.uldW (flag w 30) (opd w 16) (opd w 8) (field w 0 8))
  | 25 => .ok (.uldD (flag w 30) (opd w 16) (opd w 8) (field w 0 8))
  | 26 => .ok (.ustW (flag w 30) (opd w 16) (opd w 8) (field w 0 8))
  | 27 => .ok (.ustD (flag w 30) (opd w 16) (opd w 8) (field w 0 8))
  | 28 =>
    if !flag w 30 then .error .notEnded else
    if field w 16 8 == 0#8 then .ok (.ujmp (field w 0 16)) else
    .error .reservedBits
  | 29 =>
    if !flag w 30 then .error .notEnded else
    .ok (.ubrZ (opd w 16) (field w 0 16))
  | 30 =>
    if !flag w 30 then .error .notEnded else
    .ok (.ubrNz (opd w 16) (field w 0 16))
  | 31 =>
    if !flag w 30 then .error .notEnded else
    .ok (.ucall (opd w 16) (field w 0 16))
  | 32 =>
    if !flag w 30 then .error .notEnded else
    if field w 0 8 == 0#8 && field w 16 8 == 0#8 then .ok (.uret (opd w 8)) else
    .error .reservedBits
  | 33 =>
    if !flag w 30 then .error .notEnded else
    if field w 0 8 == 0#8 && field w 16 8 == 0#8 then .ok (.ujr (opd w 8)) else
    .error .reservedBits
  | 34 => .ok (.ureadlane (flag w 30) (opd w 16) (opd w 8) (opd w 0))
  | 35 =>
    if field w 0 16 == 0#16 then .ok (.ufirst (flag w 30) (opd w 16)) else
    .error .reservedBits
  | 36 => .ok (.sysrd (flag w 30) (opd w 16) (field w 0 16))
  | 37 => .ok (.syswr (flag w 30) (opd w 16) (field w 0 16))
  | 38 =>
    if field w 0 4 == 0#4 then .ok (.sched (flag w 30) (opd w 16) (opd w 8) (field w 4 4)) else
    .error .reservedBits
  | 39 =>
    if field w 0 8 == 0#8 then .ok (.launch (flag w 30) (opd w 16) (opd w 8)) else
    .error .reservedBits
  | 40 =>
    if field w 0 8 == 0#8 && field w 19 5 == 0#5 then .ok (.fmtset (flag w 30) (field w 16 3) (opd w 8)) else
    .error .reservedBits
  | 41 => .ok (.mma (flag w 30) (field w 18 6) (field w 13 5) (field w 8 5) (field w 6 2) (field w 4 2) (field w 2 2) (field w 0 2))
  | 42 => .ok (.mmaz (flag w 30) (field w 18 6) (field w 13 5) (field w 8 5) (field w 6 2) (field w 4 2) (field w 2 2) (field w 0 2))
  | 43 =>
    if field w 0 18 == 0#18 then .ok (.zclr (flag w 30) (field w 18 6)) else
    .error .reservedBits
  | 44 =>
    if field w 0 2 == 0#2 then .ok (.zrd (flag w 30) (field w 19 5) (field w 13 6) (field w 11 2) (field w 9 2) (field w 6 3) (field w 5 1) (field w 2 3)) else
    .error .reservedBits
  | 45 =>
    if field w 0 11 == 0#11 then .ok (.zwr (flag w 30) (field w 19 5) (field w 13 6) (field w 11 2)) else
    .error .reservedBits
  | 46 =>
    if field w 0 8 == 0#8 then .ok (.facetOpen (flag w 30) (opd w 16) (opd w 8)) else
    .error .reservedBits
  | 47 =>
    if field w 0 8 == 0#8 then .ok (.facetNext (flag w 30) (opd w 16) (opd w 8)) else
    .error .reservedBits
  | 48 => .ok (.facetMark (flag w 30) (opd w 16) (opd w 8) (opd w 0))
  | 49 =>
    if field w 0 8 == 0#8 then .ok (.meshBump (flag w 30) (opd w 16) (opd w 8)) else
    .error .reservedBits
  | 50 => .ok (.boxt (flag w 30) (opd w 16) (opd w 8) (opd w 0))
  | 51 => .ok (.trit (flag w 30) (opd w 16) (opd w 8) (opd w 0))
  | 52 =>
    if field w 0 4 == 0#4 && field w 20 4 == 0#4 then .ok (.stkPush (flag w 30) (opd w 12) (opd w 4)) else
    if field w 0 4 == 0#4 && field w 20 4 == 1#4 then .ok (.stkPop (flag w 30) (opd w 12) (opd w 4)) else
    .error .unallocatedFunction
  | 53 =>
    if field w 0 4 == 0#4 && field w 20 4 == 0#4 then .ok (.rsave (flag w 30) (opd w 12) (opd w 4)) else
    if field w 0 4 == 0#4 && field w 20 4 == 1#4 then .ok (.rload (flag w 30) (opd w 12) (opd w 4)) else
    .error .unallocatedFunction
  | 54 =>
    if field w 16 8 == 0#8 then .ok (.rastTri (flag w 30) (opd w 8) (opd w 0)) else
    .error .reservedBits
  | 55 =>
    if field w 16 8 == 0#8 then .ok (.rastRate (flag w 30) (opd w 8) (opd w 0)) else
    .error .reservedBits
  | 56 =>
    if field w 0 4 == 0#4 && field w 20 4 == 0#4 then .ok (.shapeSeal (flag w 30) (opd w 12) (opd w 4)) else
    if field w 0 4 == 0#4 && field w 12 12 == 256#12 then .ok (.shapeDrop (flag w 30) (opd w 4)) else
    .error .unallocatedFunction
  | 57 => .ok (.kick (flag w 30) (opd w 16) (opd w 8) (opd w 0))
  | 58 =>
    if field w 0 8 == 0#8 then .ok (.xform (flag w 30) (opd w 16) (opd w 8)) else
    .error .reservedBits
  | 59 =>
    if field w 0 4 == 0#4 && field w 20 4 == 0#4 then .ok (.leaseGet (flag w 30) (opd w 12) (opd w 4)) else
    if field w 0 24 == 1048576#24 then .ok (.leasePut (flag w 30)) else
    .error .unallocatedFunction
  | 60 =>
    if field w 0 4 == 0#4 && field w 20 4 == 0#4 then .ok (.wgReserve (flag w 30) (opd w 12) (opd w 4)) else
    if field w 0 4 == 0#4 && field w 12 12 == 256#12 then .ok (.wgEmit (flag w 30) (opd w 4)) else
    if field w 0 24 == 2097152#24 then .ok (.wgDone (flag w 30)) else
    .error .unallocatedFunction
  | _ => .error .unallocatedMajor

/-- The instruction that a word encodes (R134, R144). -/
def decodeWord (w : BitVec 32) : Except DecodeError Instr :=
  if flag w 31 then decodeUniform w else decodeLane w

/-- The little-endian value of a list of bytes (R7). -/
def leNat : List Byte → Nat
  | [] => 0
  | b :: bs => b.toNat + 256 * leNat bs

/-- The first instruction of a byte sequence, and the bytes after it (R134: four bytes, little-endian). -/
def decodeBytes : List Byte → Except DecodeError (Instr × List Byte)
  | a :: b :: c :: d :: rest =>
    match decodeWord (BitVec.ofNat 32 (leNat [a, b, c, d])) with
    | .ok i => .ok (i, rest)
    | .error e => .error e
  | _ => .error .short

/-- The n bytes of a value, lowest first (R7). -/
def leBytes : Nat → Nat → List Byte
  | 0, _ => []
  | n + 1, v => BitVec.ofNat 8 v :: leBytes n (v / 256)

/-- The instruction whose table bits are w (R134: one 32-bit word, stored little-endian). -/
def decodeTableWord (nbits w : Nat) : Option Instr :=
  match decodeBytes (leBytes 4 (w % 2 ^ nbits)) with
  | .ok (i, _) => some i
  | .error _ => none

/-- A word made of its fixed bits and of fields (lowest bit, value) that lie where the fixed bits are zero. -/
def place (fixed : Nat) : List (Nat × Nat) → Nat
  | [] => fixed
  | (lo, v) :: fs => v * 2 ^ lo + place fixed fs

/-- The word of an instruction, as a number, from the same formats; none for an event, which has no word. -/
def encodeNat : Instr → Option Nat
  | .iadd e d x y => some (place 0x01000000 [(30, e.toNat), (16, d.code), (8, x.code), (0, y.code)])
  | .isub e d x y => some (place 0x02000000 [(30, e.toNat), (16, d.code), (8, x.code), (0, y.code)])
  | .imul e d x y => some (place 0x03000000 [(30, e.toNat), (16, d.code), (8, x.code), (0, y.code)])
  | .imulhI32 e d x y => some (place 0x04000000 [(30, e.toNat), (16, d.code), (8, x.code), (0, y.code)])
  | .imulhN32 e d x y => some (place 0x05000000 [(30, e.toNat), (16, d.code), (8, x.code), (0, y.code)])
  | .imac e d x y => some (place 0x06000000 [(30, e.toNat), (16, d.code), (8, x.code), (0, y.code)])
  | .iminI32 e d x y => some (place 0x07000000 [(30, e.toNat), (16, d.code), (8, x.code), (0, y.code)])
  | .iminN32 e d x y => some (place 0x08000000 [(30, e.toNat), (16, d.code), (8, x.code), (0, y.code)])
  | .imaxI32 e d x y => some (place 0x09000000 [(30, e.toNat), (16, d.code), (8, x.code), (0, y.code)])
  | .imaxN32 e d x y => some (place 0x0A000000 [(30, e.toNat), (16, d.code), (8, x.code), (0, y.code)])
  | .and e d x y => some (place 0x0B000000 [(30, e.toNat), (16, d.code), (8, x.code), (0, y.code)])
  | .or e d x y => some (place 0x0C000000 [(30, e.toNat), (16, d.code), (8, x.code), (0, y.code)])
  | .xor e d x y => some (place 0x0D000000 [(30, e.toNat), (16, d.code), (8, x.code), (0, y.code)])
  | .andn e d x y => some (place 0x0E000000 [(30, e.toNat), (16, d.code), (8, x.code), (0, y.code)])
  | .shl e d x y => some (place 0x0F000000 [(30, e.toNat), (16, d.code), (8, x.code), (0, y.code)])
  | .shr e d x y => some (place 0x10000000 [(30, e.toNat), (16, d.code), (8, x.code), (0, y.code)])
  | .sar e d x y => some (place 0x11000000 [(30, e.toNat), (16, d.code), (8, x.code), (0, y.code)])
  | .iaddImm e d x i => some (place 0x12000000 [(30, e.toNat), (16, d.code), (8, x.code), (0, i.toNat)])
  | .shlImm e d x n => some (place 0x13000000 [(30, e.toNat), (16, d.code), (8, x.code), (0, n.toNat)])
  | .shrImm e d x n => some (place 0x13000020 [(30, e.toNat), (16, d.code), (8, x.code), (0, n.toNat)])
  | .sarImm e d x n => some (place 0x13000040 [(30, e.toNat), (16, d.code), (8, x.code), (0, n.toNat)])
  | .icmpEq e d x y => some (place 0x14000000 [(30, e.toNat), (16, d.code), (8, x.code), (0, y.code)])
  | .icmpNe e d x y => some (place 0x15000000 [(30, e.toNat), (16, d.code), (8, x.code), (0, y.code)])
  | .icmpLtI32 e d x y => some (place 0x16000000 [(30, e.toNat), (16, d.code), (8, x.code), (0, y.code)])
  | .icmpLeI32 e d x y => some (place 0x17000000 [(30, e.toNat), (16, d.code), (8, x.code), (0, y.code)])
  | .icmpLtN32 e d x y => some (place 0x18000000 [(30, e.toNat), (16, d.code), (8, x.code), (0, y.code)])
  | .icmpLeN32 e d x y => some (place 0x19000000 [(30, e.toNat), (16, d.code), (8, x.code), (0, y.code)])
  | .sel e d x y => some (place 0x1A000000 [(30, e.toNat), (16, d.code), (8, x.code), (0, y.code)])
  | .lea e d x y => some (place 0x1B000000 [(30, e.toNat), (16, d.code), (8, x.code), (0, y.code)])
  | .bfx e d x y => some (place 0x1C000000 [(30, e.toNat), (16, d.code), (8, x.code), (0, y.code)])
  | .bfi e d x y => some (place 0x1D000000 [(30, e.toNat), (16, d.code), (8, x.code), (0, y.code)])
  | .iabs e d x => some (place 0x1E000000 [(30, e.toNat), (16, d.code), (8, x.code)])
  | .clz e d x => some (place 0x1E000001 [(30, e.toNat), (16, d.code), (8, x.code)])
  | .popc e d x => some (place 0x1E000002 [(30, e.toNat), (16, d.code), (8, x.code)])
  | .brev e d x => some (place 0x1E000003 [(30, e.toNat), (16, d.code), (8, x.code)])
  | .bint2 e d x => some (place 0x1E000004 [(30, e.toNat), (16, d.code), (8, x.code)])
  | .bint3 e d x => some (place 0x1E000005 [(30, e.toNat), (16, d.code), (8, x.code)])
  | .bdeint3 e d x => some (place 0x1E000006 [(30, e.toNat), (16, d.code), (8, x.code)])
  | .laneid e d => some (place 0x1E000007 [(30, e.toNat), (16, d.code)])
  | .frcp e d x => some (place 0x1E000010 [(30, e.toNat), (16, d.code), (8, x.code)])
  | .frsq e d x => some (place 0x1E000011 [(30, e.toNat), (16, d.code), (8, x.code)])
  | .fsqrt e d x => some (place 0x1E000012 [(30, e.toNat), (16, d.code), (8, x.code)])
  | .fexp2 e d x => some (place 0x1E000013 [(30, e.toNat), (16, d.code), (8, x.code)])
  | .flog2 e d x => some (place 0x1E000014 [(30, e.toNat), (16, d.code), (8, x.code)])
  | .fsin e d x => some (place 0x1E000015 [(30, e.toNat), (16, d.code), (8, x.code)])
  | .unpack2F16X2 e d x => some (place 0x1E000020 [(30, e.toNat), (16, d.code), (8, x.code)])
  | .unpack2G16X2 e d x => some (place 0x1E000021 [(30, e.toNat), (16, d.code), (8, x.code)])
  | .faddF32 e d x y => some (place 0x1F000000 [(30, e.toNat), (16, d.code), (8, x.code), (0, y.code)])
  | .fsubF32 e d x y => some (place 0x20000000 [(30, e.toNat), (16, d.code), (8, x.code), (0, y.code)])
  | .fmulF32 e d x y => some (place 0x21000000 [(30, e.toNat), (16, d.code), (8, x.code), (0, y.code)])
  | .ffmaF32 e d x y => some (place 0x22000000 [(30, e.toNat), (16, d.code), (8, x.code), (0, y.code)])
  | .fminF32 e d x y => some (place 0x23000000 [(30, e.toNat), (16, d.code), (8, x.code), (0, y.code)])
  | .fmaxF32 e d x y => some (place 0x24000000 [(30, e.toNat), (16, d.code), (8, x.code), (0, y.code)])
  | .faddPacked e d x f => some (place 0x25000000 [(30, e.toNat), (16, d.code), (8, x.code), (0, f.toNat)])
  | .fsubPacked e d x f => some (place 0x25000010 [(30, e.toNat), (16, d.code), (8, x.code), (0, f.toNat)])
  | .fmulPacked e d x f => some (place 0x25000020 [(30, e.toNat), (16, d.code), (8, x.code), (0, f.toNat)])
  | .ffmaPacked e d x f => some (place 0x25000030 [(30, e.toNat), (16, d.code), (8, x.code), (0, f.toNat)])
  | .fminPacked e d x f => some (place 0x25000040 [(30, e.toNat), (16, d.code), (8, x.code), (0, f.toNat)])
  | .fmaxPacked e d x f => some (place 0x25000050 [(30, e.toNat), (16, d.code), (8, x.code), (0, f.toNat)])
  | .fcmpEq e d x y => some (place 0x26000000 [(30, e.toNat), (16, d.code), (8, x.code), (0, y.code)])
  | .fcmpLt e d x y => some (place 0x27000000 [(30, e.toNat), (16, d.code), (8, x.code), (0, y.code)])
  | .fcmpLe e d x y => some (place 0x28000000 [(30, e.toNat), (16, d.code), (8, x.code), (0, y.code)])
  | .fcmpUn e d x y => some (place 0x29000000 [(30, e.toNat), (16, d.code), (8, x.code), (0, y.code)])
  | .fcvtF16F32 e d x m => some (place 0x2A000000 [(30, e.toNat), (16, d.code), (8, x.code), (0, m.toNat)])
  | .fcvtG16F32 e d x m => some (place 0x2A000008 [(30, e.toNat), (16, d.code), (8, x.code), (0, m.toNat)])
  | .fcvtF32F16 e d x m => some (place 0x2A000010 [(30, e.toNat), (16, d.code), (8, x.code), (0, m.toNat)])
  | .fcvtF32G16 e d x m => some (place 0x2A000018 [(30, e.toNat), (16, d.code), (8, x.code), (0, m.toNat)])
  | .fcvtI32F32 e d x m => some (place 0x2A000020 [(30, e.toNat), (16, d.code), (8, x.code), (0, m.toNat)])
  | .fcvtN32F32 e d x m => some (place 0x2A000028 [(30, e.toNat), (16, d.code), (8, x.code), (0, m.toNat)])
  | .fcvtF32I32 e d x m => some (place 0x2A000030 [(30, e.toNat), (16, d.code), (8, x.code), (0, m.toNat)])
  | .fcvtF32N32 e d x m => some (place 0x2A000038 [(30, e.toNat), (16, d.code), (8, x.code), (0, m.toNat)])
  | .fcvtF32F32 e d x m => some (place 0x2A000040 [(30, e.toNat), (16, d.code), (8, x.code), (0, m.toNat)])
  | .fcvtQF32 e d x n m => some (place 0x2A000080 [(30, e.toNat), (16, d.code), (8, x.code), (3, n.toNat), (0, m.toNat)])
  | .fcvtF32Q e d x n m => some (place 0x2A0000C0 [(30, e.toNat), (16, d.code), (8, x.code), (3, n.toNat), (0, m.toNat)])
  | .pack2F16X2 e d x y => some (place 0x2B000000 [(30, e.toNat), (16, d.code), (8, x.code), (0, y.code)])
  | .pack2G16X2 e d x y => some (place 0x2C000000 [(30, e.toNat), (16, d.code), (8, x.code), (0, y.code)])
  | .shfl e d x y => some (place 0x2D000000 [(30, e.toNat), (16, d.code), (8, x.code), (0, y.code)])
  | .shflup e d x n => some (place 0x2E000000 [(30, e.toNat), (16, d.code), (8, x.code), (0, n.toNat)])
  | .shfldn e d x n => some (place 0x2E000020 [(30, e.toNat), (16, d.code), (8, x.code), (0, n.toNat)])
  | .shflx e d x m => some (place 0x2E000040 [(30, e.toNat), (16, d.code), (8, x.code), (0, m.toNat)])
  | .scan e d x c => some (place 0x2E000060 [(30, e.toNat), (16, d.code), (8, x.code), (0, c.toNat)])
  | .red e d x c => some (place 0x2E000080 [(30, e.toNat), (16, d.code), (8, x.code), (0, c.toNat)])
  | .ballot e d x => some (place 0x2E0000A0 [(30, e.toNat), (16, d.code), (8, x.code)])
  | .voteAny e d x => some (place 0x2E0000C0 [(30, e.toNat), (16, d.code), (8, x.code)])
  | .voteAll e d x => some (place 0x2E0000C1 [(30, e.toNat), (16, d.code), (8, x.code)])
  | .ldB e d x o => some (place 0x2F000000 [(30, e.toNat), (16, d.code), (8, x.code), (0, o.toNat)])
  | .ldH e d x o => some (place 0x30000000 [(30, e.toNat), (16, d.code), (8, x.code), (0, o.toNat)])
  | .ldW e d x o => some (place 0x31000000 [(30, e.toNat), (16, d.code), (8, x.code), (0, o.toNat)])
  | .ldD e d x o => some (place 0x32000000 [(30, e.toNat), (16, d.code), (8, x.code), (0, o.toNat)])
  | .ldO e d x o => some (place 0x33000000 [(30, e.toNat), (16, d.code), (8, x.code), (0, o.toNat)])
  | .stB e d x o => some (place 0x34000000 [(30, e.toNat), (16, d.code), (8, x.code), (0, o.toNat)])
  | .stH e d x o => some (place 0x35000000 [(30, e.toNat), (16, d.code), (8, x.code), (0, o.toNat)])
  | .stW e d x o => some (place 0x36000000 [(30, e.toNat), (16, d.code), (8, x.code), (0, o.toNat)])
  | .stD e d x o => some (place 0x37000000 [(30, e.toNat), (16, d.code), (8, x.code), (0, o.toNat)])
  | .stO e d x o => some (place 0x38000000 [(30, e.toNat), (16, d.code), (8, x.code), (0, o.toNat)])
  | .ldl e d x s => some (place 0x39000000 [(30, e.toNat), (16, d.code), (8, x.code), (0, s.code)])
  | .ldt e d x t w s => some (place 0x3A000000 [(30, e.toNat), (16, d.code), (8, x.code), (7, t.toNat), (5, w.toNat), (0, s.toNat)])
  | .atomW e d x n o r c => some (place 0x3B000000 [(30, e.toNat), (16, d.code), (9, x.toNat), (8, n.toNat), (5, o.toNat), (3, r.toNat), (0, c.toNat)])
  | .atomD e d x n o r c => some (place 0x3C000000 [(30, e.toNat), (16, d.code), (9, x.toNat), (8, n.toNat), (5, o.toNat), (3, r.toNat), (0, c.toNat)])
  | .brz h x o => some (place 0x7D000000 [(22, h.toNat), (14, x.code), (0, o.toNat)])
  | .brnz h x o => some (place 0x7E000000 [(22, h.toNat), (14, x.code), (0, o.toNat)])
  | .exit e => some (place 0x3F000000 [(30, e.toNat)])
  | .trap e n => some (place 0x3F000001 [(30, e.toNat), (16, n.toNat)])
  | .join e k => some (place 0x3F000002 [(30, e.toNat), (16, k.toNat)])
  | .wait k => some (place 0x7F000003 [(16, k.toNat)])
  | .leave e k => some (place 0x3F000004 [(30, e.toNat), (16, k.toNat)])
  | .kread e d k => some (place 0x3F000005 [(30, e.toNat), (16, d.code), (8, k.toNat)])
  | .kset e k x => some (place 0x3F000006 [(30, e.toNat), (16, k.toNat), (8, x.code)])
  | .bar => some (place 0x7F000007 [])
  | .barn b c => some (place 0x7F000008 [(16, b.toNat), (8, c.toNat)])
  | .sign n m => some (place 0x7F000009 [(16, n.toNat), (8, m.toNat)])
  | .waitb x => some (place 0x7F00000A [(8, x.code)])
  | .pollb e d x => some (place 0x3F00000B [(30, e.toNat), (16, d.code), (8, x.code)])
  | .prf e c x => some (place 0x3F00000C [(30, e.toNat), (16, c.toNat), (8, x.code)])
  | .fence e k s => some (place 0x3F000020 [(30, e.toNat), (3, k.toNat), (0, s.toNat)])
  | .nop e => some (place 0x80000000 [(30, e.toNat)])
  | .yield e => some (place 0x80000001 [(30, e.toNat)])
  | .eret => some (place 0xC0000002 [])
  | .bkpt e => some (place 0x80000003 [(30, e.toNat)])
  | .umov e d x => some (place 0x81000000 [(30, e.toNat), (16, d.code), (8, x.code)])
  | .umovi e d i => some (place 0x82000000 [(30, e.toNat), (16, d.code), (0, i.toNat)])
  | .umovhi e d i => some (place 0x83000000 [(30, e.toNat), (16, d.code), (0, i.toNat)])
  | .uadd e d x y => some (place 0x84000000 [(30, e.toNat), (16, d.code), (8, x.code), (0, y.code)])
  | .usub e d x y => some (place 0x85000000 [(30, e.toNat), (16, d.code), (8, x.code), (0, y.code)])
  | .umul e d x y => some (place 0x86000000 [(30, e.toNat), (16, d.code), (8, x.code), (0, y.code)])
  | .uand e d x y => some (place 0x87000000 [(30, e.toNat), (16, d.code), (8, x.code), (0, y.code)])
  | .uor e d x y => some (place 0x88000000 [(30, e.toNat), (16, d.code), (8, x.code), (0, y.code)])
  | .uxor e d x y => some (place 0x89000000 [(30, e.toNat), (16, d.code), (8, x.code), (0, y.code)])
  | .ushl e d x y => some (place 0x8A000000 [(30, e.toNat), (16, d.code), (8, x.code), (0, y.code)])
  | .ushr e d x y => some (place 0x8B000000 [(30, e.toNat), (16, d.code), (8, x.code), (0, y.code)])
  | .usar e d x y => some (place 0x8C000000 [(30, e.toNat), (16, d.code), (8, x.code), (0, y.code)])
  | .uminI32 e d x y => some (place 0x8D000000 [(30, e.toNat), (16, d.code), (8, x.code), (0, y.code)])
  | .uminN32 e d x y => some (place 0x8E000000 [(30, e.toNat), (16, d.code), (8, x.code), (0, y.code)])
  | .umaxI32 e d x y => some (place 0x8F000000 [(30, e.toNat), (16, d.code), (8, x.code), (0, y.code)])
  | .umaxN32 e d x y => some (place 0x90000000 [(30, e.toNat), (16, d.code), (8, x.code), (0, y.code)])
  | .ucmpEq e d x y => some (place 0x91000000 [(30, e.toNat), (16, d.code), (8, x.code), (0, y.code)])
  | .ucmpNe e d x y => some (place 0x92000000 [(30, e.toNat), (16, d.code), (8, x.code), (0, y.code)])
  | .ucmpLtI32 e d x y => some (place 0x93000000 [(30, e.toNat), (16, d.code), (8, x.code), (0, y.code)])
  | .ucmpLeI32 e d x y => some (place 0x94000000 [(30, e.toNat), (16, d.code), (8, x.code), (0, y.code)])
  | .ucmpLtN32 e d x y => some (place 0x95000000 [(30, e.toNat), (16, d.code), (8, x.code), (0, y.code)])
  | .ucmpLeN32 e d x y => some (place 0x96000000 [(30, e.toNat), (16, d.code), (8, x.code), (0, y.code)])
  | .usel e d x y => some (place 0x97000000 [(30, e.toNat), (16, d.code), (8, x.code), (0, y.code)])
  | .uldW e d x o => some (place 0x98000000 [(30, e.toNat), (16, d.code), (8, x.code), (0, o.toNat)])
  | .uldD e d x o => some (place 0x99000000 [(30, e.toNat), (16, d.code), (8, x.code), (0, o.toNat)])
  | .ustW e d x o => some (place 0x9A000000 [(30, e.toNat), (16, d.code), (8, x.code), (0, o.toNat)])
  | .ustD e d x o => some (place 0x9B000000 [(30, e.toNat), (16, d.code), (8, x.code), (0, o.toNat)])
  | .ujmp o => some (place 0xDC000000 [(0, o.toNat)])
  | .ubrZ x o => some (place 0xDD000000 [(16, x.code), (0, o.toNat)])
  | .ubrNz x o => some (place 0xDE000000 [(16, x.code), (0, o.toNat)])
  | .ucall x o => some (place 0xDF000000 [(16, x.code), (0, o.toNat)])
  | .uret x => some (place 0xE0000000 [(8, x.code)])
  | .ujr x => some (place 0xE1000000 [(8, x.code)])
  | .ureadlane e d x y => some (place 0xA2000000 [(30, e.toNat), (16, d.code), (8, x.code), (0, y.code)])
  | .ufirst e d => some (place 0xA3000000 [(30, e.toNat), (16, d.code)])
  | .sysrd e d r => some (place 0xA4000000 [(30, e.toNat), (16, d.code), (0, r.toNat)])
  | .syswr e d r => some (place 0xA5000000 [(30, e.toNat), (16, d.code), (0, r.toNat)])
  | .sched e d x c => some (place 0xA6000000 [(30, e.toNat), (16, d.code), (8, x.code), (4, c.toNat)])
  | .launch e d x => some (place 0xA7000000 [(30, e.toNat), (16, d.code), (8, x.code)])
  | .fmtset e n x => some (place 0xA8000000 [(30, e.toNat), (16, n.toNat), (8, x.code)])
  | .mma e z a b p c s t => some (place 0xA9000000 [(30, e.toNat), (18, z.toNat), (13, a.toNat), (8, b.toNat), (6, p.toNat), (4, c.toNat), (2, s.toNat), (0, t.toNat)])
  | .mmaz e z a b p c s t => some (place 0xAA000000 [(30, e.toNat), (18, z.toNat), (13, a.toNat), (8, b.toNat), (6, p.toNat), (4, c.toNat), (2, s.toNat), (0, t.toNat)])
  | .zclr e z => some (place 0xAB000000 [(30, e.toNat), (18, z.toNat)])
  | .zrd e d z b f m s n => some (place 0xAC000000 [(30, e.toNat), (19, d.toNat), (13, z.toNat), (11, b.toNat), (9, f.toNat), (6, m.toNat), (5, s.toNat), (2, n.toNat)])
  | .zwr e d z b => some (place 0xAD000000 [(30, e.toNat), (19, d.toNat), (13, z.toNat), (11, b.toNat)])
  | .facetOpen e d x => some (place 0xAE000000 [(30, e.toNat), (16, d.code), (8, x.code)])
  | .facetNext e d x => some (place 0xAF000000 [(30, e.toNat), (16, d.code), (8, x.code)])
  | .facetMark e g x y => some (place 0xB0000000 [(30, e.toNat), (16, g.code), (8, x.code), (0, y.code)])
  | .meshBump e d x => some (place 0xB1000000 [(30, e.toNat), (16, d.code), (8, x.code)])
  | .boxt e d x y => some (place 0xB2000000 [(30, e.toNat), (16, d.code), (8, x.code), (0, y.code)])
  | .trit e d x y => some (place 0xB3000000 [(30, e.toNat), (16, d.code), (8, x.code), (0, y.code)])
  | .stkPush e p b => some (place 0xB4000000 [(30, e.toNat), (12, p.code), (4, b.code)])
  | .stkPop e p b => some (place 0xB4100000 [(30, e.toNat), (12, p.code), (4, b.code)])
  | .rsave e v a => some (place 0xB5000000 [(30, e.toNat), (12, v.code), (4, a.code)])
  | .rload e v a => some (place 0xB5100000 [(30, e.toNat), (12, v.code), (4, a.code)])
  | .rastTri e x y => some (place 0xB6000000 [(30, e.toNat), (8, x.code), (0, y.code)])
  | .rastRate e x y => some (place 0xB7000000 [(30, e.toNat), (8, x.code), (0, y.code)])
  | .shapeSeal e d x => some (place 0xB8000000 [(30, e.toNat), (12, d.code), (4, x.code)])
  | .shapeDrop e x => some (place 0xB8100000 [(30, e.toNat), (4, x.code)])
  | .kick e d x y => some (place 0xB9000000 [(30, e.toNat), (16, d.code), (8, x.code), (0, y.code)])
  | .xform e d x => some (place 0xBA000000 [(30, e.toNat), (16, d.code), (8, x.code)])
  | .leaseGet e d x => some (place 0xBB000000 [(30, e.toNat), (12, d.code), (4, x.code)])
  | .leasePut e => some (place 0xBB100000 [(30, e.toNat)])
  | .wgReserve e d x => some (place 0xBC000000 [(30, e.toNat), (12, d.code), (4, x.code)])
  | .wgEmit e x => some (place 0xBC100000 [(30, e.toNat), (4, x.code)])
  | .wgDone e => some (place 0xBC200000 [(30, e.toNat)])
  | .branchResolve _ _ => none
  | .engineOpComplete _ => none
  | .engineOpStop _ => none
  | .stewardAtomic _ _ _ _ _ _ _ _ _ => none
  | .quartetStepStart _ _ => none
  | .quartetStepComplete _ _ => none
  | .rasterTriangle _ => none
  | .hardwarePrefetch _ _ => none
  | .queueTailWrite _ _ _ => none
  | .queueErrClear _ _ => none
  | .packetTake _ _ => none
  | .dependencePoll _ => none
  | .teamAdmit _ => none
  | .compactorMove _ => none
  | .coreScrub _ => none
  | .teamEnd _ => none
  | .gridRetire _ => none
  | .wgNodeTeamForm _ _ => none
  | .wgRecordTimeout _ _ => none
  | .roomKeyHeldClear _ _ => none
  | .roomKeyEnable _ _ _ => none
  | .faultRecordWrite _ => none
  | .resumeRetry _ _ => none
  | .resumeAbort _ _ => none
  | .invalidateRange _ => none
  | .invalidateAsid _ => none
  | .invalidatePartition _ => none
  | .invalidationDone _ => none
  | .guestbookOvfClear _ _ => none
  | .filterClear _ => none
  | .filterClearDone _ => none
  | .migrationStart _ _ => none
  | .migrationDone _ _ => none
  | .contextSave _ _ => none
  | .groupPreemptStop _ _ => none
  | .contextSaveDone _ _ => none
  | .contextRestore _ _ => none
  | .contextRestoreDone _ _ => none
  | .queueAbort _ _ => none
  | .registerWrite _ _ _ => none
  | .powerOnBoot => none
  | .pcieConfigRequest _ => none
  | .quoteRequest _ => none
  | .quoteDone _ => none
  | .hostWrite _ _ _ _ => none
  | .hostRead _ _ _ _ => none
  | .correctedError _ _ _ => none
  | .containedError _ => none
  | .uncontainedCoreError _ _ => none
  | .uncontainedMemoryError _ => none
  | .lockstepMismatch => none
  | .errorRecordWrite _ => none
  | .flitReceive _ _ => none
  | .flitAckTimeout _ => none
  | .linkTrainTimeout _ => none
  | .remoteRequestReceive _ _ _ _ => none
  | .remoteReplyReceive _ _ _ _ => none
  | .requestReplyTimeout _ _ _ => none
  | .timeBoundLost => none
  | .timeBoundRegained => none
  | .snapshotRequest _ => none
  | .snapshotDone _ => none
  | .standbyEntry => none
  | .droopEvent _ => none

/-- The word of an instruction (R134). -/
def encode (i : Instr) : Option (BitVec 32) := (encodeNat i).map (BitVec.ofNat 32)

end Sys2Proof
end

