-- ==== Sys2Proof/Machine/Operands.lean ====
section
/-!
DEFINITION. Operand forms: what each field of a word may name (R140 to R143, R145 to R148 and the entries
of the instruction chapters), and from that the checks of R149 that depend on the word alone: legal
fields, the v registers the word touches, and the latches it reads.
-/
namespace Sys2Proof

/-- What a field of a word does with the operand it names. -/
inductive Role where
  /-- A lane destination that is only written: a v code or "_" (R140, R141). -/
  | laneOut (o : Opd)
  /-- A lane register that is read and written: a v code. -/
  | laneInOut (o : Opd)
  /-- A lane source: any code (R172). -/
  | laneIn (o : Opd)
  /-- A block of n v registers whose base is a multiple of a (R142). -/
  | vBlock (o : Opd) (n a : Nat)
  /-- A block of n registers of one class, v or s, whose base is a multiple of a. -/
  | block (o : Opd) (n a : Nat)
  /-- A v code that is a multiple of a; its registers are counted when the word executes (LDL, R149). -/
  | vBase (o : Opd) (a : Nat)
  /-- A uniform destination that is only written: an s code or "_". -/
  | uniOut (o : Opd)
  /-- A uniform source: an s code or a uniform latch (R152). -/
  | uniIn (o : Opd)
  /-- A block of n s registers whose base is a multiple of a. -/
  | sBlock (o : Opd) (n a : Nat)
  /-- One v register that a uniform word names (R141). -/
  | vOne (o : Opd)
  /-- FACET.MARK's generation: any code (R242). -/
  | anyIn (o : Opd)
  /-- v registers named by number (matrix operands, R148, R236). -/
  | vNums (base n : Nat)
  /-- A condition on other fields of the word (a function, an index, a mode, a scope). -/
  | need (ok : Bool)
  /-- A tile number (R225). -/
  | tile (z : Nat)
  deriving DecidableEq, Repr

/-- The largest byte-select of a container (R59, R60): scales of 16 lines, one for 16 positions each, fill
16 × K/16 bytes of the 128-byte vector. -/
def selectLimit (container : Nat) : Nat :=
  match container with
  | 0 => 0
  | 1 => 1
  | _ => 3

/-- The combining functions of SCAN and RED (R189). -/
def scanFn (c : Nat) : Bool := [0, 1, 2, 5, 8, 9].contains c
def redFn (c : Nat) : Bool := [0, 1, 2, 3, 4, 5, 8, 9, 10].contains c

/-- Operands of ATOM (R198): the value registers by width and function, the address pair, and N. -/
def atomRoles (wide : Bool) (d : Opd) (x : BitVec 7) (n : BitVec 1) (o : BitVec 3) (c : BitVec 3) : List Role :=
  let cas := o == 7#3
  [ match wide, cas with
    | false, false => .laneInOut d
    | false, true => .vBlock d 2 2
    | true, false => .vBlock d 2 2
    | true, true => .vBlock d 4 2,
    .block (Opd.ofCode (2 * x.toNat)) 2 2,
    .need (n == 0#1 || o == 1#3 || o == 2#3),
    .need (c.toNat < 5) ]

/-- Operands of MMA and MMAZ (R148, R227). -/
def mmaRoles (z : BitVec 6) (a b : BitVec 5) (c s t : BitVec 2) : List Role :=
  [ .need (a.toNat < 23 && b.toNat < 23), .need (c.toNat < 3),
    .need (s.toNat ≤ selectLimit c.toNat && t.toNat ≤ selectLimit c.toNat),
    .vNums (8 * a.toNat) 9, .vNums (8 * b.toNat) 9, .tile z.toNat ]

/-- SYSRD's operands by register number (R164, R165). -/
def sysrdRoles (d : Opd) (r : Nat) : List Role :=
  if [0x00B, 0x010, 0x011, 0x020, 0x023].contains r then [.sBlock d 2 2]
  else if r ≤ 0x00A || [0x018, 0x021, 0x022, 0x024].contains r then [.uniOut d]
  else [.need false]

/-- SYSWR's operands by register number (R164, R165). -/
def syswrRoles (d : Opd) (r : Nat) : List Role :=
  if r = 0x018 then [.sBlock d 1 1]
  else if r = 0x020 then [.sBlock d 2 2]
  else [.need false]

/-- What the fields of each word do (R140 to R148 and the instruction entries). An event has none. -/
def Instr.roles : Instr → List Role
  | .iadd _ d x y => [.laneOut d, .laneIn x, .laneIn y]
  | .isub _ d x y => [.laneOut d, .laneIn x, .laneIn y]
  | .imul _ d x y => [.laneOut d, .laneIn x, .laneIn y]
  | .imulhI32 _ d x y => [.laneOut d, .laneIn x, .laneIn y]
  | .imulhN32 _ d x y => [.laneOut d, .laneIn x, .laneIn y]
  | .imac _ d x y => [.laneInOut d, .laneIn x, .laneIn y]
  | .iminI32 _ d x y => [.laneOut d, .laneIn x, .laneIn y]
  | .iminN32 _ d x y => [.laneOut d, .laneIn x, .laneIn y]
  | .imaxI32 _ d x y => [.laneOut d, .laneIn x, .laneIn y]
  | .imaxN32 _ d x y => [.laneOut d, .laneIn x, .laneIn y]
  | .and _ d x y => [.laneOut d, .laneIn x, .laneIn y]
  | .or _ d x y => [.laneOut d, .laneIn x, .laneIn y]
  | .xor _ d x y => [.laneOut d, .laneIn x, .laneIn y]
  | .andn _ d x y => [.laneOut d, .laneIn x, .laneIn y]
  | .shl _ d x y => [.laneOut d, .laneIn x, .laneIn y]
  | .shr _ d x y => [.laneOut d, .laneIn x, .laneIn y]
  | .sar _ d x y => [.laneOut d, .laneIn x, .laneIn y]
  | .iaddImm _ d x _ => [.laneOut d, .laneIn x]
  | .shlImm _ d x _ => [.laneOut d, .laneIn x]
  | .shrImm _ d x _ => [.laneOut d, .laneIn x]
  | .sarImm _ d x _ => [.laneOut d, .laneIn x]
  | .icmpEq _ d x y => [.laneOut d, .laneIn x, .laneIn y]
  | .icmpNe _ d x y => [.laneOut d, .laneIn x, .laneIn y]
  | .icmpLtI32 _ d x y => [.laneOut d, .laneIn x, .laneIn y]
  | .icmpLeI32 _ d x y => [.laneOut d, .laneIn x, .laneIn y]
  | .icmpLtN32 _ d x y => [.laneOut d, .laneIn x, .laneIn y]
  | .icmpLeN32 _ d x y => [.laneOut d, .laneIn x, .laneIn y]
  | .sel _ d x y => [.laneInOut d, .laneIn x, .laneIn y]
  | .lea _ d x y => [.vBlock d 2 2, .block x 2 2, .laneIn y]
  | .bfx _ d x y => [.laneOut d, .laneIn x, .laneIn y]
  | .bfi _ d x y => [.laneInOut d, .laneIn x, .laneIn y]
  | .iabs _ d x => [.laneOut d, .laneIn x]
  | .clz _ d x => [.laneOut d, .laneIn x]
  | .popc _ d x => [.laneOut d, .laneIn x]
  | .brev _ d x => [.laneOut d, .laneIn x]
  | .bint2 _ d x => [.laneOut d, .laneIn x]
  | .bint3 _ d x => [.laneOut d, .laneIn x]
  | .bdeint3 _ d x => [.laneOut d, .laneIn x]
  | .laneid _ d => [.laneOut d]
  | .frcp _ d x => [.laneOut d, .laneIn x]
  | .frsq _ d x => [.laneOut d, .laneIn x]
  | .fsqrt _ d x => [.laneOut d, .laneIn x]
  | .fexp2 _ d x => [.laneOut d, .laneIn x]
  | .flog2 _ d x => [.laneOut d, .laneIn x]
  | .fsin _ d x => [.laneOut d, .laneIn x]
  | .unpack2F16X2 _ d x => [.vBlock d 2 2, .laneIn x]
  | .unpack2G16X2 _ d x => [.vBlock d 2 2, .laneIn x]
  | .faddF32 _ d x y => [.laneOut d, .laneIn x, .laneIn y]
  | .fsubF32 _ d x y => [.laneOut d, .laneIn x, .laneIn y]
  | .fmulF32 _ d x y => [.laneOut d, .laneIn x, .laneIn y]
  | .ffmaF32 _ d x y => [.laneInOut d, .laneIn x, .laneIn y]
  | .fminF32 _ d x y => [.laneOut d, .laneIn x, .laneIn y]
  | .fmaxF32 _ d x y => [.laneOut d, .laneIn x, .laneIn y]
  | .faddPacked _ d x _ => [.laneOut d, .block x 2 1]
  | .fsubPacked _ d x _ => [.laneOut d, .block x 2 1]
  | .fmulPacked _ d x _ => [.laneOut d, .block x 2 1]
  | .ffmaPacked _ d x _ => [.laneInOut d, .block x 2 1]
  | .fminPacked _ d x _ => [.laneOut d, .block x 2 1]
  | .fmaxPacked _ d x _ => [.laneOut d, .block x 2 1]
  | .fcmpEq _ d x y => [.laneOut d, .laneIn x, .laneIn y]
  | .fcmpLt _ d x y => [.laneOut d, .laneIn x, .laneIn y]
  | .fcmpLe _ d x y => [.laneOut d, .laneIn x, .laneIn y]
  | .fcmpUn _ d x y => [.laneOut d, .laneIn x, .laneIn y]
  | .fcvtF16F32 _ d x m => [.laneOut d, .laneIn x, .need (m.toNat < 5)]
  | .fcvtG16F32 _ d x m => [.laneOut d, .laneIn x, .need (m.toNat < 5)]
  | .fcvtF32F16 _ d x m => [.laneOut d, .laneIn x, .need (m.toNat < 5)]
  | .fcvtF32G16 _ d x m => [.laneOut d, .laneIn x, .need (m.toNat < 5)]
  | .fcvtI32F32 _ d x m => [.laneOut d, .laneIn x, .need (m.toNat < 5)]
  | .fcvtN32F32 _ d x m => [.laneOut d, .laneIn x, .need (m.toNat < 5)]
  | .fcvtF32I32 _ d x m => [.laneOut d, .laneIn x, .need (m.toNat < 5)]
  | .fcvtF32N32 _ d x m => [.laneOut d, .laneIn x, .need (m.toNat < 5)]
  | .fcvtF32F32 _ d x m => [.laneOut d, .laneIn x, .need (m.toNat < 5)]
  | .fcvtQF32 _ d x _ m => [.laneOut d, .laneIn x, .need (m.toNat < 5)]
  | .fcvtF32Q _ d x _ m => [.laneOut d, .laneIn x, .need (m.toNat < 5)]
  | .pack2F16X2 _ d x y => [.laneOut d, .laneIn x, .laneIn y]
  | .pack2G16X2 _ d x y => [.laneOut d, .laneIn x, .laneIn y]
  | .shfl _ d x y => [.laneOut d, .laneIn x, .laneIn y]
  | .shflup _ d x _ => [.laneOut d, .laneIn x]
  | .shfldn _ d x _ => [.laneOut d, .laneIn x]
  | .shflx _ d x _ => [.laneOut d, .laneIn x]
  | .scan _ d x c => [.laneOut d, .laneIn x, .need (scanFn c.toNat)]
  | .red _ d x c => [.laneOut d, .laneIn x, .need (redFn c.toNat)]
  | .ballot _ d x => [.laneOut d, .laneIn x]
  | .voteAny _ d x => [.laneOut d, .laneIn x]
  | .voteAll _ d x => [.laneOut d, .laneIn x]
  | .ldB _ d x _ => [.laneOut d, .block x 2 2]
  | .ldH _ d x _ => [.laneOut d, .block x 2 2]
  | .ldW _ d x _ => [.laneOut d, .block x 2 2]
  | .ldD _ d x _ => [.vBlock d 2 2, .block x 2 2]
  | .ldO _ d x _ => [.vBlock d 4 4, .block x 2 2]
  | .stB _ d x _ => [.laneIn d, .block x 2 2]
  | .stH _ d x _ => [.laneIn d, .block x 2 2]
  | .stW _ d x _ => [.laneIn d, .block x 2 2]
  | .stD _ d x _ => [.block d 2 2, .block x 2 2]
  | .stO _ d x _ => [.block d 4 4, .block x 2 2]
  | .ldl _ d x s => [.vBase d 2, .block x 3 1, .sBlock s 2 2]
  | .ldt _ d x _ w _ => [.vBlock d 8 8, .sBlock x 2 2, .need (w.toNat < 3)]
  | .atomW _ d x n o _ c => atomRoles false d x n o c
  | .atomD _ d x n o _ c => atomRoles true d x n o c
  | .brz _ x _ => [.laneIn x]
  | .brnz _ x _ => [.laneIn x]
  | .exit _ => []
  | .trap _ _ => []
  | .join _ k => [.need (k.toNat < 12)]
  | .wait k => [.need (k.toNat < 12)]
  | .leave _ k => [.need (k.toNat < 12)]
  | .kread _ d k => [.laneOut d, .need (k.toNat < 12)]
  | .kset _ k x => [.laneIn x, .need (k.toNat < 12)]
  | .bar => []
  | .barn b c => [.need (b.toNat < 16), .need (1 ≤ c.toNat && c.toNat ≤ 32)]
  | .sign n m => [.need (n.toNat < 8), .need (m != 0#4)]
  | .waitb x => [.block x 2 2]
  | .pollb _ d x => [.laneOut d, .block x 2 2]
  | .prf _ _ x => [.block x 2 2]
  | .fence _ k s => [.need (k.toNat < 3), .need (s.toNat < 5)]
  | .nop _ => []
  | .yield _ => []
  | .eret => []
  | .bkpt _ => []
  | .umov _ d x => [.uniOut d, .uniIn x]
  | .umovi _ d _ => [.uniOut d]
  | .umovhi _ d _ => [.sBlock d 1 1]
  | .uadd _ d x y => [.uniOut d, .uniIn x, .uniIn y]
  | .usub _ d x y => [.uniOut d, .uniIn x, .uniIn y]
  | .umul _ d x y => [.uniOut d, .uniIn x, .uniIn y]
  | .uand _ d x y => [.uniOut d, .uniIn x, .uniIn y]
  | .uor _ d x y => [.uniOut d, .uniIn x, .uniIn y]
  | .uxor _ d x y => [.uniOut d, .uniIn x, .uniIn y]
  | .ushl _ d x y => [.uniOut d, .uniIn x, .uniIn y]
  | .ushr _ d x y => [.uniOut d, .uniIn x, .uniIn y]
  | .usar _ d x y => [.uniOut d, .uniIn x, .uniIn y]
  | .uminI32 _ d x y => [.uniOut d, .uniIn x, .uniIn y]
  | .uminN32 _ d x y => [.uniOut d, .uniIn x, .uniIn y]
  | .umaxI32 _ d x y => [.uniOut d, .uniIn x, .uniIn y]
  | .umaxN32 _ d x y => [.uniOut d, .uniIn x, .uniIn y]
  | .ucmpEq _ d x y => [.uniOut d, .uniIn x, .uniIn y]
  | .ucmpNe _ d x y => [.uniOut d, .uniIn x, .uniIn y]
  | .ucmpLtI32 _ d x y => [.uniOut d, .uniIn x, .uniIn y]
  | .ucmpLeI32 _ d x y => [.uniOut d, .uniIn x, .uniIn y]
  | .ucmpLtN32 _ d x y => [.uniOut d, .uniIn x, .uniIn y]
  | .ucmpLeN32 _ d x y => [.uniOut d, .uniIn x, .uniIn y]
  | .usel _ d x y => [.sBlock d 1 1, .uniIn x, .uniIn y]
  | .uldW _ d x _ => [.uniOut d, .sBlock x 2 2]
  | .uldD _ d x _ => [.sBlock d 2 2, .sBlock x 2 2]
  | .ustW _ d x _ => [.uniIn d, .sBlock x 2 2]
  | .ustD _ d x _ => [.sBlock d 2 2, .sBlock x 2 2]
  | .ujmp _ => []
  | .ubrZ x _ => [.uniIn x]
  | .ubrNz x _ => [.uniIn x]
  | .ucall x _ => [.sBlock x 2 2]
  | .uret x => [.sBlock x 2 2]
  | .ujr x => [.sBlock x 2 2]
  | .ureadlane _ d x y => [.uniOut d, .vOne x, .uniIn y]
  | .ufirst _ d => [.uniOut d]
  | .sysrd _ d r => sysrdRoles d r.toNat
  | .syswr _ d r => syswrRoles d r.toNat
  | .sched _ d x _ => [.sBlock d 4 4, .uniIn x]
  | .launch _ d x => [.uniOut d, .sBlock x 2 2]
  | .fmtset _ _ x => [.uniIn x]
  | .mma _ z a b _ c s t => mmaRoles z a b c s t
  | .mmaz _ z a b _ c s t => mmaRoles z a b c s t
  | .zclr _ z => [.tile z.toNat]
  | .zrd _ d z _ f m _ n => [.need (d.toNat < 24), .need (m.toNat < 5), .need (n == 0#3 || f == 3#2), .vNums (8 * d.toNat) 8, .tile z.toNat]
  | .zwr _ d z _ => [.need (d.toNat < 24), .vNums (8 * d.toNat) 8, .tile z.toNat]
  | .facetOpen _ d x => [.laneOut d, .block x 8 1]
  | .facetNext _ d x => [.vBlock d 13 1, .block x 2 2]
  | .facetMark _ g x y => [.anyIn g, .block x 2 2, .block y 2 2]
  | .meshBump _ d x => [.uniOut d, .sBlock x 2 2]
  | .boxt _ d x y => [.vBlock d 5 1, .block x 8 1, .block y 2 2]
  | .trit _ d x y => [.vBlock d 4 1, .block x 8 1, .block y 9 1]
  | .stkPush _ p b => [.vBlock p 3 2, .sBlock b 3 2]
  | .stkPop _ p b => [.vBlock p 3 2, .sBlock b 3 2]
  | .rsave _ v a => [.vBlock v 16 4, .block a 2 2]
  | .rload _ v a => [.vBlock v 16 4, .block a 2 2]
  | .rastTri _ x y => [.sBlock x 2 2, .block y 10 1]
  | .rastRate _ x y => [.sBlock x 2 2, .block y 2 1]
  | .shapeSeal _ d x => [.uniOut d, .sBlock x 2 2]
  | .shapeDrop _ x => [.uniIn x]
  | .kick _ d x y => [.uniOut d, .sBlock x 2 2, .uniIn y]
  | .xform _ d x => [.uniOut d, .sBlock x 2 2]
  | .leaseGet _ d x => [.uniOut d, .uniIn x]
  | .leasePut _ => []
  | .wgReserve _ d x => [.vBlock d 2 2, .uniIn x]
  | .wgEmit _ x => [.vBlock x 2 2]
  | .wgDone _ => []
  | .branchResolve _ _ => []
  | .engineOpComplete _ => []
  | .engineOpStop _ => []
  | .stewardAtomic _ _ _ _ _ _ _ _ _ => []
  | .quartetStepStart _ _ => []
  | .quartetStepComplete _ _ => []
  | .rasterTriangle _ => []
  | .hardwarePrefetch _ _ => []
  | .queueTailWrite _ _ _ => []
  | .queueErrClear _ _ => []
  | .packetTake _ _ => []
  | .dependencePoll _ => []
  | .teamAdmit _ => []
  | .compactorMove _ => []
  | .coreScrub _ => []
  | .teamEnd _ => []
  | .gridRetire _ => []
  | .wgNodeTeamForm _ _ => []
  | .wgRecordTimeout _ _ => []
  | .roomKeyHeldClear _ _ => []
  | .roomKeyEnable _ _ _ => []
  | .faultRecordWrite _ => []
  | .resumeRetry _ _ => []
  | .resumeAbort _ _ => []
  | .invalidateRange _ => []
  | .invalidateAsid _ => []
  | .invalidatePartition _ => []
  | .invalidationDone _ => []
  | .guestbookOvfClear _ _ => []
  | .filterClear _ => []
  | .filterClearDone _ => []
  | .migrationStart _ _ => []
  | .migrationDone _ _ => []
  | .contextSave _ _ => []
  | .groupPreemptStop _ _ => []
  | .contextSaveDone _ _ => []
  | .contextRestore _ _ => []
  | .contextRestoreDone _ _ => []
  | .queueAbort _ _ => []
  | .registerWrite _ _ _ => []
  | .powerOnBoot => []
  | .pcieConfigRequest _ => []
  | .quoteRequest _ => []
  | .quoteDone _ => []
  | .hostWrite _ _ _ _ => []
  | .hostRead _ _ _ _ => []
  | .correctedError _ _ _ => []
  | .containedError _ => []
  | .uncontainedCoreError _ _ => []
  | .uncontainedMemoryError _ => []
  | .lockstepMismatch => []
  | .errorRecordWrite _ => []
  | .flitReceive _ _ => []
  | .flitAckTimeout _ => []
  | .linkTrainTimeout _ => []
  | .remoteRequestReceive _ _ _ _ => []
  | .remoteReplyReceive _ _ _ _ => []
  | .requestReplyTimeout _ _ _ => []
  | .timeBoundLost => []
  | .timeBoundRegained => []
  | .snapshotRequest _ => []
  | .snapshotDone _ => []
  | .standbyEntry => []
  | .droopEvent _ => []

/-- The E bit of a word (R134); an event ends no run. -/
def Instr.ends : Instr → Bool
  | .iadd e _ _ _ => e
  | .isub e _ _ _ => e
  | .imul e _ _ _ => e
  | .imulhI32 e _ _ _ => e
  | .imulhN32 e _ _ _ => e
  | .imac e _ _ _ => e
  | .iminI32 e _ _ _ => e
  | .iminN32 e _ _ _ => e
  | .imaxI32 e _ _ _ => e
  | .imaxN32 e _ _ _ => e
  | .and e _ _ _ => e
  | .or e _ _ _ => e
  | .xor e _ _ _ => e
  | .andn e _ _ _ => e
  | .shl e _ _ _ => e
  | .shr e _ _ _ => e
  | .sar e _ _ _ => e
  | .iaddImm e _ _ _ => e
  | .shlImm e _ _ _ => e
  | .shrImm e _ _ _ => e
  | .sarImm e _ _ _ => e
  | .icmpEq e _ _ _ => e
  | .icmpNe e _ _ _ => e
  | .icmpLtI32 e _ _ _ => e
  | .icmpLeI32 e _ _ _ => e
  | .icmpLtN32 e _ _ _ => e
  | .icmpLeN32 e _ _ _ => e
  | .sel e _ _ _ => e
  | .lea e _ _ _ => e
  | .bfx e _ _ _ => e
  | .bfi e _ _ _ => e
  | .iabs e _ _ => e
  | .clz e _ _ => e
  | .popc e _ _ => e
  | .brev e _ _ => e
  | .bint2 e _ _ => e
  | .bint3 e _ _ => e
  | .bdeint3 e _ _ => e
  | .laneid e _ => e
  | .frcp e _ _ => e
  | .frsq e _ _ => e
  | .fsqrt e _ _ => e
  | .fexp2 e _ _ => e
  | .flog2 e _ _ => e
  | .fsin e _ _ => e
  | .unpack2F16X2 e _ _ => e
  | .unpack2G16X2 e _ _ => e
  | .faddF32 e _ _ _ => e
  | .fsubF32 e _ _ _ => e
  | .fmulF32 e _ _ _ => e
  | .ffmaF32 e _ _ _ => e
  | .fminF32 e _ _ _ => e
  | .fmaxF32 e _ _ _ => e
  | .faddPacked e _ _ _ => e
  | .fsubPacked e _ _ _ => e
  | .fmulPacked e _ _ _ => e
  | .ffmaPacked e _ _ _ => e
  | .fminPacked e _ _ _ => e
  | .fmaxPacked e _ _ _ => e
  | .fcmpEq e _ _ _ => e
  | .fcmpLt e _ _ _ => e
  | .fcmpLe e _ _ _ => e
  | .fcmpUn e _ _ _ => e
  | .fcvtF16F32 e _ _ _ => e
  | .fcvtG16F32 e _ _ _ => e
  | .fcvtF32F16 e _ _ _ => e
  | .fcvtF32G16 e _ _ _ => e
  | .fcvtI32F32 e _ _ _ => e
  | .fcvtN32F32 e _ _ _ => e
  | .fcvtF32I32 e _ _ _ => e
  | .fcvtF32N32 e _ _ _ => e
  | .fcvtF32F32 e _ _ _ => e
  | .fcvtQF32 e _ _ _ _ => e
  | .fcvtF32Q e _ _ _ _ => e
  | .pack2F16X2 e _ _ _ => e
  | .pack2G16X2 e _ _ _ => e
  | .shfl e _ _ _ => e
  | .shflup e _ _ _ => e
  | .shfldn e _ _ _ => e
  | .shflx e _ _ _ => e
  | .scan e _ _ _ => e
  | .red e _ _ _ => e
  | .ballot e _ _ => e
  | .voteAny e _ _ => e
  | .voteAll e _ _ => e
  | .ldB e _ _ _ => e
  | .ldH e _ _ _ => e
  | .ldW e _ _ _ => e
  | .ldD e _ _ _ => e
  | .ldO e _ _ _ => e
  | .stB e _ _ _ => e
  | .stH e _ _ _ => e
  | .stW e _ _ _ => e
  | .stD e _ _ _ => e
  | .stO e _ _ _ => e
  | .ldl e _ _ _ => e
  | .ldt e _ _ _ _ _ => e
  | .atomW e _ _ _ _ _ _ => e
  | .atomD e _ _ _ _ _ _ => e
  | .brz _ _ _ => true
  | .brnz _ _ _ => true
  | .exit e => e
  | .trap e _ => e
  | .join e _ => e
  | .wait _ => true
  | .leave e _ => e
  | .kread e _ _ => e
  | .kset e _ _ => e
  | .bar => true
  | .barn _ _ => true
  | .sign _ _ => true
  | .waitb _ => true
  | .pollb e _ _ => e
  | .prf e _ _ => e
  | .fence e _ _ => e
  | .nop e => e
  | .yield e => e
  | .eret => true
  | .bkpt e => e
  | .umov e _ _ => e
  | .umovi e _ _ => e
  | .umovhi e _ _ => e
  | .uadd e _ _ _ => e
  | .usub e _ _ _ => e
  | .umul e _ _ _ => e
  | .uand e _ _ _ => e
  | .uor e _ _ _ => e
  | .uxor e _ _ _ => e
  | .ushl e _ _ _ => e
  | .ushr e _ _ _ => e
  | .usar e _ _ _ => e
  | .uminI32 e _ _ _ => e
  | .uminN32 e _ _ _ => e
  | .umaxI32 e _ _ _ => e
  | .umaxN32 e _ _ _ => e
  | .ucmpEq e _ _ _ => e
  | .ucmpNe e _ _ _ => e
  | .ucmpLtI32 e _ _ _ => e
  | .ucmpLeI32 e _ _ _ => e
  | .ucmpLtN32 e _ _ _ => e
  | .ucmpLeN32 e _ _ _ => e
  | .usel e _ _ _ => e
  | .uldW e _ _ _ => e
  | .uldD e _ _ _ => e
  | .ustW e _ _ _ => e
  | .ustD e _ _ _ => e
  | .ujmp _ => true
  | .ubrZ _ _ => true
  | .ubrNz _ _ => true
  | .ucall _ _ => true
  | .uret _ => true
  | .ujr _ => true
  | .ureadlane e _ _ _ => e
  | .ufirst e _ => e
  | .sysrd e _ _ => e
  | .syswr e _ _ => e
  | .sched e _ _ _ => e
  | .launch e _ _ => e
  | .fmtset e _ _ => e
  | .mma e _ _ _ _ _ _ _ => e
  | .mmaz e _ _ _ _ _ _ _ => e
  | .zclr e _ => e
  | .zrd e _ _ _ _ _ _ _ => e
  | .zwr e _ _ _ => e
  | .facetOpen e _ _ => e
  | .facetNext e _ _ => e
  | .facetMark e _ _ _ => e
  | .meshBump e _ _ => e
  | .boxt e _ _ _ => e
  | .trit e _ _ _ => e
  | .stkPush e _ _ => e
  | .stkPop e _ _ => e
  | .rsave e _ _ => e
  | .rload e _ _ => e
  | .rastTri e _ _ => e
  | .rastRate e _ _ => e
  | .shapeSeal e _ _ => e
  | .shapeDrop e _ => e
  | .kick e _ _ _ => e
  | .xform e _ _ => e
  | .leaseGet e _ _ => e
  | .leasePut e => e
  | .wgReserve e _ _ => e
  | .wgEmit e _ => e
  | .wgDone e => e
  | .branchResolve _ _ => false
  | .engineOpComplete _ => false
  | .engineOpStop _ => false
  | .stewardAtomic _ _ _ _ _ _ _ _ _ => false
  | .quartetStepStart _ _ => false
  | .quartetStepComplete _ _ => false
  | .rasterTriangle _ => false
  | .hardwarePrefetch _ _ => false
  | .queueTailWrite _ _ _ => false
  | .queueErrClear _ _ => false
  | .packetTake _ _ => false
  | .dependencePoll _ => false
  | .teamAdmit _ => false
  | .compactorMove _ => false
  | .coreScrub _ => false
  | .teamEnd _ => false
  | .gridRetire _ => false
  | .wgNodeTeamForm _ _ => false
  | .wgRecordTimeout _ _ => false
  | .roomKeyHeldClear _ _ => false
  | .roomKeyEnable _ _ _ => false
  | .faultRecordWrite _ => false
  | .resumeRetry _ _ => false
  | .resumeAbort _ _ => false
  | .invalidateRange _ => false
  | .invalidateAsid _ => false
  | .invalidatePartition _ => false
  | .invalidationDone _ => false
  | .guestbookOvfClear _ _ => false
  | .filterClear _ => false
  | .filterClearDone _ => false
  | .migrationStart _ _ => false
  | .migrationDone _ _ => false
  | .contextSave _ _ => false
  | .groupPreemptStop _ _ => false
  | .contextSaveDone _ _ => false
  | .contextRestore _ _ => false
  | .contextRestoreDone _ _ => false
  | .queueAbort _ _ => false
  | .registerWrite _ _ _ => false
  | .powerOnBoot => false
  | .pcieConfigRequest _ => false
  | .quoteRequest _ => false
  | .quoteDone _ => false
  | .hostWrite _ _ _ _ => false
  | .hostRead _ _ _ _ => false
  | .correctedError _ _ _ => false
  | .containedError _ => false
  | .uncontainedCoreError _ _ => false
  | .uncontainedMemoryError _ => false
  | .lockstepMismatch => false
  | .errorRecordWrite _ => false
  | .flitReceive _ _ => false
  | .flitAckTimeout _ => false
  | .linkTrainTimeout _ => false
  | .remoteRequestReceive _ _ _ _ => false
  | .remoteReplyReceive _ _ _ _ => false
  | .requestReplyTimeout _ _ _ => false
  | .timeBoundLost => false
  | .timeBoundRegained => false
  | .snapshotRequest _ => false
  | .snapshotDone _ => false
  | .standbyEntry => false
  | .droopEvent _ => false

/-- Whether a step is a word of the uniform set, a word of the lane set, or an event (R134). -/
inductive StepKind where
  | lane
  | uniform
  | event
  deriving DecidableEq, Repr

/-- The kind of a step. -/
def Instr.kind : Instr → StepKind
  | .iadd _ _ _ _ => .lane
  | .isub _ _ _ _ => .lane
  | .imul _ _ _ _ => .lane
  | .imulhI32 _ _ _ _ => .lane
  | .imulhN32 _ _ _ _ => .lane
  | .imac _ _ _ _ => .lane
  | .iminI32 _ _ _ _ => .lane
  | .iminN32 _ _ _ _ => .lane
  | .imaxI32 _ _ _ _ => .lane
  | .imaxN32 _ _ _ _ => .lane
  | .and _ _ _ _ => .lane
  | .or _ _ _ _ => .lane
  | .xor _ _ _ _ => .lane
  | .andn _ _ _ _ => .lane
  | .shl _ _ _ _ => .lane
  | .shr _ _ _ _ => .lane
  | .sar _ _ _ _ => .lane
  | .iaddImm _ _ _ _ => .lane
  | .shlImm _ _ _ _ => .lane
  | .shrImm _ _ _ _ => .lane
  | .sarImm _ _ _ _ => .lane
  | .icmpEq _ _ _ _ => .lane
  | .icmpNe _ _ _ _ => .lane
  | .icmpLtI32 _ _ _ _ => .lane
  | .icmpLeI32 _ _ _ _ => .lane
  | .icmpLtN32 _ _ _ _ => .lane
  | .icmpLeN32 _ _ _ _ => .lane
  | .sel _ _ _ _ => .lane
  | .lea _ _ _ _ => .lane
  | .bfx _ _ _ _ => .lane
  | .bfi _ _ _ _ => .lane
  | .iabs _ _ _ => .lane
  | .clz _ _ _ => .lane
  | .popc _ _ _ => .lane
  | .brev _ _ _ => .lane
  | .bint2 _ _ _ => .lane
  | .bint3 _ _ _ => .lane
  | .bdeint3 _ _ _ => .lane
  | .laneid _ _ => .lane
  | .frcp _ _ _ => .lane
  | .frsq _ _ _ => .lane
  | .fsqrt _ _ _ => .lane
  | .fexp2 _ _ _ => .lane
  | .flog2 _ _ _ => .lane
  | .fsin _ _ _ => .lane
  | .unpack2F16X2 _ _ _ => .lane
  | .unpack2G16X2 _ _ _ => .lane
  | .faddF32 _ _ _ _ => .lane
  | .fsubF32 _ _ _ _ => .lane
  | .fmulF32 _ _ _ _ => .lane
  | .ffmaF32 _ _ _ _ => .lane
  | .fminF32 _ _ _ _ => .lane
  | .fmaxF32 _ _ _ _ => .lane
  | .faddPacked _ _ _ _ => .lane
  | .fsubPacked _ _ _ _ => .lane
  | .fmulPacked _ _ _ _ => .lane
  | .ffmaPacked _ _ _ _ => .lane
  | .fminPacked _ _ _ _ => .lane
  | .fmaxPacked _ _ _ _ => .lane
  | .fcmpEq _ _ _ _ => .lane
  | .fcmpLt _ _ _ _ => .lane
  | .fcmpLe _ _ _ _ => .lane
  | .fcmpUn _ _ _ _ => .lane
  | .fcvtF16F32 _ _ _ _ => .lane
  | .fcvtG16F32 _ _ _ _ => .lane
  | .fcvtF32F16 _ _ _ _ => .lane
  | .fcvtF32G16 _ _ _ _ => .lane
  | .fcvtI32F32 _ _ _ _ => .lane
  | .fcvtN32F32 _ _ _ _ => .lane
  | .fcvtF32I32 _ _ _ _ => .lane
  | .fcvtF32N32 _ _ _ _ => .lane
  | .fcvtF32F32 _ _ _ _ => .lane
  | .fcvtQF32 _ _ _ _ _ => .lane
  | .fcvtF32Q _ _ _ _ _ => .lane
  | .pack2F16X2 _ _ _ _ => .lane
  | .pack2G16X2 _ _ _ _ => .lane
  | .shfl _ _ _ _ => .lane
  | .shflup _ _ _ _ => .lane
  | .shfldn _ _ _ _ => .lane
  | .shflx _ _ _ _ => .lane
  | .scan _ _ _ _ => .lane
  | .red _ _ _ _ => .lane
  | .ballot _ _ _ => .lane
  | .voteAny _ _ _ => .lane
  | .voteAll _ _ _ => .lane
  | .ldB _ _ _ _ => .lane
  | .ldH _ _ _ _ => .lane
  | .ldW _ _ _ _ => .lane
  | .ldD _ _ _ _ => .lane
  | .ldO _ _ _ _ => .lane
  | .stB _ _ _ _ => .lane
  | .stH _ _ _ _ => .lane
  | .stW _ _ _ _ => .lane
  | .stD _ _ _ _ => .lane
  | .stO _ _ _ _ => .lane
  | .ldl _ _ _ _ => .lane
  | .ldt _ _ _ _ _ _ => .lane
  | .atomW _ _ _ _ _ _ _ => .lane
  | .atomD _ _ _ _ _ _ _ => .lane
  | .brz _ _ _ => .lane
  | .brnz _ _ _ => .lane
  | .exit _ => .lane
  | .trap _ _ => .lane
  | .join _ _ => .lane
  | .wait _ => .lane
  | .leave _ _ => .lane
  | .kread _ _ _ => .lane
  | .kset _ _ _ => .lane
  | .bar => .lane
  | .barn _ _ => .lane
  | .sign _ _ => .lane
  | .waitb _ => .lane
  | .pollb _ _ _ => .lane
  | .prf _ _ _ => .lane
  | .fence _ _ _ => .lane
  | .nop _ => .uniform
  | .yield _ => .uniform
  | .eret => .uniform
  | .bkpt _ => .uniform
  | .umov _ _ _ => .uniform
  | .umovi _ _ _ => .uniform
  | .umovhi _ _ _ => .uniform
  | .uadd _ _ _ _ => .uniform
  | .usub _ _ _ _ => .uniform
  | .umul _ _ _ _ => .uniform
  | .uand _ _ _ _ => .uniform
  | .uor _ _ _ _ => .uniform
  | .uxor _ _ _ _ => .uniform
  | .ushl _ _ _ _ => .uniform
  | .ushr _ _ _ _ => .uniform
  | .usar _ _ _ _ => .uniform
  | .uminI32 _ _ _ _ => .uniform
  | .uminN32 _ _ _ _ => .uniform
  | .umaxI32 _ _ _ _ => .uniform
  | .umaxN32 _ _ _ _ => .uniform
  | .ucmpEq _ _ _ _ => .uniform
  | .ucmpNe _ _ _ _ => .uniform
  | .ucmpLtI32 _ _ _ _ => .uniform
  | .ucmpLeI32 _ _ _ _ => .uniform
  | .ucmpLtN32 _ _ _ _ => .uniform
  | .ucmpLeN32 _ _ _ _ => .uniform
  | .usel _ _ _ _ => .uniform
  | .uldW _ _ _ _ => .uniform
  | .uldD _ _ _ _ => .uniform
  | .ustW _ _ _ _ => .uniform
  | .ustD _ _ _ _ => .uniform
  | .ujmp _ => .uniform
  | .ubrZ _ _ => .uniform
  | .ubrNz _ _ => .uniform
  | .ucall _ _ => .uniform
  | .uret _ => .uniform
  | .ujr _ => .uniform
  | .ureadlane _ _ _ _ => .uniform
  | .ufirst _ _ => .uniform
  | .sysrd _ _ _ => .uniform
  | .syswr _ _ _ => .uniform
  | .sched _ _ _ _ => .uniform
  | .launch _ _ _ => .uniform
  | .fmtset _ _ _ => .uniform
  | .mma _ _ _ _ _ _ _ _ => .uniform
  | .mmaz _ _ _ _ _ _ _ _ => .uniform
  | .zclr _ _ => .uniform
  | .zrd _ _ _ _ _ _ _ _ => .uniform
  | .zwr _ _ _ _ => .uniform
  | .facetOpen _ _ _ => .uniform
  | .facetNext _ _ _ => .uniform
  | .facetMark _ _ _ _ => .uniform
  | .meshBump _ _ _ => .uniform
  | .boxt _ _ _ _ => .uniform
  | .trit _ _ _ _ => .uniform
  | .stkPush _ _ _ => .uniform
  | .stkPop _ _ _ => .uniform
  | .rsave _ _ _ => .uniform
  | .rload _ _ _ => .uniform
  | .rastTri _ _ _ => .uniform
  | .rastRate _ _ _ => .uniform
  | .shapeSeal _ _ _ => .uniform
  | .shapeDrop _ _ => .uniform
  | .kick _ _ _ _ => .uniform
  | .xform _ _ _ => .uniform
  | .leaseGet _ _ _ => .uniform
  | .leasePut _ => .uniform
  | .wgReserve _ _ _ => .uniform
  | .wgEmit _ _ => .uniform
  | .wgDone _ => .uniform
  | .branchResolve _ _ => .event
  | .engineOpComplete _ => .event
  | .engineOpStop _ => .event
  | .stewardAtomic _ _ _ _ _ _ _ _ _ => .event
  | .quartetStepStart _ _ => .event
  | .quartetStepComplete _ _ => .event
  | .rasterTriangle _ => .event
  | .hardwarePrefetch _ _ => .event
  | .queueTailWrite _ _ _ => .event
  | .queueErrClear _ _ => .event
  | .packetTake _ _ => .event
  | .dependencePoll _ => .event
  | .teamAdmit _ => .event
  | .compactorMove _ => .event
  | .coreScrub _ => .event
  | .teamEnd _ => .event
  | .gridRetire _ => .event
  | .wgNodeTeamForm _ _ => .event
  | .wgRecordTimeout _ _ => .event
  | .roomKeyHeldClear _ _ => .event
  | .roomKeyEnable _ _ _ => .event
  | .faultRecordWrite _ => .event
  | .resumeRetry _ _ => .event
  | .resumeAbort _ _ => .event
  | .invalidateRange _ => .event
  | .invalidateAsid _ => .event
  | .invalidatePartition _ => .event
  | .invalidationDone _ => .event
  | .guestbookOvfClear _ _ => .event
  | .filterClear _ => .event
  | .filterClearDone _ => .event
  | .migrationStart _ _ => .event
  | .migrationDone _ _ => .event
  | .contextSave _ _ => .event
  | .groupPreemptStop _ _ => .event
  | .contextSaveDone _ _ => .event
  | .contextRestore _ _ => .event
  | .contextRestoreDone _ _ => .event
  | .queueAbort _ _ => .event
  | .registerWrite _ _ _ => .event
  | .powerOnBoot => .event
  | .pcieConfigRequest _ => .event
  | .quoteRequest _ => .event
  | .quoteDone _ => .event
  | .hostWrite _ _ _ _ => .event
  | .hostRead _ _ _ _ => .event
  | .correctedError _ _ _ => .event
  | .containedError _ => .event
  | .uncontainedCoreError _ _ => .event
  | .uncontainedMemoryError _ => .event
  | .lockstepMismatch => .event
  | .errorRecordWrite _ => .event
  | .flitReceive _ _ => .event
  | .flitAckTimeout _ => .event
  | .linkTrainTimeout _ => .event
  | .remoteRequestReceive _ _ _ _ => .event
  | .remoteReplyReceive _ _ _ _ => .event
  | .requestReplyTimeout _ _ _ => .event
  | .timeBoundLost => .event
  | .timeBoundRegained => .event
  | .snapshotRequest _ => .event
  | .snapshotDone _ => .event
  | .standbyEntry => .event
  | .droopEvent _ => .event

/-- The register number of an operand in its class. -/
def Opd.num : Opd → Nat
  | .v r => r.val
  | .s r => r.val
  | .q r => r.val

/-- Whether an operand may stand in its field (R149 step 1). -/
def Role.legal : Role → Bool
  | .laneOut o => match o with | .v _ => true | .s _ => false | .q r => r.val == 3
  | .laneInOut o => match o with | .v _ => true | _ => false
  | .laneIn _ => true
  | .vBlock o n a => match o with | .v r => r.val % a == 0 && r.val + n ≤ 192 | _ => false
  | .block o n a =>
    match o with
    | .v r => r.val % a == 0 && r.val + n ≤ 192
    | .s r => r.val % a == 0 && r.val + n ≤ 60
    | .q _ => false
  | .vBase o a => match o with | .v r => r.val % a == 0 | _ => false
  | .uniOut o => match o with | .v _ => false | .s _ => true | .q r => r.val == 3
  | .uniIn o => match o with | .v _ => false | _ => true
  | .sBlock o n a => match o with | .s r => r.val % a == 0 && r.val + n ≤ 60 | _ => false
  | .vOne o => match o with | .v _ => true | _ => false
  | .anyIn _ => true
  | .vNums _ _ => true
  | .need ok => ok
  | .tile _ => true

/-- The lowest v register that a field reaches at or above the allocation, if any (R149 step 2). -/
def Role.outOfRange (regs : Nat) : Role → Option Nat
  | .laneOut (.v r) | .laneInOut (.v r) | .laneIn (.v r) | .vOne (.v r) | .anyIn (.v r) =>
    if r.val < regs then none else some r.val
  | .vBlock (.v r) n _ | .block (.v r) n _ =>
    if r.val + n ≤ regs then none else some (max r.val regs)
  | .vNums b n => if b + n ≤ regs then none else some (max b regs)
  | _ => none

/-- The tile of a field at or above the allocation, if it is one (R225). -/
def Role.tileOut (ztiles : Nat) : Role → Option Nat
  | .tile z => if z < ztiles then none else some z
  | _ => none

/-- The latch that a field reads, if it reads one. -/
def Role.latch : Role → Option (Fin 4)
  | .laneIn (.q r) | .uniIn (.q r) | .anyIn (.q r) => some r
  | _ => none

/-- Whether every field of a word is allowed (R149 step 1; what depends on the machine is judged by the
word's own meaning). -/
def Instr.legal (i : Instr) : Bool := i.roles.all Role.legal

/-- The lower of two optional numbers. -/
def lower (a b : Option Nat) : Option Nat :=
  match a, b with
  | some x, some y => some (min x y)
  | some x, none => some x
  | none, y => y

/-- %trapinfo of REG_RANGE when the word reaches past an allocation (R267): the lowest v register out of
range, else the tile number with bit 8 set. -/
def Instr.regRange (i : Instr) (regs ztiles : Nat) : Option Nat :=
  match (i.roles.map (Role.outOfRange regs)).foldl lower none with
  | some r => some r
  | none => ((i.roles.map (Role.tileOut ztiles)).foldl lower none).map (· + 256)

/-- The latches a word reads, in field order. -/
def Instr.latches (i : Instr) : List (Fin 4) := i.roles.filterMap Role.latch

end Sys2Proof
end

