-- ==== Sys2Proof/Machine/Ops.lean ====
section
/-!
DEFINITION. The shared operations that every word's meaning is built from: the issuing fragment, register
and latch access, the store FIFO, the path of a lane access (R191), parking (R10), taking a trap and
returning from one (R349 to R354, R406), group stops and ends.
-/
namespace Sys2Proof.Machine

/-! ## Records looked up with a stand-in for a missing one -/

/-- A lane at team start (R20) with a program counter. -/
def Lane.start (pc : Word64) : Lane :=
  { live := true, pc := pc, meet := 0, status := 0, rpt := 0, frag := ⟨0, []⟩, hold := .run, halt := false,
    stalled := false, arrive := true, inRun := some 0, level := 0, helper := false, q := Latches.invalid, v := [] }

/-- The lane of a group at an index; an index outside 0–31 gives a lane that has exited (DESIGN CHOICE, log 60). -/
def Group.lane (G : Group) (l : Nat) : Lane :=
  (Tab.get? G.lanes l).getD { Lane.start 0 with live := false }

/-- The group with a function applied to some of its lanes. -/
def Group.mapLanes (G : Group) (ls : List Nat) (f : Nat → Lane → Lane) : Group :=
  { G with lanes := G.lanes.map (fun e => if ls.contains e.1 then (e.1, f e.1 e.2) else e) }

/-- The lanes of a group that satisfy a condition, in ascending order. -/
def Group.lanesWhere (G : Group) (f : Lane → Bool) : List Nat :=
  (G.lanes.filter (fun e => f e.2)).map (·.1)

/-- The live lanes of a group, in ascending order. -/
def Group.liveLanes (G : Group) : List Nat := G.lanesWhere (·.live)

/-- A set of lanes as a mask. -/
def laneMask (ls : List Nat) : BitVec 32 := ls.foldl (fun m l => m ||| BitVec.ofNat 32 (2 ^ l)) 0

/-- The lanes of a mask, in ascending order. -/
def maskLanes (m : BitVec 32) : List Nat := (List.range 32).filter (fun l => m.getLsbD l)

/-! ## The issuing fragment -/

/-- The lanes that issue together, and where (R25, R26): the active set. -/
structure Ctx where
  t : Nat
  g : Nat
  team : Team
  grp : Group
  grid : Grid
  lanes : List Nat
  pc : Nat
  key : FragKey
  level : Nat
  deriving DecidableEq, Repr

/-- Whether a lane can issue with another one: the same fragment, word and handler set, and not held. -/
def Lane.joins (L M : Lane) : Bool :=
  M.live && M.hold == .run && M.frag == L.frag && M.pc == L.pc && M.level == L.level

/-- The fragment that holds the issue slot named by `sched.cur`. -/
def State.issuer (s : State) : Option Ctx :=
  match s.sched.cur with
  | none => none
  | some (t, g, l) =>
    match Tab.get? s.teams t with
    | none => none
    | some T =>
      match Tab.get? T.groups g, Tab.get? s.grids T.grid with
      | some G, some gr =>
        match Tab.get? G.lanes l with
        | none => none
        | some L =>
          if L.joins L then
            some { t := t, g := g, team := T, grp := G, grid := gr, lanes := G.lanesWhere L.joins,
                   pc := L.pc.toNat, key := L.frag, level := L.level }
          else none
      | _, _ => none

/-- The address space of a grid (R325). -/
def Grid.space (g : Grid) : Space := ⟨g.part, g.asid, g.root⟩

/-- The address space of the issuing team. -/
def Ctx.space (c : Ctx) : Space := c.grid.space

/-- The group as it stands in a state. -/
def State.grpOf (s : State) (c : Ctx) : Group :=
  match Tab.get? s.teams c.t with
  | some T => (Tab.get? T.groups c.g).getD c.grp
  | none => c.grp

/-- The team as it stands in a state. -/
def State.teamOf (s : State) (c : Ctx) : Team := (Tab.get? s.teams c.t).getD c.team

/-! ## Registers and latches -/

/-- Latch n (0–3) of a set. -/
def Latches.get (q : Latches) (n : Fin 4) : Option Word :=
  match n with
  | 0 => q.q1
  | 1 => q.q2
  | 2 => q.q3
  | 3 => q.q4

/-- The latches moved down by one with a new q1 (R143); `none` leaves q1 invalid. -/
def Latches.shift (q : Latches) (r : Option Word) : Latches := ⟨r, q.q1, q.q2, q.q3⟩

/-- A v register of a lane. -/
def Lane.vreg (L : Lane) (r : Nat) : Word := Store.get L.v r

/-- The lane with a v register written. -/
def Lane.setV (L : Lane) (r : Nat) (w : Word) : Lane := { L with v := Store.set L.v r w }

/-- The lane with consecutive v registers written, lowest first. -/
def Lane.setVs (L : Lane) (r : Nat) (ws : List Word) : Lane := { L with v := Store.setRange L.v r ws }

/-- The lane with its latches shifted (R143). -/
def Lane.latch (L : Lane) (r : Option Word) : Lane := { L with q := L.q.shift r }

/-- An s register of a group. -/
def Group.sreg (G : Group) (r : Nat) : Word := Store.get G.s r

/-- The group with an s register written. -/
def Group.setS (G : Group) (r : Nat) (w : Word) : Group := { G with s := Store.set G.s r w }

/-- The value of an operand for a lane in a lane word: V(c, i) of R172. An invalid latch reads as zero here;
the word has trapped before (R149). -/
def Group.laneVal (G : Group) (L : Lane) : Opd → Word
  | .v r => L.vreg r.val
  | .s r => G.sreg r.val
  | .q n => (L.q.get n).getD 0

/-- The value of an operand of a uniform word: U(c) of R152. -/
def Group.uniVal (G : Group) : Opd → Word
  | .v _ => 0
  | .s r => G.sreg r.val
  | .q n => (G.uq.get n).getD 0

/-- Register j of a block operand, for a lane (an s block gives every lane the group's values). -/
def Group.blockVal (G : Group) (L : Lane) (o : Opd) (j : Nat) : Word :=
  match o with
  | .v r => L.vreg (r.val + j)
  | .s r => G.sreg (r.val + j)
  | .q _ => 0

/-- The 64-bit value of a pair operand, for a lane (R142). -/
def Group.pairVal (G : Group) (L : Lane) (o : Opd) : Nat :=
  (G.blockVal L o 0).toNat + 2 ^ 32 * (G.blockVal L o 1).toNat

/-- The 64-bit value of an s pair. -/
def Group.sPair (G : Group) (r : Nat) : Nat := (G.sreg r).toNat + 2 ^ 32 * (G.sreg (r + 1)).toNat

/-- The group with an s pair written. -/
def Group.setSPair (G : Group) (r v : Nat) : Group :=
  (G.setS r (BitVec.ofNat 32 v)).setS (r + 1) (BitVec.ofNat 32 (v / 2 ^ 32))

/-- A lane's destination register written, or none under "_" (R140, R155). -/
def Lane.writeOut (L : Lane) (d : Opd) (r : Word) : Lane :=
  match d with
  | .v n => L.setV n.val r
  | _ => L

/-- A uniform destination register written, or none under "_". -/
def Group.writeOut (G : Group) (d : Opd) (r : Word) : Group :=
  match d with
  | .s n => G.setS n.val r
  | _ => G

/-- A number's two's-complement reading of n bits. -/
def signExtend (v n : Nat) : Int := if v / 2 ^ (n - 1) % 2 = 1 then (v % 2 ^ n : Nat) - (2 ^ n : Nat) else (v % 2 ^ n : Nat)

/-- An address plus a signed offset, modulo 2^64 (R193). -/
def addOffset (base : Nat) (off : Int) : Nat := (((base : Int) + off) % (2 ^ 64 : Nat)).toNat

/-! ## The store FIFO (R93, R97) -/

/-- The byte a place holds in storage. -/
def State.stored (s : State) (T : Team) : Place → Byte
  | .scratch o => Store.get T.scratch o
  | .phys a => s.byte a
  | .enc a => Config.encodedByte a s.steps

/-- The latest byte that some stores, oldest first, leave at a place. -/
def latestByte (entries : List (List (Place × Byte))) (p : Place) : Option Byte :=
  entries.foldl (fun acc e => match e.find? (fun b => b.1 == p) with
    | some b => some b.2
    | none => acc) none

/-- The byte a place holds for a group: its latest stored byte in the FIFO. -/
def forwarded (fifo : List FifoEntry) (p : Place) : Option Byte := latestByte (fifo.map (·.bytes)) p

/-- The byte a place holds for the groups of a team: the latest in the team's buffer, else what storage holds. -/
def State.teamByte (s : State) (T : Team) (p : Place) : Byte :=
  (latestByte (T.buffer.map (·.bytes)) p).getD (s.stored T p)

/-- The byte a place reads as for a group (R193). -/
def State.readPlace (s : State) (c : Ctx) (p : Place) : Byte :=
  (forwarded (s.grpOf c).fifo p).getD (s.teamByte (s.teamOf c) p)

/-- The sector of global memory that a place lies in. -/
def Place.sector : Place → Option Nat
  | .scratch _ => none
  | .phys a => some (a / 32)
  | .enc a => some (a / 32)

/-- The sectors of global memory that some places lie in. -/
def sectorsOf (ps : List Place) : List Nat := (ps.filterMap Place.sector).eraseDups

/-- The piece that a place lies in, within which a plain access is atomic (R11), and its offset there. -/
def Place.piece : Place → Option (Nat × Nat)
  | .scratch o => some (2 * (o / 32), o % 32)
  | .phys a => some (2 * (a / 32) + 1, a % 32)
  | .enc _ => none

/-- A byte of a place as noted in a table of pieces. -/
def pieceByte (m : Tab (List Byte)) (p : Place) : Option Byte :=
  p.piece.bind fun x => (Tab.get? m x.1).map (·.getD x.2 0)

/-- The byte of a place as its sector was noted earlier. -/
def sectorByte (m : Tab (List Byte)) : Place → Option Byte
  | .phys a => (Tab.get? m (a / 32)).map (·.getD (a % 32) 0)
  | _ => none

/-- The byte that a load of a group may return for a place (R93, R94, R99): its own latest store in the FIFO; else as its
piece was noted for this word; else the sector as it was noted earlier for the group; else what its team sees. -/
def State.loadPlace (s : State) (c : Ctx) (p : Place) : Byte :=
  let G := s.grpOf c
  (((forwarded G.fifo p).or (pieceByte G.pieces p)).or (sectorByte G.early p)).getD (s.teamByte (s.teamOf c) p)

/-- The group without what was noted of some sectors. -/
def Group.dropEarly (G : Group) (ss : List Nat) : Group := { G with early := G.early.filter (fun e => !ss.contains e.1) }

/-- The group with nothing noted: its later loads come after what was ordered here (R99 to R101). -/
def Group.clearEarly (G : Group) : Group := { G with early := [], ahead := [] }

/-- What every group of a team had noted of some sectors dropped: a write of the team has reached them. -/
def State.dropEarly (s : State) (t : Nat) (ss : List Nat) : State :=
  s.modTeam t fun T => { T with groups := T.groups.map (fun e => (e.1, e.2.dropEarly ss)) }

/-- The sector of a physical address as a team sees it, noted for a group's later loads (R99; DESIGN CHOICE, log 6). -/
def State.noteEarly (s : State) (t g sector : Nat) : State :=
  match Tab.get? s.teams t with
  | none => s
  | some T =>
    if s.poisoned (32 * sector) then s else
    let bs := (List.range 32).map (fun i => s.teamByte T (.phys (32 * sector + i)))
    s.modGroup t g fun G => { G with early := Tab.put G.early sector bs }

/-- A piece as a team sees it, noted for the loads of a group's next word: the pieces of one load are read at moments of
their own (R11, R94; DESIGN CHOICE, log 6). -/
def State.noteAhead (s : State) (t g piece : Nat) : State :=
  match Tab.get? s.teams t with
  | none => s
  | some T =>
    let at_ (i : Nat) : Place := let a := 32 * (piece / 2) + i
      if piece % 2 = 0 then .scratch a else .phys a
    if piece % 2 = 1 && s.poisoned (32 * (piece / 2)) then s else
    s.modGroup t g fun G => { G with ahead := Tab.put G.ahead piece ((List.range 32).map (fun i => s.teamByte T (at_ i))) }

/-- Every group of a core's teams with nothing noted. -/
def State.clearNotes (s : State) (pcore : Nat) : State :=
  { s with teams := s.teams.map (fun e => (e.1, if e.2.pcore = pcore then
      { e.2 with groups := e.2.groups.map (fun g => (g.1, g.2.clearEarly)) } else e.2)) }

/-- An entry with the bytes of a lane's store added: a later lane's byte takes the place of an earlier
one's (R93, R194). -/
def FifoEntry.addBytes (e : FifoEntry) (bs : List (Place × Byte)) : FifoEntry :=
  { bytes := (e.bytes.filter (fun x => !(bs.any (fun y => y.1 == x.1)))) ++ bs }

/-- Bytes stored by a lane of the instruction whose FIFO entry is the last one. -/
def Group.storeBytes (G : Group) (bs : List (Place × Byte)) : Group :=
  match G.fifo.reverse with
  | [] => { G with fifo := [{ bytes := bs }] }
  | e :: es => { G with fifo := (e.addBytes bs :: es).reverse }

/-- An empty entry for the stores of a new instruction. -/
def Group.openEntry (G : Group) : Group := { G with fifo := G.fifo ++ [{ bytes := [] }] }

/-- The FIFO without a last entry that took no bytes. -/
def Group.closeEntry (G : Group) : Group :=
  match G.fifo.reverse with
  | e :: es => if e.bytes = [] then { G with fifo := es.reverse } else G
  | [] => G

/-- Whether some stored bytes are every byte of the sector of a physical address. -/
def coversSector (bs : List (Place × Byte)) (pa : Nat) : Bool :=
  (List.range 32).all (fun i => bs.any (fun b => b.1 == .phys (pa / 32 * 32 + i)))

/-- A store through a mapping with the wrong Z value: the bytes of its 256-byte unit become unspecified (R345;
how far the damage reaches within the frame is a DESIGN CHOICE, log 18). -/
def State.spoilUnit (s : State) (a : Nat) : State :=
  s.writePhys (a / 256 * 256) ((List.range 256).map (fun i => Config.encodedByte (a / 256 * 256 + i) s.steps))

/-- Writes one stored byte to storage. Bytes of another device's memory leave as requests (R378). -/
def State.performByte (s : State) (t : Nat) : Place × Byte → State
  | (.scratch o, b) => s.modTeam t fun T => { T with scratch := Store.set T.scratch o b }
  | (.phys a, b) => if remotePa a then s else s.writePhys a [b]
  | (.enc a, _) => s.spoilUnit a

/-- Bytes written to storage, in order. -/
def State.performBytes (s : State) (t : Nat) (bs : List (Place × Byte)) : State :=
  bs.foldl (fun s b => s.performByte t b) s

/-- Poison goes from the sectors that one store instruction or one engine operation writes whole (R75; a store through
a mapping with the wrong Z value writes no byte of its sector as such: DESIGN CHOICE, log 18). -/
def State.clearPoison (s : State) (bs : List (Place × Byte)) : State :=
  (sectorsOf (bs.map (·.1))).foldl (fun s n =>
    if s.poisoned (32 * n) && coversSector bs (32 * n) then s.setPoison (32 * n) false else s) s

/-- What one store instruction or one engine operation wrote performed (R93, R108): its bytes reach storage, and
poison goes from the sectors they cover. -/
def State.performEntry (s : State) (t : Nat) (e : FifoEntry) : State := (s.performBytes t e.bytes).clearPoison e.bytes

/-- The entries of a team's buffer that a condition picks performed, oldest first. -/
def State.spillWhere (s : State) (t : Nat) (pick : Buffered → Bool) : State :=
  match Tab.get? s.teams t with
  | none => s
  | some T =>
    ((T.buffer.filter pick).foldl (fun s b => s.performEntry t ⟨b.bytes⟩) s).modTeam t fun T =>
      { T with buffer := T.buffer.filter (fun b => !pick b) }

/-- Whether a buffered store lies in one of some sectors. -/
def Buffered.inSectors (b : Buffered) (ss : List Nat) : Bool := (sectorsOf (b.bytes.map (·.1))).any ss.contains

/-- A team's buffered stores to some sectors performed, oldest first. -/
def State.spillSectors (s : State) (t : Nat) (ss : List Nat) : State := s.spillWhere t (fun b => b.inSectors ss)

/-- Every buffered store of a team performed. -/
def State.spillTeam (s : State) (t : Nat) : State := s.spillWhere t (fun _ => true)

/-- Of a team's buffered stores those of other groups than one, with the older ones of their sectors; and the rest. -/
def splitOthers (g : Nat) : List Buffered → List Buffered × List Buffered
  | [] => ([], [])
  | b :: bs =>
    let r := splitOthers g bs
    if b.group != g || r.1.any (·.inSectors (sectorsOf (b.bytes.map (·.1)))) then (b :: r.1, r.2) else (r.1, b :: r.2)

/-- The buffered stores of the other groups of a team performed: what a group may have read of its team is then seen by
every agent before the group's later stores (R96, R99). -/
def State.spillOthers (s : State) (t g : Nat) : State :=
  match Tab.get? s.teams t with
  | none => s
  | some T =>
    ((splitOthers g T.buffer).1.foldl (fun s b => s.performEntry t ⟨b.bytes⟩) s).modTeam t fun T =>
      { T with buffer := (splitOthers g T.buffer).2 }

/-- One entry of a team's buffer performed, with the older ones of its sector first: stores to different sectors are
not ordered at die scope and wider (R99). -/
def State.spillOne (s : State) (t n : Nat) : State :=
  match Tab.get? s.teams t with
  | none => s
  | some T =>
    match T.buffer[n]? with
    | none => s
    | some b =>
      let ss := sectorsOf (b.bytes.map (·.1))
      let now (i : Nat) (x : Buffered) : Bool := i ≤ n && x.inSectors ss
      ((T.buffer.zipIdx.filter (fun e => now e.2 e.1)).foldl (fun s e => s.performEntry t ⟨e.1.bytes⟩) s).modTeam t fun T =>
        { T with buffer := (T.buffer.zipIdx.filter (fun e => !now e.2 e.1)).map (·.1) }

/-- The number of the piece that a place lies in. -/
def Place.pieceNo : Place → Nat
  | .scratch o => 2 * (o / 32)
  | .phys a => 2 * (a / 32) + 1
  | .enc a => 2 * (a / 32) + 1

/-- The pieces that some places lie in. -/
def piecesOf (ps : List Place) : List Nat := (ps.map Place.pieceNo).eraseDups

/-- The pieces that an entry stores to. -/
def FifoEntry.pieces (e : FifoEntry) : List Nat := piecesOf (e.bytes.map (·.1))

/-- The group with no note of some pieces: an access of its own has reached them (R94). -/
def Group.dropPieces (G : Group) (qs : List Nat) : Group :=
  { G with ahead := G.ahead.filter (fun e => !qs.contains e.1), pieces := G.pieces.filter (fun e => !qs.contains e.1) }

/-- A store of a group made visible to the groups of its team (R98): its scratchpad bytes are performed, and what it
leaves in each sector of global memory enters the team's buffer. A poisoned sector is written at once (R75). -/
def State.shareEntry (s : State) (t g : Nat) (e : FifoEntry) : State :=
  let ss := sectorsOf (e.bytes.map (·.1))
  let s := s.performBytes t (e.bytes.filter (fun b => b.1.sector.isNone))
  let s := s.modTeam t fun T =>
    { T with buffer := T.buffer ++ ss.map (fun n => ⟨g, e.bytes.filter (fun b => b.1.sector == some n)⟩) }
  ((s.dropEarly t ss).modGroup t g (·.dropPieces e.pieces)).spillSectors t (ss.filter (fun n => s.poisoned (32 * n)))

/-- One piece of the oldest store of a group made visible to its team (R11, R94), chosen by a number counted round. -/
def State.drainOne (s : State) (t g n : Nat) : State :=
  match Tab.get? s.teams t with
  | none => s
  | some T =>
    match Tab.get? T.groups g with
    | none => s
    | some G =>
      match G.fifo with
      | [] => s
      | e :: es =>
        let q := (e.pieces[n % e.pieces.length]?).getD 0
        let rest := e.bytes.filter (fun b => b.1.pieceNo != q)
        (s.shareEntry t g ⟨e.bytes.filter (fun b => b.1.pieceNo == q)⟩).modGroup t g fun G =>
          { G with fifo := if rest = [] then es else ⟨rest⟩ :: es }

/-- Every store of a group made visible to its team, oldest first: the FIFO drains (R98). -/
def State.drainFifo (s : State) (t g : Nat) : State :=
  match Tab.get? s.teams t with
  | none => s
  | some T =>
    match Tab.get? T.groups g with
    | none => s
    | some G => (G.fifo.foldl (fun s e => s.shareEntry t g e) s).modGroup t g fun G => { G with fifo := [] }

/-- Every store of a group performed, with what its team's buffer holds: every agent sees them. -/
def State.drainGroup (s : State) (t g : Nat) : State := (s.drainFifo t g).spillTeam t

/-- Every store of every group of a team performed. -/
def State.drainTeam (s : State) (t : Nat) : State :=
  match Tab.get? s.teams t with
  | none => s
  | some T => (T.groups.foldl (fun s e => s.drainFifo t e.1) s).spillTeam t

/-! ## Requests to other devices (R378, R380) -/

/-- Splits physical bytes into runs of consecutive addresses, for remote requests. -/
def remoteRuns : List (Place × Byte) → List (Nat × List Byte)
  | [] => []
  | (.phys a, b) :: rest =>
    if remotePa a then
      match remoteRuns rest with
      | (a', bs) :: rs => if a' = a + 1 then (a, b :: bs) :: rs else (a, [b]) :: (a', bs) :: rs
      | [] => [(a, [b])]
    else remoteRuns rest
  | _ :: rest => remoteRuns rest

/-- A request put on the flow from a source unit to a device (R380): its sequence number. A flow that holds 256
unanswered requests takes no more: its sender tries again (DEDUCED, log 41). -/
def State.sendRequest (s : State) (source dest : Nat) (r : RemoteReq) : State × Option (BitVec 32) :=
  match s.flowsOut.find? (fun f => f.source == source && f.dest == dest) with
  | some f =>
    if 256 ≤ f.unanswered.length then (s, none) else
    ({ s with flowsOut := s.flowsOut.map (fun x =>
        if x.source == source && x.dest == dest then
          { x with next := x.next + 1, unanswered := x.unanswered ++ [⟨x.next, r, 1⟩] } else x) }, some f.next)
  | none => ({ s with flowsOut := s.flowsOut ++ [⟨source, dest, 1, [⟨0, r, 1⟩]⟩] }, some 0)

/-! ## The path of a lane access (R191) -/

/-- Trap causes (R267). -/
def causeIllegal : Nat := 0x01
def causeRegRange : Nat := 0x02
def causeLatchLost : Nat := 0x03
def causeTrap : Nat := 0x04
def causeBkpt : Nat := 0x05
def causeScratchRange : Nat := 0x06
def causeRangeLock : Nat := 0x07
def causePoison : Nat := 0x08
def causeCopyOverlap : Nat := 0x09
def causeDescBad : Nat := 0x0A
def causeFacetBad : Nat := 0x0B
def causeBarCount : Nat := 0x0C
def causeBarDiverged : Nat := 0x0D
def causeMmaStep : Nat := 0x0E
def causeStackFull : Nat := 0x0F
def causeLaunchDepth : Nat := 0x10
def causeJobBad : Nat := 0x11
def causeWgFault : Nat := 0x12
def causeStatus : Nat := 0x13
def causeDoubleTrap : Nat := 0x14

/-- %trapinfo of SCRATCH_RANGE for n bytes at a (R267). -/
def scratchInfo (a n limit : Nat) : Nat :=
  let first := max a (windowBase + limit)
  let beyond := first < a + n && first < 2 ^ 64
  (if beyond then first - windowBase else 0) + (if a < windowBase || 2 ^ 64 < a + n then 2 ^ 19 else 0)

/-- Whether n bytes at a that meet the window leave it or the team's limit (R68). -/
def scratchBad (a n limit : Nat) : Bool := a < windowBase || windowBase + limit < a + n

/-- Whether two byte ranges share a byte. -/
def overlaps (a n b m : Nat) : Bool := a < b + m && b < a + n && 0 < n && 0 < m

/-- Whether a range lock speaks of a team's access at an address: its scratchpad's window belongs to the
lock's team, a global address to the lock's address space (DEDUCED, log 33). -/
def RangeLock.about (k : RangeLock) (t : Nat) (sp : Space) (a : Nat) : Bool :=
  if inWindow a then k.team == t else k.part == sp.part && k.asid == sp.asid

/-- The range lock that forbids an access, if one does (R107): its entry. -/
def lockHit (locks : Tab RangeLock) (t : Nat) (sp : Space) (a n : Nat) (k : AccKind) : Option Nat :=
  (locks.find? (fun e => e.2.about t sp a && overlaps a n e.2.base e.2.len && (e.2.dst || k.writes))).map (·.1)

/-- The range locks of a core. -/
def State.locksOf (s : State) (core : Nat) : Tab RangeLock :=
  match Tab.get? s.cores core with
  | some k => k.locks
  | none => []

/-- How an access of a lane comes out: the places of its bytes with the page's IO type, a trap, or a
failed translation at its first failing byte; in each case with the state that the walks left (R329). -/
inductive Access where
  | ok (s : State) (ps : List Place) (io : Bool)
  | trap (s : State) (cause info : Nat)
  | park (s : State) (va : Nat) (f : XFail)
  deriving DecidableEq, Repr

/-- The places of n bytes at a virtual address, a page at a time (DEDUCED, log 58). -/
def placesFrom (s : State) (sel : TlbSel) (sp : Space) (k : AccKind) : Nat → Nat → Nat → Access
  | 0, _, _ => .ok s [] false
  | _ + 1, _, 0 => .ok s [] false
  | fuel + 1, a, n + 1 =>
    match translate s sel sp a k with
    | .fail f => .park s a f
    | .ok s pa pbmt mixed =>
      let here := min (n + 1) (4096 - a % 4096)
      match placesFrom s sel sp k fuel (a + here) (n + 1 - here) with
      | .ok s ps io => .ok s ((List.range here).map (fun i => if mixed then .enc (pa + i) else .phys (pa + i)) ++ ps) (io || pbmt == 2)
      | r => r

/-- Whether any sector that a load touches is poisoned for a group: a store of its own that covers the sector and is
not performed yet takes the poison's place (R75; DEDUCED, log 34). -/
def poisonHit (s : State) (own : List (List (Place × Byte))) (ps : List Place) : Bool :=
  ps.any (fun p => match p with
    | .phys a => s.poisoned a && !(own.any (fun bs => coversSector bs a))
    | .enc a => s.poisoned a
    | .scratch _ => false)

/-- The stores of the issuing group that are not performed yet. -/
def State.ownStores (s : State) (c : Ctx) : List (List (Place × Byte)) :=
  ((s.teamOf c).buffer.filter (fun b => b.group == c.g)).map (·.bytes) ++ (s.grpOf c).fifo.map (·.bytes)

/-- The access path of a lane of the issuing fragment (R191), up to the bytes' places. -/
def laneAccess (s : State) (c : Ctx) (a n : Nat) (k : AccKind) : Access :=
  if !canonical a then .trap s causeIllegal 0 else
  if meetsWindow a n && scratchBad a n c.team.limit then .trap s causeScratchRange (scratchInfo a n c.team.limit) else
  match lockHit (s.locksOf c.team.pcore) c.t c.space a n k with
  | some e => .trap s causeRangeLock e
  | none =>
    if inWindow a then .ok s ((List.range n).map (fun i => .scratch (a - windowBase + i))) false
    else
      match placesFrom s (.core c.team.pcore) c.space k 4 a n with
      | .ok s' ps io =>
        if k == .atomic && io then .trap s' causeIllegal 0
        else if (k == .load || k == .atomic) && poisonHit s' (s'.ownStores c) ps then .trap s' causePoison 0
        else .ok s' ps io
      | r => r

/-! ## Remote bytes (R378, R380) -/

/-- The runs of consecutive remote addresses among places. -/
def remoteChunks (ps : List Place) : List (Nat × Nat) :=
  (remoteRuns (ps.map (fun p => (p, 0)))).map (fun r => (r.1, r.2.length))

/-- What a lane still has to ask of remote memory before its access can read: the chunks with no reply yet,
those whose reply is outstanding counted as such. -/
inductive RemoteState where
  | ready
  | waiting
  | ask (chunks : List (Nat × Nat))
  | failed (pa : Nat)
  deriving DecidableEq, Repr

/-- How the remote bytes of a lane's access of a kind stand. -/
def remoteState (replies : List RemoteReply) (kind : ReqKind) (lane : Nat) (ps : List Place) : RemoteState :=
  let chunks := remoteChunks ps
  let find (ch : Nat × Nat) :=
    replies.find? (fun r => r.kind == kind && r.lane == lane && r.pa == ch.1 && r.len == ch.2)
  let missing := chunks.filter (fun ch => (find ch).isNone)
  let answered (ch : Nat × Nat) : Option (Bool × ReplyBytes) := (find ch).bind (·.answer)
  if missing ≠ [] then .ask missing
  else if chunks.any (fun ch => (answered ch).isNone) then .waiting
  else
    match chunks.find? (fun ch => match answered ch with
      | some (failed, _) => failed
      | none => false) with
    | some ch => .failed ch.1
    | none => .ready

/-- The byte of remote memory that a lane's reply of a kind holds. -/
def replyByte (replies : List RemoteReply) (kind : ReqKind) (lane a : Nat) : Byte :=
  match replies.find? (fun r => r.kind == kind && r.lane == lane && r.pa ≤ a && a < r.pa + r.len) with
  | some r => match r.answer with
    | some (_, x) => x.bytes.getD (a - r.pa) 0
    | none => 0
  | none => 0

/-- Whether a lane's reply of a kind marks a byte of remote memory as poisoned (R346). -/
def replyLost (replies : List RemoteReply) (kind : ReqKind) (lane a : Nat) : Bool :=
  replies.any (fun r => r.kind == kind && r.lane == lane && r.pa ≤ a && a < r.pa + r.len &&
    match r.answer with
    | some (_, x) => x.lost.contains (a - r.pa)
    | none => false)

/-- Whether any remote byte among some places came poisoned. -/
def remoteLost (replies : List RemoteReply) (kind : ReqKind) (lane : Nat) (ps : List Place) : Bool :=
  ps.any (fun p => match p with
    | .phys a => remotePa a && replyLost replies kind lane a
    | .scratch _ => false
    | .enc _ => false)

/-- The access kind that a request of a kind is made for. -/
def ReqKind.access : ReqKind → AccKind
  | .read => .load
  | .write => .store
  | .atomic => .atomic

/-- The record of an access of a lane's word that had begun when the word issued before. -/
def Group.begunAt (G : Group) (kind : ReqKind) (lane va n : Nat) : Option Began :=
  G.began.find? (fun b => b.kind == kind && b.lane == lane && b.va == va && b.len == n)

/-- The path of a lane's access: one to global memory that had begun and waits for another device stays where it is, any
other is checked and translated (R191; DEDUCED, log 41). -/
def lanePath (s : State) (c : Ctx) (kind : ReqKind) (l a n : Nat) : Access :=
  match (c.grp.begunAt kind l a n).filter (fun b => b.bytes.isNone && !inWindow a) with
  | some b => .ok s b.places false
  | none => laneAccess s c a n kind.access

/-- An access that has begun remembered, in place of a record of the same access. -/
def State.begin (s : State) (c : Ctx) (b : Began) : State :=
  s.modGroup c.t c.g fun G => { G with
    began := G.began.filter (fun x => !(x.kind == b.kind && x.lane == b.lane && x.va == b.va && x.len == b.len)) ++ [b] }

/-- The state with what the walk of an access that has begun leaves (R329). -/
def State.walkAgain (s : State) (c : Ctx) (b : Began) : State :=
  if inWindow b.va then s else
  match placesFrom s (.core c.team.pcore) c.space b.kind.access 4 b.va b.len with
  | .ok u _ _ => u
  | .trap _ _ _ => s
  | .park _ _ _ => s

/-- The byte of a place for a lane: remote bytes come from its replies of a kind, others from a view of memory. -/
def State.byteBy (s : State) (c : Ctx) (kind : ReqKind) (lane : Nat) (view : Place → Byte) (p : Place) : Byte :=
  match p with
  | .phys a => if remotePa a then replyByte (s.grpOf c).remote kind lane a else view p
  | .scratch _ => view p
  | .enc _ => view p

/-- The byte of a place for a lane's read. -/
def State.readByte (s : State) (c : Ctx) (lane : Nat) (p : Place) : Byte := s.byteBy c .read lane (s.readPlace c) p

/-! ## What a lane's part of an instruction comes to -/

/-- The outcome of one lane's part of an instruction. -/
inductive LaneRes where
  /-- Done; its effects are in the state. -/
  | done (s : State)
  /-- It traps, with no effect (R10) but what its page walks left. -/
  | trap (s : State) (cause info : Nat)
  /-- It parks at an address for an access kind, with no effect (R10) but what its page walks left. -/
  | park (s : State) (va : Nat) (k : AccKind) (f : XFail)
  /-- It waits for replies from remote memory: the state remembers the access; the chunks not yet asked for, with the
  request each makes. -/
  | wait (s : State) (asks : List (Nat × Nat × RemoteReq))
  deriving DecidableEq, Repr

/-- What the lanes of an instruction came to. -/
structure Ran where
  s : State
  done : List Nat
  traps : List (Nat × Nat × Nat)
  parks : List (Nat × Nat × AccKind × XFail)
  asks : List (Nat × Nat × Nat × RemoteReq)
  waits : Bool
  deriving DecidableEq, Repr

/-- Nothing run yet. -/
def Ran.init (s : State) : Ran := ⟨s, [], [], [], [], false⟩

/-- One lane's outcome added. -/
def Ran.add (r : Ran) (l : Nat) : LaneRes → Ran
  | .done s => { r with s := s, done := r.done ++ [l] }
  | .trap s cause info => { r with s := s, traps := r.traps ++ [(l, cause, info)] }
  | .park s va k f => { r with s := s, parks := r.parks ++ [(l, va, k, f)] }
  | .wait s asks => { r with s := s, asks := r.asks ++ asks.map (fun a => (l, a)), waits := true }

/-- The lanes run one after another, in the order given, on the state the lanes before have left. -/
def runLanes (body : State → Nat → LaneRes) : List Nat → Ran → Ran
  | [], r => r
  | l :: ls, r => runLanes body ls (r.add l (body r.s l))

/-! ## Fragment names -/

/-- The group with a fresh fragment name taken (DESIGN CHOICE, log 5). -/
def Group.freshKey (G : Group) : Group × FragKey := ({ G with nextBase := G.nextBase + 1 }, ⟨G.nextBase, []⟩)

/-- Whether one trail is a beginning of another. -/
def isBeginning : List Bool → List Bool → Bool
  | [], _ => true
  | _ :: _, [] => false
  | a :: as, b :: bs => a == b && isBeginning as bs

/-- Whether two fragments are the same, or one is an ancestor of the other (DESIGN CHOICE, log 5). -/
def FragKey.related (a b : FragKey) : Bool :=
  a.base == b.base && (isBeginning a.trail b.trail || isBeginning b.trail a.trail)

/-- The fragments a lane belongs to: its own, and for each handler it is in the one it trapped from (R29, R352). -/
def Group.keysOf (G : Group) (l : Nat) : List FragKey :=
  let L := G.lane l
  L.frag :: (G.handlers.take L.level).map (fun h => h.keys.getD l L.frag)

/-- Lanes outside a set whose fragments are related to a name (R29). -/
def Group.relatedOutside (G : Group) (key : FragKey) (ls : List Nat) : List Nat :=
  G.liveLanes.filter (fun l => !(ls.contains l) && (G.keysOf l).any (fun k => k.related key))

/-- Whether a lane is parked. -/
def Lane.parked (L : Lane) : Bool :=
  match L.hold with
  | .parked _ => true
  | .parkedFree _ _ _ _ _ => true
  | _ => false

/-- Whether a lane is behind a place of a fragment in program order: it runs, and its fragment has not come to the
last decision of the other, or it is the same fragment at an earlier word (DEDUCED, log 16). -/
def Lane.behind (L : Lane) (key : FragKey) (pc : Nat) : Bool :=
  L.hold == .run &&
    ((isBeginning L.frag.trail key.trail && L.frag.trail.length < key.trail.length) ||
      (L.frag.trail == key.trail && L.pc.toNat < pc))

/-- Whether the lanes of a fragment have to wait at a hold point (R29): outside every handler, while a lane of its
ancestry is parked, in a handler, or behind. -/
def Group.mustHold (G : Group) (level : Nat) (key : FragKey) (ls : List Nat) (pc : Nat) : Bool :=
  level == 0 && (G.relatedOutside key ls).any (fun l =>
    let L := G.lane l
    L.level != 0 || L.parked || L.behind key pc)

/-! ## Ends of lanes and groups -/

/-- A lane ended (R212 step 1): it clears its meeting register; the masks are cleared with it. -/
def Lane.ended (L : Lane) : Lane :=
  { L with live := false, meet := 0, hold := .run, halt := false, stalled := false, arrive := false,
           q := Latches.invalid }

/-- The group with lanes ended and their bits taken from k0–k11 (R205, R212). A SIGNED bit that a lane has set stays as it
is (DESIGN CHOICE, log 71). -/
def Group.endLanes (G : Group) (ls : List Nat) : Group :=
  let keep := ~~~ laneMask ls
  let G := G.mapLanes ls (fun _ L => L.ended)
  { G with k := (List.range 12).foldl (fun k j => Store.set k j (Store.get k j &&& keep)) G.k,
           runMask := G.runMask &&& keep }

/-- Whether a ring takes a record now (R333). -/
def Ring.hasRoom (r : Ring) : Bool := r.en && (r.produce - r.consume).toNat < 2 ^ r.log.toNat

/-- Whether an error record is of class 0 (R376). -/
def correctedClass (r : BitVec 256) : Bool := r.extractLsb' 0 2 == 0#2

/-- CEDROP counted up, as far as it goes (R377). -/
def countDrop (n : Word) : Word := if n = 0xFFFFFFFF then n else n + 1

/-- An error record that comes to a partition's ring (R377): one of class 0 is dropped and counted when the ring is full
or disabled; any other waits in the device. -/
def Part.takeError (P : Part) (r : BitVec 256) : Part :=
  if correctedClass r && !P.error.hasRoom then { P with cedrop := countDrop P.cedrop }
  else { P with error := { P.error with waiting := P.error.waiting ++ [r] } }

/-- An error record for a partition, or for every partition when none is named (R377). -/
def State.pushError (s : State) (p : Option Nat) (r : BitVec 256) : State :=
  match p with
  | some i => s.modPart i (·.takeError r)
  | none => { s with parts := s.parts.map (fun e => (e.1, e.2.takeError r)) }

/-- An error record's fields (R377). -/
def errorRecord (stamp addr grid team group devnum source cause unit action cls : Nat) : BitVec 256 :=
  BitVec.ofNat 256
    (stamp % 2 ^ 64 * 2 ^ 192 + addr % 2 ^ 64 * 2 ^ 128 + grid % 2 ^ 32 * 2 ^ 96 + team % 2 ^ 32 * 2 ^ 64
      + group * 2 ^ 59 + devnum * 2 ^ 37 + source * 2 ^ 25 + cause * 2 ^ 17 + unit * 2 ^ 12
      + action * 2 ^ 8 + cls)

/-- %grid of a launch packet (R305). -/
def packetGrid (p : BitVec 1024) : Nat := (p.extractLsb' 128 32).toNat

/-- A group stops (R354): every lane ends, its stores are performed, the grid's record will carry STATUS 1,
and an error record is posted. -/
def State.stopGroup (s : State) (t g cause pc : Nat) : State :=
  let s := s.drainGroup t g
  match Tab.get? s.teams t with
  | none => s
  | some T =>
    let gridNo := match Tab.get? s.grids T.grid with
      | some gr => packetGrid gr.packet
      | none => 0
    let s := s.modGroup t g fun G =>
      { G.endLanes G.liveLanes with ended := true, stopped := true, handlers := [], trapLevel := 0, runMask := 0 }
    let s := s.modGrid T.grid fun gr => { gr with stopped := true }
    s.pushError (some T.part)
      (errorRecord s.time pc gridNo T.index g s.boot.devnum.toNat T.pcore cause 0 0 3)

/-! ## Taking a trap (R349) and returning from one (R352, R406) -/

/-- The handler address a group takes a trap to (R166): its own view, or another group's later write, which
it may see or not before the next BAR (DESIGN CHOICE, log 10). -/
def State.handlerFor (s : State) (t g : Nat) (T : Team) (G : Group) : Word64 :=
  if T.handler = G.handler then G.handler
  else if Config.handlerSeen s.steps t g then T.handler else G.handler

/-- The lowest live lane of a lane's fragment; an exited lane stands alone (R351). -/
def Group.fragLane (G : Group) (l : Nat) : Nat :=
  let L := G.lane l
  if !L.live then l else
  ((G.liveLanes.filter (fun m => (G.lane m).frag == L.frag && (G.lane m).level == L.level)).head?).getD l

/-- A number as bytes of a frame at an offset. -/
def frameBytes (off n v : Nat) : List (Nat × Byte) :=
  (toBytes n v).zipIdx.map (fun e => (off + e.2, e.1))

/-- The trap frame's 1,024 bytes, by offset (R351): the program counters given, the registers of the group
as they stand, the lanes entering, the level before, and the trap's cause, information and address. -/
def trapFrame (G : Group) (enter : List Nat) (level cause info pc : Nat) (ret : Nat → Nat) : List (Nat × Byte) :=
  let lanes := List.range 32
  let body :=
    lanes.flatMap (fun l => frameBytes (8 * l) 8 (if enter.contains l then ret l else (G.lane l).pc.toNat)) ++
    lanes.flatMap (fun l => frameBytes (0x100 + 4 * l) 4 (G.lane l).meet.toNat) ++
    (List.range 12).flatMap (fun j => frameBytes (0x180 + 4 * j) 4 (Store.get G.k j).toNat) ++
    frameBytes 0x1B0 4 (laneMask enter).toNat ++
    frameBytes 0x1B4 4 (laneMask G.liveLanes).toNat ++
    frameBytes 0x1B8 4 level ++ frameBytes 0x1BC 4 0 ++
    lanes.flatMap (fun l => frameBytes (0x1C0 + l) 1 (G.fragLane l)) ++
    frameBytes 0x1E0 4 cause ++ frameBytes 0x1E4 4 info ++ frameBytes 0x1E8 8 pc
  body ++ (List.range 528).map (fun i => (0x1F0 + i, 0))

/-- The group's frame pointer s58:s59. -/
def Group.framePtr (G : Group) : Nat := G.sPair 58

/-- Whether a frame at an address lies within the scratchpad (R68). -/
def frameFits (f limit : Nat) : Bool := windowBase ≤ f && f + 1024 ≤ windowBase + limit

/-- Lanes of a group enter the handler at an address, at the next level (R349), or the group stops (R353): at level 2,
with no handler, or when the frame does not fit. `ret` gives each entering lane's return point. -/
def State.enterHandler (s : State) (t g : Nat) (handler : Word64) (enter : List Nat) (cause info pc : Nat)
    (ret : Nat → Nat) : State :=
  match Tab.get? s.teams t with
  | none => s
  | some T =>
    match Tab.get? T.groups g with
    | none => s
    | some G =>
      let level := G.trapLevel.toNat
      let f := addOffset G.framePtr (-1024)
      if level ≥ 2 then s.stopGroup t g causeDoubleTrap pc
      else if handler = 0 ∨ !frameFits f T.limit then s.stopGroup t g cause pc
      else
        let bytes := (trapFrame G enter level cause info pc ret).map
          (fun e => (Place.scratch (f - windowBase + e.1), e.2))
        let keys := (List.range 32).map (fun l => (G.lane l).frag)
        let runs := (List.range 32).map (fun l =>
          (BitVec.ofNat 64 (ret l), if ret l = (G.lane l).pc.toNat then (G.lane l).inRun else none))
        s.modGroup t g fun G =>
          let (G, key) := ({ G with fifo := G.fifo ++ [{ bytes := bytes }] } : Group).freshKey
          let G := G.setSPair 58 f
          let G := G.mapLanes (List.range 32) (fun _ L => { L with meet := 0 })
          let G := G.mapLanes enter (fun _ L =>
            { L with pc := handler, frag := key, hold := .run, halt := false, stalled := false, arrive := true,
                     inRun := some 0, level := G.handlers.length + 1, q := Latches.invalid })
          { G with k := [], trapLevel := G.trapLevel + 1, trapCause := BitVec.ofNat 8 cause,
                   trapInfo := BitVec.ofNat 32 info, trapPc := BitVec.ofNat 64 pc,
                   runMask := G.runMask &&& ~~~ laneMask enter,
                   handlers := G.handlers ++ [⟨laneMask enter, BitVec.ofNat 64 f, keys, G.k, G.f, runs⟩] }

/-- Lanes of a group trap at a word that issues now (R349): to the handler as it stands (R166). -/
def State.enterTrap (s : State) (t g : Nat) (enter : List Nat) (cause info pc : Nat) (ret : Nat → Nat) : State :=
  match Tab.get? s.teams t with
  | none => s
  | some T =>
    match Tab.get? T.groups g with
    | none => s
    | some G => s.enterHandler t g (s.handlerFor t g T G) enter cause info pc ret

/-- A value of n bytes in the group's scratchpad, with its FIFO's forwarding (no checks: the frame was
checked). -/
def State.frameValue (_s : State) (T : Team) (G : Group) (off n : Nat) : Nat :=
  leValue ((List.range n).map (fun i =>
    match forwarded G.fifo (.scratch (off + i)) with
    | some b => b
    | none => Store.get T.scratch (off + i)))

/-- A lane's membership of a mask after a frame is read back (R352, R205): the frame's mask word and its meeting word
are the same bit of state; where a handler has edited one of them, the edit counts (DEDUCED, log 32). -/
def frameMember (entry mask meeting : Bool) : Bool := if mask = entry then meeting else mask

/-- The state of a group after its current handler instance ends (R352, R406): k0–k11 and the meeting
registers from the frame with the bits of ended lanes cleared, %traplevel from it, f0–f7 as they stood at entry (R224; the
frame has no place for them: DEDUCED, log 68), the trap registers of the level before, the frame pointer, and the lanes in `back` resumed at the saved program counters in the fragments recorded
(DEDUCED, log 32). At the last lane's EXIT a frame that lies outside the scratchpad reads as zeros, with no check (DESIGN CHOICE,
log 32). -/
def State.leaveHandler (s : State) (t g : Nat) (back : List Nat) : State :=
  match Tab.get? s.teams t with
  | none => s
  | some T =>
    match Tab.get? T.groups g with
    | none => s
    | some G =>
      match G.handlers.reverse with
      | [] => s
      | h :: hs =>
        let f := G.framePtr
        let off := f - windowBase
        let read := s.frameValue T G
        let member (l j : Nat) : Bool := (G.lane l).live &&
          frameMember ((Store.get h.masks j).getLsbD l) ((read (off + 0x180 + 4 * j) 4).testBit l)
            ((read (off + 0x100 + 4 * l) 4).testBit j)
        let k : Store 32 := (List.range 12).foldl
          (fun k j => Store.set k j (laneMask ((List.range 32).filter (fun l => member l j)))) []
        let meet (l : Nat) : BitVec 12 :=
          (List.range 12).foldl (fun m j => if member l j then m ||| BitVec.ofNat 12 (2 ^ j) else m) 0
        let level : BitVec 2 := BitVec.ofNat 2 (read (off + 0x1B8) 4)
        let below := match hs with
          | h1 :: _ => h1.frame.toNat - windowBase
          | [] => addOffset f 1024 - windowBase
        s.modGroup t g fun G =>
          let G := G.mapLanes (List.range 32) (fun l L => { L with meet := meet l })
          let G := G.mapLanes back (fun l L =>
            let rep := read (off + 0x1C0 + l) 1
            let pc : Word64 := BitVec.ofNat 64 (read (off + 8 * l) 8)
            let point := h.runs.getD l (0, none)
            { L with pc := pc, frag := h.keys.getD rep L.frag, hold := .run, halt := false, stalled := false,
                     arrive := false, inRun := if pc = point.1 then point.2 else none, level := hs.length,
                     q := Latches.invalid })
          let G := G.setSPair 58 (addOffset f 1024)
          let fs : Store 32 := (List.range 8).foldl (fun m j => Store.set m j (Store.get h.f j)) []
          { G with k := k, f := fs, handlers := hs.reverse, trapLevel := level, runMask := G.runMask &&& ~~~ laneMask back,
                   trapCause := if level = 1 then BitVec.ofNat 8 (read (below + 0x1E0) 4) else 0,
                   trapInfo := if level = 1 then BitVec.ofNat 32 (read (below + 0x1E4) 4) else 0,
                   trapPc := if level = 1 then BitVec.ofNat 64 (read (below + 0x1E8) 8) else 0 }

/-- Parks a lane (R10, R335): it joins or takes a token and loses its latches. -/
def State.parkLane (s : State) (c : Ctx) (l va : Nat) (k : AccKind) (f : XFail) : State :=
  let (s, tok) := raiseFault s c.space va k f c.team.pcore 0
  s.modLane c.t c.g l fun L =>
    { L with q := Latches.invalid, halt := false, stalled := false,
             hold := match tok with
               | some i => .parked i
               | none => .parkedFree va k.code f.cause f.level f.lod }

/-- Lanes that end their part of an instruction: the next word, and its place in its run (R21). -/
def Lane.advance (L : Lane) (pc : Nat) (inRun : Nat) : Lane :=
  { L with pc := BitVec.ofNat 64 pc, inRun := some inRun, halt := false, stalled := false }

/-- The group without the replies that some lanes had for the word they were at. -/
def Group.dropReplies (G : Group) (ls : List Nat) : Group :=
  { G with remote := G.remote.filter (fun x => !(ls.contains x.lane)),
           began := G.began.filter (fun x => !(ls.contains x.lane)) }

/-- The group without what some lanes had read for the word they were at; what their word has written in other devices
stays on record, so that it is not written again (R380). -/
def Group.dropReads (G : Group) (ls : List Nat) : Group :=
  { G with remote := G.remote.filter (fun x => !(ls.contains x.lane && x.kind == .read)),
           began := G.began.filter (fun x => !(ls.contains x.lane && x.kind == .read)) }

/-- A fragment that does not go on at its word now: it keeps its place, and its latches are lost when it
continues (R24). -/
def State.haltUnit (s : State) (c : Ctx) : State :=
  s.modGroup c.t c.g fun G =>
    { (G.dropReads c.lanes).mapLanes c.lanes (fun _ L => { L with halt := true, q := Latches.invalid }) with
      runMask := 0, uq := Latches.invalid }

/-- A fragment that waits at its word for a convergence register or an engine (SIGN, WAITB): it executes the word
afresh, with invalid latches, when it next issues (R206). -/
def State.waitUnit (s : State) (c : Ctx) : State :=
  s.modGroup c.t c.g fun G =>
    { (G.dropReplies c.lanes).mapLanes c.lanes (fun _ L => { L with stalled := true, q := Latches.invalid }) with
      runMask := 0, uq := Latches.invalid }

/-- The lanes of the first trapping set: those with the cause and information of the lowest trapping lane
(log 9). -/
def firstTraps (traps : List (Nat × Nat × Nat)) : Option (Nat × Nat × List Nat) :=
  match traps with
  | [] => none
  | (_, cause, info) :: _ =>
    some (cause, info, (traps.filter (fun x => x.2.1 == cause && x.2.2 == info)).map (·.1))

/-- A byte put into a list of bytes in rising order of address, in place of one that is there. -/
def putByte (a : Nat) (b : Byte) : List (Nat × Byte) → List (Nat × Byte)
  | [] => [(a, b)]
  | (a', b') :: rest => if a < a' then (a, b) :: (a', b') :: rest
    else if a = a' then (a, b) :: rest else (a', b') :: putByte a b rest

/-- The bytes that one instruction's lanes store to other devices, in rising order of address: of two lanes' bytes
for one address the higher lane's (R93). -/
def storedRemote (asks : List (Nat × Nat × Nat × RemoteReq)) : List (Place × Byte) :=
  (asks.foldl (fun m a => match a.2.2.2 with
    | .write _ bs => bs.zipIdx.foldl (fun m e => putByte (a.2.1 + e.2) e.1 m) m
    | _ => m) []).map (fun e => (.phys e.1, e.2))

/-- The requests that some asks make: one for each read and atomic, and one for each run of stored bytes of an
instruction; each with the asks that it serves (DEDUCED, log 41). -/
def requestsOf (asks : List (Nat × Nat × Nat × RemoteReq)) : List (Nat × RemoteReq × ReqKind × List (Nat × Nat × Nat)) :=
  let runs := (remoteRuns (storedRemote asks)).map (fun r =>
    (r.1, RemoteReq.write (bitsOf r.1 0 33) r.2, ReqKind.write,
      (asks.filter (fun a => (a.2.2.2 matches .write _ _) && r.1 ≤ a.2.1 && a.2.1 < r.1 + r.2.length)).map
        (fun a => (a.1, a.2.1, a.2.2.1))))
  runs ++ asks.filterMap (fun a => match a.2.2.2 with
    | .write _ _ => none
    | .read o n => some (a.2.1, .read o n, .read, [(a.1, a.2.1, a.2.2.1)])
    | .atomic o w f n v u => some (a.2.1, .atomic o w f n v u, .atomic, [(a.1, a.2.1, a.2.2.1)]))

/-- Requests of lanes put on the flows of their core (R380), and remembered by the group. -/
def State.askRemote (s : State) (c : Ctx) (asks : List (Nat × Nat × Nat × RemoteReq)) : State :=
  (requestsOf asks).foldl (fun s a =>
    let dest := bitsOf a.1 33 22
    match s.sendRequest c.team.pcore dest a.2.1 with
    | (s, none) => s
    | (s, some seq) =>
      s.modGroup c.t c.g fun G => { G with
        remote := G.remote ++ a.2.2.2.map (fun w => ⟨a.2.2.1, w.1, w.2.1, w.2.2, c.team.pcore, dest, seq, none⟩) }) s

/-- A fragment's instruction waits for other devices: the group's earlier stores are performed, the requests leave, and
the quarter stays with the run (R22; DEDUCED, log 41). The accesses that have begun are remembered, and their walks have
set the A and D bits (R329). -/
def State.awaitRemote (s : State) (c : Ctx) (began : List Began) (asks : List (Nat × Nat × Nat × RemoteReq)) : State :=
  let s := (began.filter (fun b => !c.grp.began.contains b)).foldl (fun s b => s.walkAgain c b) s
  ((s.drainGroup c.t c.g).askRemote c asks).modGroup c.t c.g fun G =>
    { G with runMask := laneMask c.lanes, began := began }

/-- The return point of a trap that is not a report of status: the trapping word, or the next word for TRAP
and BKPT (R267). -/
def returnPoint (cause pc : Nat) : Nat := if cause = causeTrap ∨ cause = causeBkpt then pc + 4 else pc

/-- Lanes that trap at a word they have done with (TRAP, BKPT) stand at the next one, in its place in the run (R21). -/
def State.passWord (s : State) (c : Ctx) (ls : List Nat) (ends : Bool) (cause : Nat) : State :=
  if returnPoint cause c.pc = c.pc then s else
  s.modGroup c.t c.g (·.mapLanes ls (fun _ L => L.advance (c.pc + 4) (if ends then 0 else c.grp.runPos + 1)))

/-- Lanes marked as having arrived at their next word by a transfer (R137). -/
def State.markArrive (s : State) (c : Ctx) (ls : List Nat) : State :=
  s.modGroup c.t c.g fun G => G.mapLanes ls (fun _ L => { L with arrive := true })

/-- The end of an instruction (R10, R12, R21): lanes that are done go to their next word, parking lanes park,
the first trapping set enters the handler, and other trapping lanes stay at the word. While a handler runs,
a fragment outside it holds instead of trapping, with no effect, except that a lane that would park parks
(R350). An instruction that waits for remote bytes has only sent its requests (DEDUCED, log 59). -/
def conclude (s : State) (c : Ctx) (ends : Bool) (r : Ran) (target : Nat → Nat) : State :=
  if r.traps ≠ [] ∧ c.level < c.grp.handlers.length then
    r.parks.foldl (fun s p => s.parkLane c p.1 p.2.1 p.2.2.1 p.2.2.2) (s.haltUnit c)
  else if r.waits then s.awaitRemote c (r.s.grpOf c).began r.asks
  else
    let s := r.s.modGroup c.t c.g fun G =>
      let G := G.mapLanes r.done (fun l L => L.advance (target l) (if ends then 0 else G.runPos + 1))
      let G := G.mapLanes (r.traps.map (·.1)) (fun _ L => { L with q := Latches.invalid })
      { G.dropReplies c.lanes with runMask := if ends then 0 else laneMask r.done, runPos := G.runPos + 1 }
    let s := r.parks.foldl (fun s p => s.parkLane c p.1 p.2.1 p.2.2.1 p.2.2.2) s
    match firstTraps r.traps with
    | none => s
    | some (cause, info, ls) =>
      (s.passWord c ls ends cause).enterTrap c.t c.g ls cause info c.pc (fun _ => returnPoint cause c.pc)

/-- Every active lane traps with one cause, with no effect of the word, which ends its run or not. -/
def trapAll (s : State) (c : Ctx) (cause info : Nat) (ends : Bool := true) : State :=
  conclude s c ends { Ran.init s with traps := c.lanes.map (fun l => (l, cause, info)) } (fun _ => c.pc)

/-- The outcome of a step. -/
abbrev Out := Host.Outcome State Fault Refusal

end Sys2Proof.Machine
end

