-- ==== Sys2Proof/Machine/Rendezvous.lean ====
section
/-!
DEFINITION. What the spec has the device re-examine when lanes arrive, leave or end: WAITs, group arrival at
BAR and BARN, convergence registers, handler instances and ends of groups (R206 to R221, R355, R406).
-/
namespace Sys2Proof.Machine

/-- The barrier number of BAR (the team barrier). -/
def teamBarrier : Nat := 16

/-- A barrier record of a team. -/
def Team.barrier (T : Team) (b : Nat) : Barrier := (Tab.get? T.barriers b).getD ⟨0, 0, 0⟩

/-- A convergence register of a team. -/
def Team.convReg (T : Team) (n : Nat) : Conv := (Tab.get? T.conv n).getD ⟨0, 0, false, 0, 0, false⟩

/-- Groups of a team that have not ended. -/
def Team.openGroups (T : Team) : List Nat := (T.groups.filter (fun e => !e.2.ended)).map (·.1)

/-- The number of one bits. -/
def popcount (m : BitVec 32) : Nat := ((List.range 32).filter (fun i => m.getLsbD i)).length

/-! ## WAIT (R208) -/

/-- Lanes held at a WAIT on kj at the group's current trap level. -/
def Group.waiting (G : Group) (j : Nat) : List Nat :=
  G.lanesWhere (fun L => L.live && L.hold == .wait j && L.level == G.handlers.length)

/-- The lanes that count for a WAIT (R350): inside a handler the handler's, else all. -/
def Group.waitLanes (G : Group) : List Nat := G.lanesWhere (fun L => L.live && G.handlers.length ≤ L.level)

/-- Whether every member of kj that is not held at a WAIT on it has ceased to be one (R208). -/
def Group.waitReady (G : Group) (j : Nat) : Bool :=
  let h := G.waiting j
  h != [] && (Store.get G.k j &&& laneMask G.waitLanes &&& ~~~ laneMask h) == 0

/-- The lanes released from a WAIT on kj at one word, made one fragment at the next word (R208, R25). -/
def Group.releaseAt (G : Group) (ls : List Nat) (pc : Nat) : Group :=
  let (G, key) := G.freshKey
  G.mapLanes ls (fun _ L =>
    { L with hold := .run, frag := key, pc := BitVec.ofNat 64 (pc + 4), halt := false, stalled := false,
             inRun := some 0, q := Latches.invalid })

/-- The distinct program counters of some lanes, in ascending lane order. -/
def Group.pcsOf (G : Group) (ls : List Nat) : List Nat :=
  (ls.map (fun l => (G.lane l).pc.toNat)).eraseDups

/-- The release of a WAIT on kj (R208). -/
def Group.releaseWait (G : Group) (j : Nat) : Group :=
  let h := G.waiting j
  let pcs := G.pcsOf h
  let G' := { G with k := Store.set G.k j 0 }
  let G' := G'.mapLanes (List.range 32) (fun _ L => { L with meet := L.meet &&& ~~~ BitVec.ofNat 12 (2 ^ j) })
  pcs.foldl (fun g pc => g.releaseAt (h.filter (fun l => (G.lane l).pc.toNat == pc)) pc) G'

/-- Every WAIT of a group that may be released, released (R207, R208, R212). -/
def Group.settleWaits (G : Group) : Group :=
  (List.range 12).foldl (fun g j => if g.waitReady j then g.releaseWait j else g) G

/-- The WAITs of a group examined (R208). A release orders the accesses before it: the group's stores are performed,
and its later loads read afresh (R101). -/
def State.settleWaits (s : State) (t g : Nat) : State :=
  match Tab.get? s.teams t with
  | none => s
  | some T =>
    match Tab.get? T.groups g with
    | none => s
    | some G =>
      if (List.range 12).any G.waitReady then
        (s.drainGroup t g).modGroup t g fun G => G.clearEarly.settleWaits
      else s

/-! ## Handler instances and group ends (R39, R406) -/

/-- Ends the handler instances none of whose lanes is live, innermost first (R406). -/
def State.settleHandlers (s : State) (t g : Nat) : Nat → State
  | 0 => s
  | fuel + 1 =>
    match Tab.get? s.teams t with
    | none => s
    | some T =>
      match Tab.get? T.groups g with
      | none => s
      | some G =>
        match G.handlers.reverse with
        | [] => s
        | h :: _ =>
          if (maskLanes h.enter).any (fun l => (G.lane l).live && G.handlers.length ≤ (G.lane l).level) then s
          else State.settleHandlers (s.leaveHandler t g []) t g fuel

/-- Marks a group with no live lane as ended (R39). -/
def Group.settleEnd (G : Group) : Group :=
  if G.liveLanes = [] then { G with ended := true, runMask := 0 } else G

/-! ## STATUS at a barrier (R355) -/

/-- The lanes of a set that take a STATUS trap: none inside a handler or without one (R355). -/
def Group.statusLanes (G : Group) (handler : Word64) (ls : List Nat) : List Nat :=
  if G.trapLevel ≠ 0 ∨ handler = 0 then [] else ls.filter (fun l => (G.lane l).live && (G.lane l).unreported)

/-- The OR of the sticky status of some lanes. -/
def Group.statusOf (G : Group) (ls : List Nat) : Flags := ls.foldl (fun f l => f ||| (G.lane l).status) 0

/-- Lanes take a STATUS trap together to a handler (R355): each sets RPT, and %trapinfo is the OR of their status. -/
def State.statusTrap (s : State) (t g : Nat) (handler : Word64) (ls : List Nat) (pc : Nat) (ret : Nat) : State :=
  if ls = [] then s else
  let s := s.modGroup t g (·.mapLanes ls (fun _ L => L.report))
  match Tab.get? s.teams t with
  | none => s
  | some T =>
    match Tab.get? T.groups g with
    | none => s
    | some G => s.enterHandler t g handler ls causeStatus (G.statusOf ls).toNat pc (fun _ => ret)

/-! ## BAR and BARN (R214 to R218) -/

/-- How a group stands with its barriers (R214). -/
inductive Arrival where
  /-- Not every live lane is held, or none is at a barrier. -/
  | open
  /-- Every live lane is held at one BAR or BARN word: barrier and count. -/
  | arrived (b count pc : Nat)
  /-- It can never arrive: the lanes held at barriers, and the subcode of BAR_DIVERGED. -/
  | diverged (ls : List Nat) (sub : Nat)
  deriving DecidableEq, Repr

/-- Whether a lane is held at BAR or BARN. -/
def Lane.atBarrier (L : Lane) : Bool :=
  match L.hold with
  | .barrier _ _ => true
  | _ => false

/-- Whether a lane is held in a WAIT. -/
def Lane.atWait (L : Lane) : Bool :=
  match L.hold with
  | .wait _ => true
  | _ => false

/-- Group arrival (R214). -/
def Group.arrival (G : Group) : Arrival :=
  let live := G.liveLanes
  let bars := live.filter (fun l => (G.lane l).atBarrier)
  let waits := live.filter (fun l => (G.lane l).atWait)
  match bars with
  | [] => .open
  | l :: _ =>
    if bars.length + waits.length < live.length then .open
    else if waits ≠ [] then .diverged bars 1
    else if 1 < (G.pcsOf bars).length then .diverged bars 2
    else match (G.lane l).hold with
      | .barrier b count => .arrived b count (G.lane l).pc.toNat
      | _ => .open

/-- %trapinfo of BAR_DIVERGED (R219). -/
def divergedInfo (G : Group) (ls : List Nat) (sub : Nat) : Nat :=
  match ls with
  | [] => sub
  | l :: _ => match (G.lane l).hold with
    | .barrier b _ => sub + (if b = teamBarrier then 15 * 16 + 256 else b * 16)
    | _ => sub

/-- Held lanes trap at their own words (R214, R217, R218): the first lane's word is %trappc, and the handler is the one
that stood when the group's barrier word issued (R166). -/
def State.trapHeld (s : State) (t g : Nat) (ls : List Nat) (cause info : Nat) : State :=
  match Tab.get? s.teams t with
  | none => s
  | some T =>
    match Tab.get? T.groups g with
    | none => s
    | some G =>
      match ls with
      | [] => s
      | l :: _ => s.enterHandler t g G.heldHandler ls cause info (G.lane l).pc.toNat (fun m => (G.lane m).pc.toNat)

/-- One group released from a barrier (R215): all live lanes form one fragment at the next word, its later loads read
afresh (R100), and at BAR it takes the team's %handler (R166); then unreported flags trap, to the handler that stood
when its barrier word issued (R355). -/
def State.releaseGroup (s : State) (t b g : Nat) : State :=
  match Tab.get? s.teams t with
  | none => s
  | some T =>
    match Tab.get? T.groups g with
    | none => s
    | some G =>
      match G.liveLanes with
      | [] => s
      | l :: ls =>
        let pc := (G.lane l).pc.toNat
        let s := s.modGroup t g fun G =>
          let G := G.clearEarly.releaseAt (l :: ls) pc
          if b = teamBarrier then { G with handler := T.handler } else G
        s.statusTrap t g G.heldHandler (G.statusLanes G.heldHandler (l :: ls)) pc (pc + 4)

/-- The groups of a set released together from a barrier (R215): their stores are performed first (R100). -/
def State.releaseGroups (s : State) (t b : Nat) (gs : List Nat) : State :=
  gs.foldl (fun s g => s.releaseGroup t b g) (gs.foldl (fun s g => s.drainGroup t g) s)

/-- The team with a barrier record put. -/
def Team.putBarrier (T : Team) (b : Nat) (r : Barrier) : Team := { T with barriers := Tab.put T.barriers b r }

/-- The groups whose ARRIVED bit is set. -/
def arrivedGroups (r : Barrier) : List Nat := maskLanes r.arrived

/-- One group's arrival counted at its barrier (R215, R217), or its trap. -/
def State.countArrival (s : State) (t g b count : Nat) (ls : List Nat) : State :=
  match Tab.get? s.teams t with
  | none => s
  | some T =>
    let r := T.barrier b
    if r.arrived.getLsbD g then s
    else if b = teamBarrier then
      s.modTeam t fun T => T.putBarrier b { r with arrived := r.arrived ||| BitVec.ofNat 32 (2 ^ g) }
    else if count > T.ngroup then
      s.trapHeld t g ls causeBarCount (2 + b * 16)
    else if r.count ≠ 0 ∧ r.count.toNat ≠ count then
      s.trapHeld t g ls causeBarCount (1 + b * 16 + r.count.toNat * 2 ^ 16)
    else
      s.modTeam t fun T => T.putBarrier b
        { r with count := BitVec.ofNat 6 count, arrived := r.arrived ||| BitVec.ofNat 32 (2 ^ g) }

/-- A barrier whose generation completes, or can never complete, acted upon (R215, R217, R218). -/
def State.settleBarrier (s : State) (t b : Nat) : State :=
  match Tab.get? s.teams t with
  | none => s
  | some T =>
    let r := T.barrier b
    let arrived := arrivedGroups r
    let coming := T.openGroups.filter (fun g => !r.arrived.getLsbD g)
    let next : Barrier := ⟨r.gen + 1, 0, 0⟩
    if b = teamBarrier then
      if arrived ≠ [] ∧ coming = [] then
        (s.modTeam t fun T => T.putBarrier b next).releaseGroups t b arrived
      else s
    else if r.count = 0 then s
    else if arrived.length = r.count.toNat then
      (s.modTeam t fun T => T.putBarrier b next).releaseGroups t b arrived
    else if arrived.length + coming.length < r.count.toNat then
      let s := s.modTeam t fun T => T.putBarrier b ⟨r.gen, 0, 0⟩
      arrived.foldl (fun s g =>
        match Tab.get? s.teams t with
        | none => s
        | some T =>
          match Tab.get? T.groups g with
          | none => s
          | some G => s.trapHeld t g (G.lanesWhere (fun L => L.live && L.hold == .barrier b r.count.toNat))
              causeBarCount (3 + b * 16 + r.count.toNat * 2 ^ 16)) s
    else s

/-! ## Convergence registers (R221) -/

/-- Whether every live lane of a convergence register's set has signed (R221): a group with no live lane
counts as signed. -/
def Team.convComplete (T : Team) (r : Conv) : Bool :=
  (List.range 4).all (fun j => !r.mask.getLsbD j ||
    match Tab.get? T.groups (4 * r.quartet.toNat + j) with
    | none => true
    | some G => G.liveLanes.all (fun l => r.signed.getLsbD (32 * j + l)))

/-- Convergence registers re-examined (R212, R221). -/
def Team.settleConv (T : Team) : Team :=
  { T with conv := T.conv.map (fun e =>
      (e.1, if e.2.fixed && !e.2.complete && T.convComplete e.2 then { e.2 with complete := true } else e.2)) }

/-! ## Everything re-examined -/

/-- One pass over the team's groups, barriers and convergence registers. Lanes outside a running handler do not
trap (R350); they are examined again when it ends. -/
def State.settleOnce (s : State) (t : Nat) : State :=
  match Tab.get? s.teams t with
  | none => s
  | some T =>
    let gs := T.groups.map (·.1)
    let s := gs.foldl (fun s g =>
      let s := (s.settleHandlers t g 3).settleWaits t g
      let s := s.modGroup t g Group.settleEnd
      match Tab.get? s.teams t with
      | none => s
      | some T =>
        match Tab.get? T.groups g with
        | none => s
        | some G =>
          match G.arrival with
          | .open => s
          | .arrived b count _ => s.countArrival t g b count G.liveLanes
          | .diverged ls sub =>
            if G.handlers = [] then s.trapHeld t g ls causeBarDiverged (divergedInfo G ls sub) else s) s
    let s := (List.range 17).foldl (fun s b => s.settleBarrier t b) s
    s.modTeam t Team.settleConv

/-- What a pass acts on and changes in a group: its end, its handlers, its masks, and which lanes live and hold. -/
structure GroupPulse where
  ended : Bool
  level : Nat
  k : Store 32
  lanes : List (Bool × Hold)
  deriving DecidableEq, Repr

/-- The pulse of a group. -/
def Group.pulse (G : Group) : GroupPulse :=
  ⟨G.ended, G.handlers.length, G.k, G.lanes.map (fun e => (e.2.live, e.2.hold))⟩

/-- What a pass acts on and changes in a team: its groups and its barriers. -/
structure TeamPulse where
  groups : List GroupPulse
  barriers : Tab Barrier
  deriving DecidableEq, Repr

/-- The pulse of a team. -/
def Team.pulse (T : Team) : TeamPulse := ⟨T.groups.map (fun G => G.2.pulse), T.barriers⟩

/-- Passes until one changes nothing: an ended handler can free a WAIT, and a released or trapped group can complete
or spoil a barrier. -/
def settlePasses (t : Nat) : Nat → State → State
  | 0, s => s
  | fuel + 1, s =>
    let u := s.settleOnce t
    if (Tab.get? u.teams t).map Team.pulse = (Tab.get? s.teams t).map Team.pulse then u else settlePasses t fuel u

/-- The team re-examined after lanes arrived, left or ended (R212). The barriers and groups that one event can act on
one after another are far fewer than the passes allowed. -/
def State.settle (s : State) (t : Nat) : State := settlePasses t 64 s

end Sys2Proof.Machine
end

