-- ==== Sys2Proof/Machine/Issue.lean ====
section
/-!
DEFINITION. How a word issues (06_formats_and_opcode_map.md R149; 01_execution_model.md R21 to R29;
24_traps_and_preemption.md R350): the checks in their order, the words at which a fragment holds, and the
three shapes of a word: one that works on each lane's registers alone, one that acts lane by lane, and one
that acts once for the fragment.
-/
namespace Sys2Proof.Machine

/-- The lane words at which a fragment waits for lanes left behind (R29); every uniform word is one too. -/
def laneHold : Instr → Bool
  | .shfl _ _ _ _ | .shflup _ _ _ _ | .shfldn _ _ _ _ | .shflx _ _ _ _ | .scan _ _ _ _ | .red _ _ _ _
  | .ballot _ _ _ | .voteAny _ _ _ | .voteAll _ _ _ | .kread _ _ _ | .wait _ | .bar | .barn _ _
  | .sign _ _ => true
  | _ => false

/-- The hold points of R29. -/
def holdPoint (i : Instr) : Bool := i.kind == .uniform || laneHold i

/-- The words at which lanes outside the running handler hold (R350). -/
def heldOutside : Instr → Bool
  | .join _ _ | .leave _ _ | .wait _ | .kset _ _ _ | .kread _ _ _ | .exit _ => true
  | _ => false

/-- The words that trap ILLEGAL inside a handler (R350). -/
def barredInside : Instr → Bool
  | .bar | .barn _ _ | .sign _ _ | .mma _ _ _ _ _ _ _ _ | .mmaz _ _ _ _ _ _ _ _ => true
  | _ => false

/-- The words whose decoding is checked before they hold (R170 steps 1 and 2; DEDUCED, log 22). -/
def decodesFirst : Instr → Bool
  | .launch _ _ _ => true
  | _ => false

/-- The first latch that a lane word reads and that is invalid for a lane. -/
def Latches.lost (q : Latches) (ns : List (Fin 4)) : Option (Fin 4) := ns.find? (fun n => (q.get n).isNone)

/-- What the checks before a word's effect come to. -/
inductive Verdict where
  | go
  | hold
  | trap (cause info : Nat)
  deriving DecidableEq, Repr

/-- The step 1 check of R149 for a word: its fields, its own condition on the machine, and R350. -/
def Ctx.allows (c : Ctx) (i : Instr) (own : Bool) : Bool :=
  i.legal && own && !(barredInside i && 0 < c.level)

/-- The checks of a word for the fragment that issues it, in order: the holds of R350 and R29, then the three
steps of R149, the last of them here for uniform words only (a lane word makes it lane by lane). -/
def Ctx.verdict (c : Ctx) (i : Instr) (own : Bool) : Verdict :=
  if heldOutside i && c.level < c.grp.handlers.length then .hold
  else if decodesFirst i && !c.allows i own then .trap causeIllegal 0
  else if holdPoint i && c.grp.mustHold c.level c.key c.lanes c.pc then .hold
  else if !c.allows i own then .trap causeIllegal 0
  else match i.regRange c.team.regs c.team.ztiles with
    | some r => .trap causeRegRange r
    | none =>
      match if i.kind == .uniform then c.grp.uq.lost i.latches else none with
      | some n => .trap causeLatchLost n.val
      | none => .go

/-- An instruction's end, with the team re-examined when lanes trapped (R212, R349). -/
def finish (s : State) (c : Ctx) (ends : Bool) (r : Ran) (target : Nat → Nat) : State :=
  let s' := conclude s c ends r target
  if r.traps = [] then s' else s'.settle c.t

/-- Every active lane traps with no effect of the word, and the team is re-examined. -/
def trapWord (s : State) (c : Ctx) (cause info : Nat) (ends : Bool := true) : State :=
  (trapAll s c cause info ends).settle c.t

/-- A word issued by the fragment that holds the issue slot: `own` is the word's own ILLEGAL condition on
the machine, `body` its effect once the checks have passed. -/
def word (i : Instr) (own : Ctx → Bool) (body : Ctx → State) (s : State) : Out :=
  match s.issuer with
  | none => .fault .noIssuer
  | some c =>
    match c.verdict i (own c) with
    | .go => .next (body c)
    | .hold => .next (s.haltUnit c)
    | .trap cause info => .next (trapWord s c cause info)

/-- A lane's part of a lane word: the latch check of R149, then its effect. -/
def lanePart (i : Instr) (c : Ctx) (f : State → Nat → LaneRes) (s : State) (l : Nat) : LaneRes :=
  match ((s.grpOf c).lane l).q.lost i.latches with
  | some n => .trap s causeLatchLost n.val
  | none => f s l

/-- A lane word that acts lane by lane, in ascending order. -/
def laneWord (i : Instr) (e : Bool) (f : Ctx → State → Nat → LaneRes) (s : State) : Out :=
  word i (fun _ => true) (fun c =>
    finish s c e (runLanes (lanePart i c (f c)) c.lanes (Ran.init s)) (fun _ => c.pc + 4)) s

/-- The value of an operand in a lane of the group (V(c, i) of R172). -/
def Ctx.laneValue (c : Ctx) (x : Opd) (l : Nat) : Word := c.grp.laneVal (c.grp.lane l) x

/-- The active lanes whose latches a lane word can read. -/
def Ctx.sound (c : Ctx) (i : Instr) : List Nat :=
  c.lanes.filter (fun l => ((c.grp.lane l).q.lost i.latches).isNone)

/-- The active lanes that trap LATCH_LOST at a lane word, each with its latch (R24, R267). -/
def Ctx.lostLanes (c : Ctx) (i : Instr) : List (Nat × Nat × Nat) :=
  c.lanes.filterMap (fun l => ((c.grp.lane l).q.lost i.latches).map (fun n => (l, causeLatchLost, n.val)))

/-- A lane word whose effect on a lane is a function of the group and that lane. -/
def aluWord (i : Instr) (e : Bool) (f : Ctx → Nat → Lane → Lane) (s : State) : Out :=
  word i (fun _ => true) (fun c =>
    finish s c e
      { Ran.init (s.modGroup c.t c.g fun G => G.mapLanes (c.sound i) (f c)) with
        done := c.sound i, traps := c.lostLanes i } (fun _ => c.pc + 4)) s

/-- The outcome of a uniform word, for every active lane of the fragment alike (R152). -/
def Ran.all (c : Ctx) : LaneRes → Ran
  | .done s' => { Ran.init s' with done := c.lanes }
  | .trap s' cause info => { Ran.init s' with traps := c.lanes.map (fun l => (l, cause, info)) }
  | .park s' va k f => { Ran.init s' with parks := c.lanes.map (fun l => (l, va, k, f)) }
  | .wait s' asks => { Ran.init s' with asks := asks.map (fun a => (c.lanes.headD 0, a)), waits := true }

/-- A uniform word that goes on to the next word. -/
def uniWord (i : Instr) (e : Bool) (own : Ctx → Bool) (f : Ctx → LaneRes) (s : State) : Out :=
  word i own (fun c => finish s c e (Ran.all c (f c)) (fun _ => c.pc + 4)) s

/-- The uniform latches moved down with a new q1 (R143). -/
def Group.latchU (G : Group) (r : Option Word) : Group := { G with uq := G.uq.shift r }

/-- A uniform word whose effect is a function of the group. -/
def uniAlu (i : Instr) (e : Bool) (f : Ctx → Group → Group) (s : State) : Out :=
  uniWord i e (fun _ => true) (fun c => .done (s.modGroup c.t c.g (f c))) s

/-- A lane's result in its destination and in q1 (R143, R155). -/
def Lane.result (L : Lane) (d : Opd) (r : Word) : Lane := (L.writeOut d r).latch (some r)

/-- A lane's result with the flags it raises (R50). -/
def Lane.resultF (L : Lane) (d : Opd) (r : Word) (f : Flags) : Lane := (L.result d r).raise f

/-- A lane's block of results, lowest register first; the latch takes the lowest (R143). -/
def Lane.results (L : Lane) (d : Opd) (rs : List Word) : Lane := (L.setVs d.num rs).latch rs.head?

/-- A uniform result in its destination and in q1 (R155). -/
def Group.result (G : Group) (d : Opd) (r : Word) : Group := (G.writeOut d r).latchU (some r)

/-- A block of uniform results, lowest register first; the latch takes the lowest (R143). -/
def Group.results (G : Group) (d : Opd) (rs : List Word) : Group :=
  ({ G with s := Store.setRange G.s d.num rs } : Group).latchU rs.head?

/-! ## Fetching a word (R21, R24, R134, R135, R137) -/

/-- Whether an address can hold a word: a multiple of 4 and global (R66, R134). -/
def codeAddress (a : Nat) : Bool := a % 4 == 0 && globalAddr a

/-- What fetching a word comes to. -/
inductive Fetched where
  | word (s : State) (w : BitVec 32)
  | park (f : XFail)
  | wait (s : State) (chunks : List (Nat × Nat))
  deriving DecidableEq, Repr

/-- Fetches the word at an address for the issuing fragment. While its code is being rewritten a grid finds the old word
or the new one (R135); that it finds what storage holds at the fetch, and nothing of a store that is not performed, is a
DESIGN CHOICE (log 69). Bytes of remote memory are asked for in the name of the lowest lane (R380). -/
def fetchAt (s : State) (c : Ctx) (va : Nat) : Fetched :=
  match translate s (.core c.team.pcore) c.space va .fetch with
  | .fail f => .park f
  | .ok s pa _ mixed =>
    let ps := (List.range 4).map (fun i => if mixed then Place.enc (pa + i) else Place.phys (pa + i))
    let lane := c.lanes.headD 0
    if remotePa pa then
      match remoteState (s.grpOf c).remote .read lane ps with
      | .ask chunks => .wait s chunks
      | .waiting => .wait s []
      | .failed _ => .park ⟨6, 0, false⟩
      | .ready => .word s (BitVec.ofNat 32 (leValue (ps.map (s.readByte c lane))))
    else .word s (BitVec.ofNat 32 (leValue (ps.map (s.stored c.team))))

/-- How many words of its run precede a word (R21), with the state that the reads leave; or what keeps it from being found
out: bytes that other devices have, or a page that does not translate. -/
inductive Place24 where
  | at (s : State) (n : Nat)
  | ask (s : State) (chunks : List (Nat × Nat))
  | park (va : Nat) (f : XFail)
  deriving DecidableEq, Repr

/-- How many words of its run precede a word whose place in its run nothing records, counted back in memory to the
previous E bit, 24 at most: the words are fetched as a word before a target is (DEDUCED, log 23). -/
def wordsBefore (s : State) (c : Ctx) : Nat → Nat → Nat → Place24
  | 0, _, n => .at s n
  | fuel + 1, a, n =>
    match fetchAt s c (addOffset a (-4)) with
    | .word s w => if w.getLsbD 30 then .at s n else wordsBefore s c fuel (addOffset a (-4)) (n + 1)
    | .wait s chunks => .ask s chunks
    | .park f => .park (addOffset a (-4)) f

/-- The place of the issuing fragment's word in its run (R21): as recorded for its lanes, else counted in memory. -/
def Ctx.placeInRun (c : Ctx) (s : State) : Place24 :=
  match c.lanes.findSome? (fun l => (c.grp.lane l).inRun) with
  | some n => .at s n
  | none => wordsBefore s c 24 c.pc 0

/-- The unresolved lane branch of a group resolved (R294): each active lane's outcome is recorded. The branch
has acted on its lanes already, and the model issues no speculative run, so there is nothing to discard or to
replay (R2, R35, R36; DESIGN CHOICE, log 7). -/
def Group.resolve (G : Group) : Group :=
  match G.pending with
  | none => G
  | some p =>
    let old := Store.get G.history p.addr.toNat
    { G with pending := none, history := Store.set G.history p.addr.toNat ((old &&& ~~~ p.active) ||| p.taken) }

/-- The group as the fragment's word issues: its place in the run, and latches invalid for lanes that are not
going on with the group's run, and for every lane of a fragment that halted at this word (R24). -/
def Group.startWord (G : Group) (ls : List Nat) (pos : Nat) (w : BitVec 32) : Group :=
  let fresh := ls.any (fun l => !G.runMask.getLsbD l || (G.lane l).halt)
  let out := ls.filter (fun l => !G.runMask.getLsbD l || ls.any (fun m => (G.lane m).halt))
  { (G.mapLanes out (fun _ L => { L with q := Latches.invalid })).mapLanes ls (fun _ L =>
      { L with arrive := false, halt := false, stalled := false, inRun := some pos }) with
    runPos := pos, uq := if fresh then Latches.invalid else G.uq, word := w, pieces := G.ahead, ahead := [] }

/-- The fragment parks as its word is fetched (R137). -/
def parkFetch (s : State) (c : Ctx) (ls : List Nat) (va : Nat) (f : XFail) : State :=
  (ls.foldl (fun s l => s.parkLane c l va .fetch f) s).modGroup c.t c.g fun G =>
    { G.dropReplies ls with runMask := G.runMask &&& ~~~ laneMask ls }

/-- What an issue slot comes to before a word executes. -/
inductive Ready where
  /-- A word is ready to execute. -/
  | word (s : State) (w : BitVec 32)
  /-- The slot is used up. -/
  | done (s : State)
  deriving DecidableEq, Repr

/-- The requests of a fetch. -/
def fetchAsks (c : Ctx) (chunks : List (Nat × Nat)) : List (Nat × Nat × Nat × RemoteReq) :=
  chunks.map (fun ch => (c.lanes.headD 0, ch.1, ch.2, .read (bitsOf ch.1 0 33) ch.2))

/-- The word that the fragment's accesses have begun for (R380). -/
def Ctx.begunWord (c : Ctx) : Option (BitVec 32) :=
  (c.grp.began.find? (fun b => c.lanes.contains b.lane)).map (·.word)

/-- The word at the fragment's program counter, once the check of R137 is made. -/
def fetchWord (s : State) (c : Ctx) (pos : Nat) : Ready :=
  match fetchAt s c c.pc with
  | .wait s chunks => .done (s.askRemote c (fetchAsks c chunks))
  | .park f => .done (parkFetch s c c.lanes c.pc f)
  | .word s w => .word (s.modGroup c.t c.g (·.startWord c.lanes pos w)) w

/-- The fragment that holds the issue slot brought to its word: its place in the run (R21), the check of the
word before a target (R137), and the fetch. The word before address 0 is at 2^64 − 4, in the scratchpad window, and is
translated for fetch like any other (DESIGN CHOICE, log 23). -/
def prepare (s : State) : Ready :=
  match s.issuer with
  | none => .done s
  | some c =>
    let s := s.modGroup c.t c.g Group.resolve
    if !codeAddress c.pc then .done (trapWord s c causeIllegal 0) else
    match c.placeInRun s with
    | .ask s chunks => .done (s.askRemote c (fetchAsks c chunks))
    | .park va f => .done (parkFetch s c c.lanes va f)
    | .at s pos =>
      match c.begunWord with
      | some w => .word (s.modGroup c.t c.g (·.startWord c.lanes pos w)) w
      | none =>
      if 24 ≤ pos then .done (trapWord s c causeIllegal 0) else
      let arriving := c.lanes.filter (fun l => (c.grp.lane l).arrive)
      if arriving = [] then fetchWord s c pos else
      match fetchAt s c (addOffset c.pc (-4)) with
      | .wait s chunks => .done (s.askRemote c (fetchAsks c chunks))
      | .park f => .done (parkFetch s c arriving (addOffset c.pc (-4)) f)
      | .word s w =>
        if w.getLsbD 30 then fetchWord s c pos
        else
          -- the word before goes on into this one: its place in its run is not the first
          let s := s.modGroup c.t c.g (·.mapLanes arriving (fun _ L => { L with inRun := none }))
          .done ((conclude s c true
          { Ran.init s with traps := arriving.map (fun l => (l, causeIllegal, 0)) } (fun _ => c.pc)).settle c.t)

end Sys2Proof.Machine
end

