-- ==== Sys2Proof/Machine/LaneInt.lean ====
section
/-!
DEFINITION. Lane integer, comparison, selection, address, bit-field and unary integer instructions
(08_lane_arithmetic.md R172 to R180).
-/
namespace Sys2Proof.Machine

/-- The common effect of R172 for a two-source instruction. -/
def alu2 (i : Instr) (e : Bool) (d x y : Opd) (op : Word → Word → Word) (s : State) : Out :=
  aluWord i e (fun c _ L => L.result d (op (c.grp.laneVal L x) (c.grp.laneVal L y))) s

/-- The common effect of R172 for an instruction that also reads its destination. -/
def alu3 (i : Instr) (e : Bool) (d x y : Opd) (op : Word → Word → Word → Word) (s : State) : Out :=
  aluWord i e (fun c _ L => L.result d (op (c.grp.laneVal L x) (c.grp.laneVal L y) (c.grp.laneVal L d))) s

/-- The common effect of R172 for a one-source instruction. -/
def alu1 (i : Instr) (e : Bool) (d x : Opd) (op : Word → Word) (s : State) : Out :=
  aluWord i e (fun c _ L => L.result d (op (c.grp.laneVal L x))) s

/-- A condition as a word (R176). -/
def ofBool (b : Bool) : Word := if b then 1 else 0

/-- The upper half of the signed product (R174). -/
def mulHighI (a b : Word) : Word := BitVec.ofInt 32 (a.toInt * b.toInt / 2 ^ 32)

/-- The upper half of the unsigned product (R174). -/
def mulHighN (a b : Word) : Word := BitVec.ofNat 32 (a.toNat * b.toNat / 2 ^ 32)

/-- The smaller of two words, signed (R174). -/
def minI (a b : Word) : Word := if a.sle b then a else b

/-- The smaller of two words, unsigned. -/
def minN (a b : Word) : Word := if a.ule b then a else b

/-- The larger of two words, signed. -/
def maxI (a b : Word) : Word := if b.sle a then a else b

/-- The larger of two words, unsigned. -/
def maxN (a b : Word) : Word := if b.ule a then a else b

/-- The count of a shift by register: b[4:0] (R174, R154). -/
def shiftCount (b : Word) : Nat := b.toNat % 32

/-- Left shift by b[4:0]. -/
def shiftL (a b : Word) : Word := a <<< shiftCount b

/-- Right shift by b[4:0], filled with zeros. -/
def shiftR (a b : Word) : Word := a >>> shiftCount b

/-- Right shift by b[4:0], filled with copies of bit 31. -/
def shiftA (a b : Word) : Word := a.sshiftRight (shiftCount b)

/-- IADD (R174). -/
def execIadd (e : Bool) (d x y : Opd) (s : State) : Out := alu2 (.iadd e d x y) e d x y (· + ·) s
/-- ISUB (R174). -/
def execIsub (e : Bool) (d x y : Opd) (s : State) : Out := alu2 (.isub e d x y) e d x y (· - ·) s
/-- IMUL (R174). -/
def execImul (e : Bool) (d x y : Opd) (s : State) : Out := alu2 (.imul e d x y) e d x y (· * ·) s
/-- IMULH.i32 (R174). -/
def execImulhI32 (e : Bool) (d x y : Opd) (s : State) : Out := alu2 (.imulhI32 e d x y) e d x y mulHighI s
/-- IMULH.n32 (R174). -/
def execImulhN32 (e : Bool) (d x y : Opd) (s : State) : Out := alu2 (.imulhN32 e d x y) e d x y mulHighN s
/-- IMAC (R174): a × b + d. -/
def execImac (e : Bool) (d x y : Opd) (s : State) : Out :=
  alu3 (.imac e d x y) e d x y (fun a b old => a * b + old) s
/-- IMIN.i32 (R174). -/
def execIminI32 (e : Bool) (d x y : Opd) (s : State) : Out := alu2 (.iminI32 e d x y) e d x y minI s
/-- IMIN.n32 (R174). -/
def execIminN32 (e : Bool) (d x y : Opd) (s : State) : Out := alu2 (.iminN32 e d x y) e d x y minN s
/-- IMAX.i32 (R174). -/
def execImaxI32 (e : Bool) (d x y : Opd) (s : State) : Out := alu2 (.imaxI32 e d x y) e d x y maxI s
/-- IMAX.n32 (R174). -/
def execImaxN32 (e : Bool) (d x y : Opd) (s : State) : Out := alu2 (.imaxN32 e d x y) e d x y maxN s
/-- AND (R174). -/
def execAnd (e : Bool) (d x y : Opd) (s : State) : Out := alu2 (.and e d x y) e d x y (· &&& ·) s
/-- OR (R174). -/
def execOr (e : Bool) (d x y : Opd) (s : State) : Out := alu2 (.or e d x y) e d x y (· ||| ·) s
/-- XOR (R174). -/
def execXor (e : Bool) (d x y : Opd) (s : State) : Out := alu2 (.xor e d x y) e d x y (· ^^^ ·) s
/-- ANDN (R174): a AND NOT b. -/
def execAndn (e : Bool) (d x y : Opd) (s : State) : Out :=
  alu2 (.andn e d x y) e d x y (fun a b => a &&& ~~~ b) s
/-- SHL by register (R174). -/
def execShl (e : Bool) (d x y : Opd) (s : State) : Out := alu2 (.shl e d x y) e d x y shiftL s
/-- SHR by register (R174). -/
def execShr (e : Bool) (d x y : Opd) (s : State) : Out := alu2 (.shr e d x y) e d x y shiftR s
/-- SAR by register (R174). -/
def execSar (e : Bool) (d x y : Opd) (s : State) : Out := alu2 (.sar e d x y) e d x y shiftA s
/-- IADD immediate (R174): a + sext(imm8). -/
def execIaddImm (e : Bool) (d x : Opd) (i : BitVec 8) (s : State) : Out :=
  alu1 (.iaddImm e d x i) e d x (fun a => a + i.signExtend 32) s
/-- SHL immediate (R174). -/
def execShlImm (e : Bool) (d x : Opd) (n : BitVec 5) (s : State) : Out :=
  alu1 (.shlImm e d x n) e d x (fun a => a <<< n.toNat) s
/-- SHR immediate (R174). -/
def execShrImm (e : Bool) (d x : Opd) (n : BitVec 5) (s : State) : Out :=
  alu1 (.shrImm e d x n) e d x (fun a => a >>> n.toNat) s
/-- SAR immediate (R174). -/
def execSarImm (e : Bool) (d x : Opd) (n : BitVec 5) (s : State) : Out :=
  alu1 (.sarImm e d x n) e d x (fun a => a.sshiftRight n.toNat) s
/-- ICMP.eq (R176). -/
def execIcmpEq (e : Bool) (d x y : Opd) (s : State) : Out :=
  alu2 (.icmpEq e d x y) e d x y (fun a b => ofBool (a == b)) s
/-- ICMP.ne (R176). -/
def execIcmpNe (e : Bool) (d x y : Opd) (s : State) : Out :=
  alu2 (.icmpNe e d x y) e d x y (fun a b => ofBool (a != b)) s
/-- ICMP.lt.i32 (R176). -/
def execIcmpLtI32 (e : Bool) (d x y : Opd) (s : State) : Out :=
  alu2 (.icmpLtI32 e d x y) e d x y (fun a b => ofBool (a.slt b)) s
/-- ICMP.le.i32 (R176). -/
def execIcmpLeI32 (e : Bool) (d x y : Opd) (s : State) : Out :=
  alu2 (.icmpLeI32 e d x y) e d x y (fun a b => ofBool (a.sle b)) s
/-- ICMP.lt.n32 (R176). -/
def execIcmpLtN32 (e : Bool) (d x y : Opd) (s : State) : Out :=
  alu2 (.icmpLtN32 e d x y) e d x y (fun a b => ofBool (a.ult b)) s
/-- ICMP.le.n32 (R176). -/
def execIcmpLeN32 (e : Bool) (d x y : Opd) (s : State) : Out :=
  alu2 (.icmpLeN32 e d x y) e d x y (fun a b => ofBool (a.ule b)) s
/-- SEL (R177): a when d ≠ 0, otherwise b. -/
def execSel (e : Bool) (d x y : Opd) (s : State) : Out :=
  alu3 (.sel e d x y) e d x y (fun a b old => if old != 0 then a else b) s

/-- LEA (R178): the pair x plus the sign-extended index, into a pair. -/
def execLea (e : Bool) (d x y : Opd) (s : State) : Out :=
  aluWord (.lea e d x y) e (fun c _ L =>
    let r := addOffset (c.grp.pairVal L x) (c.grp.laneVal L y).toInt
    L.results d [BitVec.ofNat 32 r, BitVec.ofNat 32 (r / 2 ^ 32)]) s

/-- The width of the field that b names (R179): from p to min(p + n, 32) − 1. -/
def fieldWidth (b : Word) : Nat := min (bitsOf b.toNat 0 5 + bitsOf b.toNat 8 5) 32 - bitsOf b.toNat 0 5

/-- The mask of the field that b names (R179). -/
def fieldMask (b : Word) : Word := BitVec.ofNat 32 (2 ^ fieldWidth b - 1) <<< bitsOf b.toNat 0 5

/-- BFX's result (R179). -/
def extractField (a b : Word) : Word :=
  let w := fieldWidth b
  let r := (a &&& fieldMask b) >>> bitsOf b.toNat 0 5
  if b.getLsbD 16 && 1 ≤ w && r.getLsbD (w - 1) then r ||| ~~~ BitVec.ofNat 32 (2 ^ w - 1) else r

/-- BFI's result (R179). -/
def insertField (a b old : Word) : Word :=
  (old &&& ~~~ fieldMask b) ||| ((a <<< bitsOf b.toNat 0 5) &&& fieldMask b)

/-- BFX (R179). -/
def execBfx (e : Bool) (d x y : Opd) (s : State) : Out := alu2 (.bfx e d x y) e d x y extractField s
/-- BFI (R179). -/
def execBfi (e : Bool) (d x y : Opd) (s : State) : Out := alu3 (.bfi e d x y) e d x y insertField s

/-- Bits f(0) to f(n − 1) of a word, gathered as bits g(0) to g(n − 1) of the result. -/
def moveBits (a : Word) (n : Nat) (f g : Nat → Nat) : Word :=
  BitVec.ofNat 32 ((List.range n).foldl (fun r j => r + (if a.getLsbD (f j) then 2 ^ g j else 0)) 0)

/-- |a| modulo 2^32 (R180). -/
def absWord (a : Word) : Word := if a.msb then -a else a

/-- The number of leading zero bits (R180). -/
def leadingZeros (a : Word) : Word := BitVec.ofNat 32 (32 - (if a = 0 then 0 else Nat.log2 a.toNat + 1))

/-- The number of one bits (R180). -/
def onesCount (a : Word) : Word := BitVec.ofNat 32 (popcount a)

/-- Bits in reverse order (R180). -/
def reverseBits (a : Word) : Word := moveBits a 32 (fun j => j) (fun j => 31 - j)

/-- Bits spread to every second place (R180). -/
def spread2 (a : Word) : Word := moveBits a 16 (fun j => j) (fun j => 2 * j)

/-- Bits spread to every third place (R180). -/
def spread3 (a : Word) : Word := moveBits a 10 (fun j => j) (fun j => 3 * j)

/-- Every third bit gathered (R180). -/
def gather3 (a : Word) : Word := moveBits a 10 (fun j => 3 * j) (fun j => j)

/-- IABS (R180). -/
def execIabs (e : Bool) (d x : Opd) (s : State) : Out := alu1 (.iabs e d x) e d x absWord s
/-- CLZ (R180). -/
def execClz (e : Bool) (d x : Opd) (s : State) : Out := alu1 (.clz e d x) e d x leadingZeros s
/-- POPC (R180). -/
def execPopc (e : Bool) (d x : Opd) (s : State) : Out := alu1 (.popc e d x) e d x onesCount s
/-- BREV (R180). -/
def execBrev (e : Bool) (d x : Opd) (s : State) : Out := alu1 (.brev e d x) e d x reverseBits s
/-- BINT2 (R180). -/
def execBint2 (e : Bool) (d x : Opd) (s : State) : Out := alu1 (.bint2 e d x) e d x spread2 s
/-- BINT3 (R180). -/
def execBint3 (e : Bool) (d x : Opd) (s : State) : Out := alu1 (.bint3 e d x) e d x spread3 s
/-- BDEINT3 (R180). -/
def execBdeint3 (e : Bool) (d x : Opd) (s : State) : Out := alu1 (.bdeint3 e d x) e d x gather3 s
/-- LANEID (R180): the lane's index. -/
def execLaneid (e : Bool) (d : Opd) (s : State) : Out :=
  aluWord (.laneid e d) e (fun _ l L => L.result d (BitVec.ofNat 32 l)) s

end Sys2Proof.Machine
end

