-- ==== Sys2Proof/Machine/Narrow.lean ====
section
/-!
DEFINITION. Narrow formats: descriptors, code values and conversions (02_numbers.md R55 to R57).
-/
namespace Sys2Proof.Machine

/-- The fields of a narrow-format descriptor (R55). -/
structure Desc where
  c : Bool
  sub : Bool
  spec : Nat
  bias : Int
  s : Nat
  e : Nat
  m : Nat
  deriving DecidableEq, Repr

/-- The fields that a descriptor word holds (R55). -/
def Desc.ofWord (w : Word) : Desc :=
  { c := w.getLsbD 19, sub := w.getLsbD 18, spec := (w.extractLsb' 16 2).toNat,
    bias := (w.extractLsb' 8 8).toInt, s := (w.extractLsb' 6 1).toNat,
    e := (w.extractLsb' 3 3).toNat, m := (w.extractLsb' 0 3).toNat }

/-- The bits of an element: n of R57. -/
def Desc.bits (d : Desc) : Nat := d.s + d.e + d.m

/-- Whether a descriptor word is valid (R56). -/
def descValid (w : Word) : Bool :=
  let d := Desc.ofWord w
  w.extractLsb' 20 12 == 0#12 && !w.getLsbD 7 &&
  1 ≤ d.bits && d.bits ≤ (if d.c then 4 else 8) && d.spec != 3 &&
  (d.spec != 1 || 1 ≤ d.e) && (d.spec != 2 || (d.s == 1 && 1 ≤ d.e)) &&
  (d.e != 0 || (1 ≤ d.m && d.spec == 0 && !d.sub))

/-- The value of an element's code (R57); a narrow NaN is quiet. -/
def Desc.value (d : Desc) (code : Nat) : FVal :=
  let c := code % 2 ^ d.bits
  if d.e = 0 then
    let v : Int := if d.s = 1 ∧ 2 ^ d.m ≤ c then (c : Int) - (2 ^ (d.m + 1) : Nat) else c
    .fin (decide (v < 0)) v.natAbs (-d.bias)
  else
    let neg := d.s == 1 && c / 2 ^ (d.e + d.m) == 1
    let ex := c / 2 ^ d.m % 2 ^ d.e
    let fr := c % 2 ^ d.m
    if d.spec = 1 ∧ ex = 2 ^ d.e - 1 then .nan false
    else if d.spec = 2 ∧ neg = true ∧ ex = 0 ∧ fr = 0 then .nan false
    else if ex = 0 then
      if d.sub then .fin neg fr (1 - d.bias - d.m) else .fin neg 0 0
    else .fin neg (2 ^ d.m + fr) ((ex : Int) - d.bias - d.m)

/-- The code of the largest finite value, without its sign: the largest code that is no NaN (R57). -/
def Desc.maxCode (d : Desc) : Nat := if d.spec = 1 then (2 ^ d.e - 1) * 2 ^ d.m - 1 else 2 ^ (d.e + d.m) - 1

/-- The code of an end of the range, with its sign: minus the largest finite value is its code with the sign bit, also
where that value is zero (DEDUCED, log 12). -/
def Desc.endCode (d : Desc) (neg : Bool) : Nat := if neg then 2 ^ (d.bits - 1) + d.maxCode else d.maxCode

/-- The code written for a NaN and the flags of writing it (R57). -/
def Desc.nanCode (d : Desc) : Nat × Flags :=
  match d.spec with
  | 1 => (2 ^ (d.e + d.m) - 1, 0)
  | 2 => (2 ^ (d.bits - 1), 0)
  | _ => (0, flagNV)

/-- The exact value m × 2^e against v × 2^g: the remainder's place between the two candidates of a
rounding, as twice its distance from the lower one compared with the gap. -/
def halfCompare (m : Nat) (e : Int) (lo hi : Nat) (g : Int) : Ordering :=
  let b := min e g
  Ord.compare (2 * m * 2 ^ (e - b).toNat) ((lo + hi) * 2 ^ (g - b).toNat)

/-- Which of two adjacent candidates a mode takes (R53): their codes' lowest bits decide ties and round to
odd; between zero and the smallest normal value of a format without subnormals round to odd takes the one
that is not zero. -/
def takeUpper (mode : RMode) (neg exact : Bool) (half : Ordering) (loOdd hiOdd : Bool) : Bool :=
  if exact then false else
  match mode with
  | .rne =>
    match half with
    | .lt => false
    | .gt => true
    | .eq => loOdd && !hiOdd
  | .rz => false
  | .ru => !neg
  | .rd => neg
  | .ro => if loOdd then false else true

/-- A magnitude m × 2^e (not zero) rounded to the codes of a format with an exponent field, the range
taken as unbounded (R53, R57): the code index chosen, whether it was exact, and whether it is tiny. -/
def Desc.roundExp (d : Desc) (mode : RMode) (neg : Bool) (m : Nat) (e : Int) : Nat × Bool × Bool :=
  let emin : Int := 1 - d.bias
  let top : Int := (bitLength m : Int) - 1 + e
  -- the grid above the smallest normal value, with the exponent unbounded below as well
  let q := top - d.m
  let b := min e q
  let num := m * 2 ^ (e - b).toNat
  let den := 2 ^ (q - b).toNat
  let lo := num / den
  let exact := num % den == 0
  let index : Int := (top - emin + 1) * (2 ^ d.m : Nat) + (lo : Int) - (2 ^ d.m : Nat)
  let odd := index % 2 != 0
  let upFree := takeUpper mode neg exact (halfCompare m e lo (lo + 1) q) odd (!odd)
  let freeIndex := if upFree then index + 1 else index
  let tiny := decide (freeIndex < (2 ^ d.m : Nat))
  if emin ≤ top then (freeIndex.toNat, exact, tiny)
  else if d.sub then
    let q' := emin - d.m
    let b' := min e q'
    let num' := m * 2 ^ (e - b').toNat
    let den' := 2 ^ (q' - b').toNat
    let lo' := num' / den'
    let exact' := num' % den' == 0
    let odd' := lo' % 2 == 1
    let up := takeUpper mode neg exact' (halfCompare m e lo' (lo' + 1) q') odd' (!odd')
    (if up then lo' + 1 else lo', exact', tiny)
  else
    let up := takeUpper mode neg false (halfCompare m e 0 1 emin) false (2 ^ d.m % 2 == 1)
    (if up then 2 ^ d.m else 0, false, tiny)

/-- The flags of a saturated conversion (R57). -/
def flagsSat : Flags := flagSAT ||| flagNX

/-- A finite value converted to a narrow code (R57). -/
def Desc.ofFin (d : Desc) (mode : RMode) (neg : Bool) (m : Nat) (e : Int) : Nat × Flags :=
  if m = 0 then
    (if neg && d.s == 1 && d.e != 0 && d.spec != 2 then 2 ^ (d.bits - 1) else 0, 0)
  else if neg && d.s == 0 then (0, flagsSat)
  else if d.e = 0 then
    -- an integer times 2^(−BIAS): round on the integer grid, the code's lowest bit being the integer's
    let (r, inexact) := roundInt mode neg m (e + d.bias)
    let hi : Int := if d.s = 1 then (2 ^ d.m : Nat) - 1 else (2 ^ d.bits : Nat) - 1
    let lo : Int := if d.s = 1 then -(2 ^ d.m : Nat) else 0
    let code (v : Int) : Nat := (v % (2 ^ d.bits : Nat)).toNat
    if r > hi then (code hi, flagsSat) else if r < lo then (code lo, flagsSat)
    else (code r, if inexact then flagNX else 0)
  else
    let (idx, exact, tiny) := d.roundExp mode neg m e
    let sign := if neg then 2 ^ (d.bits - 1) else 0
    if idx > d.maxCode then (d.endCode neg, if tiny then flagsSat ||| flagUF else flagsSat)
    else
      let fl := if exact then 0 else if tiny then flagUF ||| flagNX else flagNX
      if idx = 0 ∧ d.spec = 2 then (0, fl) else (sign + idx, fl)

/-- A float code converted to a narrow code (R57, R186). -/
def Desc.ofFloat (d : Desc) (src : Fmt) (mode : RMode) (a : Nat) : Nat × Flags :=
  match src.value a with
  | .nan s =>
    let (c, fl) := d.nanCode
    (c, fl ||| (if s then flagNV else 0))
  | .inf n =>
    if n && d.s == 0 then (0, flagsSat)
    else if d.e = 0 then (if n then 2 ^ d.m else 2 ^ (d.bits - d.s) - 1, flagsSat)
    else (d.endCode n, flagsSat)
  | .fin n m e => d.ofFin mode n m e

/-- A narrow code converted to a float (R186). -/
def Desc.toFloat (d : Desc) (dst : Fmt) (mode : RMode) (code : Nat) : Nat × Flags :=
  match d.value code with
  | .nan _ => (dst.nan, 0)
  | .inf n => (dst.signed n dst.inf, 0)
  | .fin n m e => roundTo dst mode n m e false

end Sys2Proof.Machine
end

