-- ==== Sys2Proof/Machine/LaneFloat.lean ====
section
/-!
DEFINITION. Lane float, packed float, comparison and conversion instructions (08_lane_arithmetic.md R180 to
R186; the arithmetic is 02_numbers.md R45 to R57).
-/
namespace Sys2Proof.Machine

/-- A two-source float instruction of R172 and R173: the result's bits and the flags it raises. -/
def flt2 (i : Instr) (e : Bool) (d x y : Opd) (op : Nat → Nat → Nat × Flags) (s : State) : Out :=
  aluWord i e (fun c _ L =>
    let r := op (c.grp.laneVal L x).toNat (c.grp.laneVal L y).toNat
    L.resultF d (BitVec.ofNat 32 r.1) r.2) s

/-- A one-source float instruction. -/
def flt1 (i : Instr) (e : Bool) (d x : Opd) (op : Nat → Nat × Flags) (s : State) : Out :=
  aluWord i e (fun c _ L =>
    let r := op (c.grp.laneVal L x).toNat
    L.resultF d (BitVec.ofNat 32 r.1) r.2) s

/-- The two 16-bit elements of a register (R46). -/
def element (w j : Nat) : Nat := bitsOf w (16 * j) 16

/-- The element format that the f field of a packed word names (R183). -/
def packedFmt (f : BitVec 1) : Fmt := if f = 0 then f16 else g16

/-- A packed float instruction (R183): each element of x and of the register above it, and of d for FFMA, on
its own; the flags of both are ORed. -/
def packed (i : Instr) (e : Bool) (d x : Opd) (op : Nat → Nat → Nat → Nat × Flags) (s : State) : Out :=
  aluWord i e (fun c _ L =>
    let a := (c.grp.blockVal L x 0).toNat
    let b := (c.grp.blockVal L x 1).toNat
    let old := (c.grp.laneVal L d).toNat
    let r0 := op (element a 0) (element b 0) (element old 0)
    let r1 := op (element a 1) (element b 1) (element old 1)
    L.resultF d (BitVec.ofNat 32 (r0.1 + 2 ^ 16 * r1.1)) (r0.2 ||| r1.2)) s

/-- FCMP's result and flags as a lane's (R182). -/
def fcmpOp (rel a b : Nat) : Nat × Flags :=
  let r := fcmp f32 rel a b
  (if r.1 then 1 else 0, r.2)

/-- A float converted to a 32-bit integer of a range (R185 conversions 4 and 5). -/
def toInt32 (mode : RMode) (lo hi : Int) (a : Nat) : Nat × Flags :=
  let r := fToInt f32 mode lo hi a
  ((BitVec.ofInt 32 r.1).toNat, r.2)

/-- PACK2 (R184): both elements rounded to nearest-even, their flags ORed. -/
def pack2 (dst : Fmt) (a b : Nat) : Nat × Flags :=
  let r0 := fcvt f32 dst .rne a
  let r1 := fcvt f32 dst .rne b
  (r0.1 + 2 ^ 16 * r1.1, r0.2 ||| r1.2)

/-- UNPACK2 (R180): both elements widened exactly into a pair. -/
def unpack2 (i : Instr) (e : Bool) (src : Fmt) (d x : Opd) (s : State) : Out :=
  aluWord i e (fun c _ L =>
    let a := (c.grp.laneVal L x).toNat
    let r0 := fcvt src f32 .rne (element a 0)
    let r1 := fcvt src f32 .rne (element a 1)
    (L.results d [BitVec.ofNat 32 r0.1, BitVec.ofNat 32 r1.1]).raise (r0.2 ||| r1.2)) s

/-- A conversion through a format register (R186): ILLEGAL while it holds no valid descriptor, judged after
the checks of R149. -/
def narrowCvt (i : Instr) (e : Bool) (d x : Opd) (n : BitVec 3) (op : Desc → Nat → Nat × Flags) (s : State) :
    Out :=
  laneWord i e (fun c s l =>
    let fw := Store.get (s.grpOf c).f n.toNat
    if descValid fw then
      .done (s.modLane c.t c.g l fun L =>
        let r := op (Desc.ofWord fw) (c.grp.laneVal L x).toNat
        L.resultF d (BitVec.ofNat 32 r.1) r.2)
    else .trap s causeIllegal 0) s

/-- The element of a register that conversions 24 to 31 read (R186): a[3:0] for a 4-bit container. -/
def narrowElement (d : Desc) (a : Nat) : Nat := if d.c then a % 16 else a % 256

/-- FADD.f32 (R181). -/
def execFaddF32 (e : Bool) (d x y : Opd) (s : State) : Out :=
  flt2 (.faddF32 e d x y) e d x y (fadd f32) s
/-- FSUB.f32 (R181). -/
def execFsubF32 (e : Bool) (d x y : Opd) (s : State) : Out :=
  flt2 (.fsubF32 e d x y) e d x y (fsub f32) s
/-- FMUL.f32 (R181). -/
def execFmulF32 (e : Bool) (d x y : Opd) (s : State) : Out :=
  flt2 (.fmulF32 e d x y) e d x y (fmul f32) s
/-- FFMA.f32 (R181): a × b + d, one rounding. -/
def execFfmaF32 (e : Bool) (d x y : Opd) (s : State) : Out :=
  aluWord (.ffmaF32 e d x y) e (fun c _ L =>
    let r := ffma f32 (c.grp.laneVal L x).toNat (c.grp.laneVal L y).toNat (c.grp.laneVal L d).toNat
    L.resultF d (BitVec.ofNat 32 r.1) r.2) s
/-- FMIN.f32 (R181). -/
def execFminF32 (e : Bool) (d x y : Opd) (s : State) : Out :=
  flt2 (.fminF32 e d x y) e d x y (fminmax f32 false) s
/-- FMAX.f32 (R181). -/
def execFmaxF32 (e : Bool) (d x y : Opd) (s : State) : Out :=
  flt2 (.fmaxF32 e d x y) e d x y (fminmax f32 true) s
/-- Packed FADD (R183). -/
def execFaddPacked (e : Bool) (d x : Opd) (f : BitVec 1) (s : State) : Out :=
  packed (.faddPacked e d x f) e d x (fun a b _ => fadd (packedFmt f) a b) s
/-- Packed FSUB (R183). -/
def execFsubPacked (e : Bool) (d x : Opd) (f : BitVec 1) (s : State) : Out :=
  packed (.fsubPacked e d x f) e d x (fun a b _ => fsub (packedFmt f) a b) s
/-- Packed FMUL (R183). -/
def execFmulPacked (e : Bool) (d x : Opd) (f : BitVec 1) (s : State) : Out :=
  packed (.fmulPacked e d x f) e d x (fun a b _ => fmul (packedFmt f) a b) s
/-- Packed FFMA (R183). -/
def execFfmaPacked (e : Bool) (d x : Opd) (f : BitVec 1) (s : State) : Out :=
  packed (.ffmaPacked e d x f) e d x (fun a b old => ffma (packedFmt f) a b old) s
/-- Packed FMIN (R183). -/
def execFminPacked (e : Bool) (d x : Opd) (f : BitVec 1) (s : State) : Out :=
  packed (.fminPacked e d x f) e d x (fun a b _ => fminmax (packedFmt f) false a b) s
/-- Packed FMAX (R183). -/
def execFmaxPacked (e : Bool) (d x : Opd) (f : BitVec 1) (s : State) : Out :=
  packed (.fmaxPacked e d x f) e d x (fun a b _ => fminmax (packedFmt f) true a b) s
/-- FCMP.eq (R182). -/
def execFcmpEq (e : Bool) (d x y : Opd) (s : State) : Out :=
  flt2 (.fcmpEq e d x y) e d x y (fcmpOp 0) s
/-- FCMP.lt (R182). -/
def execFcmpLt (e : Bool) (d x y : Opd) (s : State) : Out :=
  flt2 (.fcmpLt e d x y) e d x y (fcmpOp 1) s
/-- FCMP.le (R182). -/
def execFcmpLe (e : Bool) (d x y : Opd) (s : State) : Out :=
  flt2 (.fcmpLe e d x y) e d x y (fcmpOp 2) s
/-- FCMP.un (R182). -/
def execFcmpUn (e : Bool) (d x y : Opd) (s : State) : Out :=
  flt2 (.fcmpUn e d x y) e d x y (fcmpOp 3) s
/-- FRCP (R52, R180). -/
def execFrcp (e : Bool) (d x : Opd) (s : State) : Out :=
  flt1 (.frcp e d x) e d x (frcp f32) s
/-- FRSQ (R52, R180). -/
def execFrsq (e : Bool) (d x : Opd) (s : State) : Out :=
  flt1 (.frsq e d x) e d x (frsq f32) s
/-- FSQRT (R52, R180). -/
def execFsqrt (e : Bool) (d x : Opd) (s : State) : Out :=
  flt1 (.fsqrt e d x) e d x (fsqrt f32) s
/-- FEXP2 (R52, R180). -/
def execFexp2 (e : Bool) (d x : Opd) (s : State) : Out :=
  flt1 (.fexp2 e d x) e d x fexp2 s
/-- FLOG2 (R52, R180). -/
def execFlog2 (e : Bool) (d x : Opd) (s : State) : Out :=
  flt1 (.flog2 e d x) e d x flog2 s
/-- FSIN (R52, R180). -/
def execFsin (e : Bool) (d x : Opd) (s : State) : Out :=
  flt1 (.fsin e d x) e d x fsin s
/-- UNPACK2.f16x2 (R180). -/
def execUnpack2F16X2 (e : Bool) (d x : Opd) (s : State) : Out :=
  unpack2 (.unpack2F16X2 e d x) e f16 d x s
/-- UNPACK2.g16x2 (R180). -/
def execUnpack2G16X2 (e : Bool) (d x : Opd) (s : State) : Out :=
  unpack2 (.unpack2G16X2 e d x) e g16 d x s
/-- PACK2.f16x2 (R184). -/
def execPack2F16X2 (e : Bool) (d x y : Opd) (s : State) : Out :=
  flt2 (.pack2F16X2 e d x y) e d x y (pack2 f16) s
/-- PACK2.g16x2 (R184). -/
def execPack2G16X2 (e : Bool) (d x y : Opd) (s : State) : Out :=
  flt2 (.pack2G16X2 e d x y) e d x y (pack2 g16) s
/-- FCVT.f16.f32: the upper half is 0 (R185). -/
def execFcvtF16F32 (e : Bool) (d x : Opd) (m : BitVec 3) (s : State) : Out :=
  flt1 (.fcvtF16F32 e d x m) e d x (fun a => fcvt f32 f16 (roundMode m.toNat) a) s
/-- FCVT.g16.f32: the upper half is 0 (R185). -/
def execFcvtG16F32 (e : Bool) (d x : Opd) (m : BitVec 3) (s : State) : Out :=
  flt1 (.fcvtG16F32 e d x m) e d x (fun a => fcvt f32 g16 (roundMode m.toNat) a) s
/-- FCVT.f32.f16: a[31:16] is ignored (R185). -/
def execFcvtF32F16 (e : Bool) (d x : Opd) (m : BitVec 3) (s : State) : Out :=
  flt1 (.fcvtF32F16 e d x m) e d x (fun a => fcvt f16 f32 (roundMode m.toNat) (element a 0)) s
/-- FCVT.f32.g16: a[31:16] is ignored (R185). -/
def execFcvtF32G16 (e : Bool) (d x : Opd) (m : BitVec 3) (s : State) : Out :=
  flt1 (.fcvtF32G16 e d x m) e d x (fun a => fcvt g16 f32 (roundMode m.toNat) (element a 0)) s
/-- FCVT.i32.f32 (R185). -/
def execFcvtI32F32 (e : Bool) (d x : Opd) (m : BitVec 3) (s : State) : Out :=
  flt1 (.fcvtI32F32 e d x m) e d x (fun a => toInt32 (roundMode m.toNat) (-(2 ^ 31)) (2 ^ 31 - 1) a) s
/-- FCVT.n32.f32 (R185). -/
def execFcvtN32F32 (e : Bool) (d x : Opd) (m : BitVec 3) (s : State) : Out :=
  flt1 (.fcvtN32F32 e d x m) e d x (fun a => toInt32 (roundMode m.toNat) 0 (2 ^ 32 - 1) a) s
/-- FCVT.f32.i32 (R185). -/
def execFcvtF32I32 (e : Bool) (d x : Opd) (m : BitVec 3) (s : State) : Out :=
  flt1 (.fcvtF32I32 e d x m) e d x (fun a => intToF f32 (roundMode m.toNat) (BitVec.ofNat 32 a).toInt) s
/-- FCVT.f32.n32 (R185). -/
def execFcvtF32N32 (e : Bool) (d x : Opd) (m : BitVec 3) (s : State) : Out :=
  flt1 (.fcvtF32N32 e d x m) e d x (fun a => intToF f32 (roundMode m.toNat) a) s
/-- FCVT.f32.f32: an integral value (R185). -/
def execFcvtF32F32 (e : Bool) (d x : Opd) (m : BitVec 3) (s : State) : Out :=
  flt1 (.fcvtF32F32 e d x m) e d x (fun a => fIntegral f32 (roundMode m.toNat) a) s
/-- FCVT.q.f32 through f(n) (R185, R186): the code in the low bits, all higher bits 0. -/
def execFcvtQF32 (e : Bool) (d x : Opd) (n m : BitVec 3) (s : State) : Out :=
  narrowCvt (.fcvtQF32 e d x n m) e d x n (fun k a => k.ofFloat f32 (roundMode m.toNat) a) s
/-- FCVT.f32.q through f(n) (R185, R186). -/
def execFcvtF32Q (e : Bool) (d x : Opd) (n m : BitVec 3) (s : State) : Out :=
  narrowCvt (.fcvtF32Q e d x n m) e d x n
    (fun k a => k.toFloat f32 (roundMode m.toNat) (narrowElement k a)) s

end Sys2Proof.Machine
end

