-- ==== Sys2Proof/Machine/CrossLane.lean ====
section
/-!
DEFINITION. Cross-lane instructions (08_lane_arithmetic.md R187 to R190; 02_numbers.md R64, R65). They read and
combine over A: the active set less the lanes that trap on the instruction.
-/
namespace Sys2Proof.Machine

/-- A cross-lane instruction: its result and flags for a lane, from A's values before any write (R187). -/
def crossWord (i : Instr) (e : Bool) (d : Opd) (f : Ctx → List Nat → Nat → Word × Flags) (s : State) : Out :=
  aluWord i e (fun c l L =>
    let r := f c (c.sound i) l
    L.resultF d r.1 r.2) s

/-- The shuffles' result (R188): the source lane's value where it is in A, else the lane's own. -/
def shuffled (c : Ctx) (A : List Nat) (x : Opd) (own : Nat) (src : Option Nat) : Word :=
  match src with
  | some l => if A.contains l then c.laneValue x l else c.laneValue x own
  | none => c.laneValue x own

/-- SHFL (R188): from lane y[4:0]. -/
def execShfl (e : Bool) (d x y : Opd) (s : State) : Out :=
  crossWord (.shfl e d x y) e d
    (fun c A l => (shuffled c A x l (some ((c.laneValue y l).toNat % 32)), 0)) s

/-- SHFLUP (R188): from lane i − n. -/
def execShflup (e : Bool) (d x : Opd) (n : BitVec 5) (s : State) : Out :=
  crossWord (.shflup e d x n) e d
    (fun c A l => (shuffled c A x l (if n.toNat ≤ l then some (l - n.toNat) else none), 0)) s

/-- SHFLDN (R188): from lane i + n. -/
def execShfldn (e : Bool) (d x : Opd) (n : BitVec 5) (s : State) : Out :=
  crossWord (.shfldn e d x n) e d (fun c A l => (shuffled c A x l (some (l + n.toNat)), 0)) s

/-- SHFLX (R188): from lane i XOR m. -/
def execShflx (e : Bool) (d x : Opd) (m : BitVec 5) (s : State) : Out :=
  crossWord (.shflx e d x m) e d (fun c A l => (shuffled c A x l (some (l ^^^ m.toNat)), 0)) s

/-- One combining step (R64): an absent lane is skipped. -/
def combine (op : Nat → Nat → Nat × Flags) (a b : Option Nat) : Option Nat × Flags :=
  match a, b with
  | none, b => (b, 0)
  | a, none => (a, 0)
  | some x, some y => let r := op x y; (some r.1, r.2)

/-- The OR of some flags. -/
def orFlags (l : List (Option Nat × Flags)) : Flags := l.foldl (fun f r => f ||| r.2) 0

/-- One round of SCAN's tree at a distance (R64), with the flags so far. -/
def scanRound (op : Nat → Nat → Nat × Flags) (t : List (Option Nat) × Flags) (dist : Nat) :
    List (Option Nat) × Flags :=
  let u := t.1.zipIdx.map (fun e =>
    if dist ≤ e.2 then combine op (t.1.getD (e.2 - dist) none) e.1 else (e.1, 0))
  (u.map (·.1), t.2 ||| orFlags u)

/-- One round of RED's tree at a distance (R65). -/
def redRound (op : Nat → Nat → Nat × Flags) (t : List (Option Nat) × Flags) (dist : Nat) :
    List (Option Nat) × Flags :=
  let u := t.1.zipIdx.map (fun e =>
    if e.2 % (2 * dist) = 0 then combine op e.1 (t.1.getD (e.2 + dist) none) else (e.1, 0))
  (u.map (·.1), t.2 ||| orFlags u)

/-- An integer combining function on codes. -/
def intComb (f : Word → Word → Word) (a b : Nat) : Nat × Flags :=
  ((f (BitVec.ofNat 32 a) (BitVec.ofNat 32 b)).toNat, 0)

/-- The combining function of a code (R189). -/
def combining (code : Nat) : Nat → Nat → Nat × Flags :=
  match code with
  | 0 => intComb (· + ·)
  | 1 => intComb maxI
  | 2 => intComb maxN
  | 3 => intComb minI
  | 4 => intComb minN
  | 5 => intComb (· ||| ·)
  | 8 => fadd f32
  | 9 => fminmax f32 true
  | _ => fminmax f32 false

/-- An input of a float tree (R189): a NaN is replaced by the canonical one, a signalling one raises NV. -/
def treeInput (code a : Nat) : Nat × Flags :=
  if code < 8 then (a, 0) else
  match f32.value a with
  | .nan sig => (f32.nan, if sig then flagNV else 0)
  | _ => (a, 0)

/-- The starting values of a tree over A, with their flags. -/
def treeStart (c : Ctx) (A : List Nat) (x : Opd) (code : Nat) : List (Option Nat) × Flags :=
  let ins := (List.range 32).map (fun l =>
    if A.contains l then
      let r := treeInput code (c.laneValue x l).toNat
      (some r.1, r.2)
    else (none, 0))
  (ins.map (·.1), orFlags ins)

/-- The distances of the trees' rounds. -/
def treeRounds : List Nat := [1, 2, 4, 8, 16]

/-- SCAN (R189, R64): the inclusive prefix. -/
def execScan (e : Bool) (d x : Opd) (k : BitVec 5) (s : State) : Out :=
  crossWord (.scan e d x k) e d (fun c A l =>
    let t := treeRounds.foldl (scanRound (combining k.toNat)) (treeStart c A x k.toNat)
    (BitVec.ofNat 32 ((t.1.getD l none).getD 0), t.2)) s

/-- RED (R189, R65): the combination over all of A. -/
def execRed (e : Bool) (d x : Opd) (k : BitVec 5) (s : State) : Out :=
  crossWord (.red e d x k) e d (fun c A _ =>
    let t := treeRounds.foldl (redRound (combining k.toNat)) (treeStart c A x k.toNat)
    (BitVec.ofNat 32 ((t.1.getD 0 none).getD 0), t.2)) s

/-- The lanes of A whose x is not zero. -/
def Ctx.nonzero (c : Ctx) (A : List Nat) (x : Opd) : List Nat := A.filter (fun l => c.laneValue x l != 0)

/-- BALLOT (R190). -/
def execBallot (e : Bool) (d x : Opd) (s : State) : Out :=
  crossWord (.ballot e d x) e d (fun c A _ => (laneMask (c.nonzero A x), 0)) s

/-- VOTE.any (R190). -/
def execVoteAny (e : Bool) (d x : Opd) (s : State) : Out :=
  crossWord (.voteAny e d x) e d (fun c A _ => (ofBool (c.nonzero A x != []), 0)) s

/-- VOTE.all (R190). -/
def execVoteAll (e : Bool) (d x : Opd) (s : State) : Out :=
  crossWord (.voteAll e d x) e d (fun c A _ => (ofBool (c.nonzero A x == A), 0)) s

end Sys2Proof.Machine
end

