-- ==== Sys2Proof/Machine/Signature.lean ====
section
/-!
DEFINITION. SHA-256 and the verification of SLH-DSA-SHA2-128s signatures, which 25_boot_host_security.md R364 and R369
name and do not restate: as FIPS 180-4 and FIPS 205 give them (PRESUMED, log 39).
-/
namespace Sys2Proof.Machine

/-! ## SHA-256 -/

/-- The big-endian value of some bytes, and the n bytes of a value, highest first. -/
def beValue (bs : List Byte) : Nat := bs.foldl (fun v b => 256 * v + b.toNat) 0
def beBytes (n v : Nat) : List Byte := (toBytes n v).reverse

/-- The round constants. -/
def shaRounds : List (BitVec 32) :=
  [0x428a2f98, 0x71374491, 0xb5c0fbcf, 0xe9b5dba5, 0x3956c25b, 0x59f111f1, 0x923f82a4, 0xab1c5ed5,
   0xd807aa98, 0x12835b01, 0x243185be, 0x550c7dc3, 0x72be5d74, 0x80deb1fe, 0x9bdc06a7, 0xc19bf174] ++
  [0xe49b69c1, 0xefbe4786, 0x0fc19dc6, 0x240ca1cc, 0x2de92c6f, 0x4a7484aa, 0x5cb0a9dc, 0x76f988da,
   0x983e5152, 0xa831c66d, 0xb00327c8, 0xbf597fc7, 0xc6e00bf3, 0xd5a79147, 0x06ca6351, 0x14292967] ++
  [0x27b70a85, 0x2e1b2138, 0x4d2c6dfc, 0x53380d13, 0x650a7354, 0x766a0abb, 0x81c2c92e, 0x92722c85,
   0xa2bfe8a1, 0xa81a664b, 0xc24b8b70, 0xc76c51a3, 0xd192e819, 0xd6990624, 0xf40e3585, 0x106aa070] ++
  [0x19a4c116, 0x1e376c08, 0x2748774c, 0x34b0bcb5, 0x391c0cb3, 0x4ed8aa4a, 0x5b9cca4f, 0x682e6ff3,
   0x748f82ee, 0x78a5636f, 0x84c87814, 0x8cc70208, 0x90befffa, 0xa4506ceb, 0xbef9a3f7, 0xc67178f2]

/-- The initial hash value. -/
def shaStart : List (BitVec 32) :=
  [0x6a09e667, 0xbb67ae85, 0x3c6ef372, 0xa54ff53a, 0x510e527f, 0x9b05688c, 0x1f83d9ab, 0x5be0cd19]

/-- The message schedule: its last word is the head. -/
def shaSchedule : Nat → List (BitVec 32) → List (BitVec 32)
  | 0, w => w
  | n + 1, w =>
    let a := w.getD 14 0
    let b := w.getD 1 0
    let s0 := a.rotateRight 7 ^^^ a.rotateRight 18 ^^^ (a >>> 3)
    let s1 := b.rotateRight 17 ^^^ b.rotateRight 19 ^^^ (b >>> 10)
    shaSchedule n ((w.getD 15 0 + s0 + w.getD 6 0 + s1) :: w)

/-- One round on the eight working variables, with its schedule word and constant. -/
def shaRound (v : List (BitVec 32)) (x : BitVec 32 × BitVec 32) : List (BitVec 32) :=
  match v with
  | [a, b, c, d, e, f, g, h] =>
    let t1 := h + (e.rotateRight 6 ^^^ e.rotateRight 11 ^^^ e.rotateRight 25) + ((e &&& f) ^^^ (~~~e &&& g)) + x.2 + x.1
    let t2 := (a.rotateRight 2 ^^^ a.rotateRight 13 ^^^ a.rotateRight 22) + ((a &&& b) ^^^ (a &&& c) ^^^ (b &&& c))
    [t1 + t2, a, b, c, d + t1, e, f, g]
  | _ => v

/-- The words of a 64-byte block. -/
def shaWords (block : List Byte) : List (BitVec 32) :=
  (List.range 16).map (fun i => BitVec.ofNat 32 (beValue ((block.drop (4 * i)).take 4)))

/-- One block taken into the hash value. -/
def shaBlock (h : List (BitVec 32)) (block : List Byte) : List (BitVec 32) :=
  let w := (shaSchedule 48 (shaWords block).reverse).reverse
  (h.zip ((w.zip shaRounds).foldl shaRound h)).map (fun e => e.1 + e.2)

/-- The blocks of a padded message. -/
def shaBlocks : Nat → List Byte → List (List Byte)
  | 0, _ => []
  | n + 1, m => m.take 64 :: shaBlocks n (m.drop 64)

/-- SHA-256: 32 bytes. -/
def sha256 (m : List Byte) : List Byte :=
  let padded := m ++ [0x80] ++ List.replicate ((119 - m.length % 64) % 64) 0 ++ beBytes 8 (8 * m.length)
  ((shaBlocks (padded.length / 64) padded).foldl shaBlock shaStart).flatMap (fun w => beBytes 4 w.toNat)

/-! ## SLH-DSA-SHA2-128s: n 16, h 63, d 7, h' 9, a 12, k 14, w 16 -/

/-- A hash address: layer, tree, type and the three words that the type gives a meaning. -/
structure SlhAddr where
  layer : Nat
  tree : Nat
  kind : Nat
  w1 : Nat
  w2 : Nat
  w3 : Nat
  deriving DecidableEq, Repr

/-- The compressed address: 22 bytes. -/
def SlhAddr.bytes (a : SlhAddr) : List Byte :=
  beBytes 1 a.layer ++ beBytes 8 a.tree ++ beBytes 1 a.kind ++ beBytes 4 a.w1 ++ beBytes 4 a.w2 ++ beBytes 4 a.w3

/-- The tweakable hash functions F, H and T: 16 bytes. -/
def slhHash (seed : List Byte) (a : SlhAddr) (m : List Byte) : List Byte :=
  (sha256 (seed ++ List.replicate 48 0 ++ a.bytes ++ m)).take 16

/-- Digit i of b bits of some bytes, from the highest bit down. -/
def slhDigit (bs : List Byte) (b i : Nat) : Nat := beValue bs / 2 ^ (8 * bs.length - b * (i + 1)) % 2 ^ b

/-- Piece i of 16 bytes. -/
def slhPiece (sig : List Byte) (i : Nat) : List Byte := (sig.drop (16 * i)).take 16

/-- The root above a node by an authentication path of 16-byte pieces; `index` is the node's place in its level, and
`low` says on which side it lies. -/
def slhClimb (seed : List Byte) (a : SlhAddr) : Nat → Nat → Nat → List (List Byte) → List Byte → List Byte
  | _, _, _, [], node => node
  | height, low, index, p :: ps, node =>
    let a : SlhAddr := { a with w2 := height, w3 := index / 2 }
    slhClimb seed a (height + 1) (low / 2) (index / 2) ps (slhHash seed a (if low % 2 = 0 then node ++ p else p ++ node))

/-- A WOTS+ chain: n steps from a position. -/
def slhChain (seed : List Byte) (a : SlhAddr) : Nat → Nat → List Byte → List Byte
  | 0, _, x => x
  | n + 1, j, x => slhChain seed a n (j + 1) (slhHash seed { a with w3 := j } x)

/-- The WOTS+ public key from a signature of 35 pieces on a 16-byte message. -/
def slhWots (seed : List Byte) (a : SlhAddr) (sig m : List Byte) : List Byte :=
  let ds := (List.range 32).map (slhDigit m 4)
  let sum := ds.foldl (fun c x => c + (15 - x)) 0
  let all := ds ++ (List.range 3).map (slhDigit (beBytes 2 (16 * sum)) 4)
  slhHash seed { a with kind := 1, w2 := 0, w3 := 0 }
    (all.zipIdx.flatMap (fun e => slhChain seed { a with w2 := e.2 } (15 - e.1) e.1 (slhPiece sig e.2)))

/-- The XMSS root from a signature of 44 pieces by leaf `leaf` of a tree. -/
def slhXmss (seed : List Byte) (layer tree leaf : Nat) (sig m : List Byte) : List Byte :=
  let node := slhWots seed ⟨layer, tree, 0, leaf, 0, 0⟩ sig m
  slhClimb seed ⟨layer, tree, 2, 0, 0, 0⟩ 1 leaf leaf ((List.range 9).map (fun i => slhPiece sig (35 + i))) node

/-- The root of the hypertree from its signature: layer after layer. -/
def slhTree (seed : List Byte) : Nat → Nat → Nat → Nat → List Byte → List Byte → List Byte
  | 0, _, _, _, _, m => m
  | n + 1, layer, tree, leaf, sig, m =>
    slhTree seed n (layer + 1) (tree / 512) (tree % 512) (sig.drop 704) (slhXmss seed layer tree leaf sig m)

/-- The FORS public key from a signature of 14 times 13 pieces. -/
def slhFors (seed : List Byte) (tree leaf : Nat) (sig md : List Byte) : List Byte :=
  let a : SlhAddr := ⟨0, tree, 3, leaf, 0, 0⟩
  slhHash seed { a with kind := 4 } ((List.range 14).flatMap (fun i =>
    let x := slhDigit md 12 i
    let node := slhHash seed { a with w3 := 4096 * i + x } (slhPiece sig (13 * i))
    slhClimb seed a 1 x (4096 * i + x) ((List.range 12).map (fun j => slhPiece sig (13 * i + 1 + j))) node))

/-- Whether a signature of 7,856 bytes by a 32-byte public key over a message verifies (R364); with no context string, as
the pure form has it. -/
def slhVerify (key m sig : List Byte) : Bool :=
  let seed := key.take 16
  let r := sig.take 16
  let digest := sha256 (r ++ seed ++ sha256 (r ++ key ++ [0, 0] ++ m) ++ [0, 0, 0, 0])
  let tree := beValue ((digest.drop 21).take 7) % 2 ^ 54
  let leaf := beValue ((digest.drop 28).take 2) % 2 ^ 9
  sig.length == 7856 && key.length == 32 &&
    slhTree seed 7 0 tree leaf (sig.drop (16 + 16 * 182)) (slhFors seed tree leaf (sig.drop 16) (digest.take 21)) == key.drop 16

end Sys2Proof.Machine
end

