-- ==== Sys2Proof/Machine/LaneMem.lean ====
section
/-!
DEFINITION. Lane loads, stores, LDT, atomics, fences and prefetches (09_memory_instructions.md R191 to R194,
R197 to R204; 04_ordering.md R92 to R99; 05_facet_streams_and_rays.md R132).
-/
namespace Sys2Proof.Machine

/-! ## Reading bytes -/

/-- What a read comes to: its bytes, or how the lane's part of the instruction ends instead. -/
inductive Got where
  | val (s : State) (bs : List Byte)
  | stop (r : LaneRes)
  deriving DecidableEq, Repr

/-- The read requests of remote chunks. -/
def readAsks (chunks : List (Nat × Nat)) : List (Nat × Nat × RemoteReq) :=
  chunks.map (fun ch => (ch.1, ch.2, .read (bitsOf ch.1 0 33) ch.2))

/-- The failure of a remote access (R334 CAUSE 6; DEDUCED, log 35). -/
def remoteFail : XFail := ⟨6, 0, false⟩

/-- How a lane's access goes on once its path is known (R380): a request that has not left leaves, and the bytes are not
here before every reply is; a poisoned one traps (R75, R346). -/
def accessBytes (c : Ctx) (kind : ReqKind) (l a n : Nat) (ask : List Place → List (Nat × Nat) → List (Nat × Nat × RemoteReq)) :
    Access → Except LaneRes (State × List Place)
  | .trap s cause info => .error (.trap s cause info)
  | .park s va f => .error (.park s va kind.access f)
  | .ok s ps _ =>
    let remote := (s.grpOf c).remote
    let held := s.begin c ⟨l, c.grp.word, kind, a, n, ps, none⟩
    match remoteState remote kind l ps with
    | .ask chunks => .error (.wait held (ask ps chunks))
    | .waiting => .error (.wait held [])
    | .failed pa => .error (.park s (a + ps.idxOf (.phys pa)) kind.access remoteFail)
    | .ready => if remoteLost remote kind l ps then .error (.trap s causePoison 0) else .ok (s, ps)

/-- The bytes that a lane's load returns (R191, R193, R99, R380): as memory stands in `s0`, or as noted earlier; walks act on
`s`. What the group had noted of the sectors is used up. -/
def readLane (s0 s : State) (c : Ctx) (l a n : Nat) : Got :=
  match accessBytes c .read l a n (fun _ => readAsks) (lanePath s c .read l a n) with
  | .error r => .stop r
  | .ok (s, ps) => .val (s.modGroup c.t c.g (·.dropEarly (sectorsOf ps))) (ps.map (s.byteBy c .read l (s0.loadPlace c)))

/-- A read as a computation that may end the lane's part. -/
def Got.get (g : Got) : Except LaneRes (State × List Byte) :=
  match g with
  | .val s bs => .ok (s, bs)
  | .stop r => .error r

/-- A lane's part that ends as a computation did. -/
def LaneRes.of : Except LaneRes State → LaneRes
  | .ok s => .done s
  | .error r => r

/-! ## LD (R192, R193) -/

/-- A value's 32-bit words, lowest first. -/
def valueWords (v : Nat) : Nat → List Word
  | 0 => []
  | n + 1 => BitVec.ofNat 32 v :: valueWords (v / 2 ^ 32) n

/-- The address of an LM word for a lane (R193). -/
def lmAddress (G : Group) (L : Lane) (x : Opd) (o : BitVec 8) (n : Nat) : Nat :=
  addOffset (G.pairVal L x) (o.toInt * n)

/-- A load of n bytes by each active lane (R193): all lanes read the bytes as the instruction finds them (R194). -/
def load (i : Instr) (e : Bool) (x : Opd) (o : BitVec 8) (n : Nat) (put : Nat → Lane → Lane) (s : State) : Out :=
  laneWord i e (fun c s1 l =>
    match readLane s s1 c l (lmAddress c.grp (c.grp.lane l) x o n) n with
    | .stop r => r
    | .val s1 bs => .done (s1.modLane c.t c.g l (put (leValue bs)))) s

/-- LD.b (R192, R193): zero-extended. -/
def execLdB (e : Bool) (d x : Opd) (o : BitVec 8) (s : State) : Out :=
  load (.ldB e d x o) e x o 1 (fun v L => L.result d (BitVec.ofNat 32 v)) s
/-- LD.h (R192, R193): zero-extended. -/
def execLdH (e : Bool) (d x : Opd) (o : BitVec 8) (s : State) : Out :=
  load (.ldH e d x o) e x o 2 (fun v L => L.result d (BitVec.ofNat 32 v)) s
/-- LD.w (R192, R193). -/
def execLdW (e : Bool) (d x : Opd) (o : BitVec 8) (s : State) : Out :=
  load (.ldW e d x o) e x o 4 (fun v L => L.result d (BitVec.ofNat 32 v)) s
/-- LD.d (R192, R193): a pair. -/
def execLdD (e : Bool) (d x : Opd) (o : BitVec 8) (s : State) : Out :=
  load (.ldD e d x o) e x o 8 (fun v L => L.results d (valueWords v 2)) s
/-- LD.o (R192, R193): four registers. -/
def execLdO (e : Bool) (d x : Opd) (o : BitVec 8) (s : State) : Out :=
  load (.ldO e d x o) e x o 16 (fun v L => L.results d (valueWords v 4)) s

/-! ## ST (R192 to R194) -/

/-- The bytes that an access of n bytes leaves at the places of its address. -/
def pairPlaces (ps : List Place) (n v : Nat) : List (Place × Byte) := ps.zip (toBytes n v)

/-- The write requests of remote chunks, with the bytes that places take. -/
def writeAsks (bs : List (Place × Byte)) (chunks : List (Nat × Nat)) : List (Nat × Nat × RemoteReq) :=
  chunks.map (fun ch => (ch.1, ch.2, .write (bitsOf ch.1 0 33)
    ((List.range ch.2).map (fun i => (latestByte [bs] (.phys (ch.1 + i))).getD 0))))

/-- Whether a place lies in another device's memory. -/
def Place.remote : Place → Bool
  | .phys a => remotePa a
  | _ => false

/-- Bytes stored at a virtual address in the name of a lane (R193, R238): those of this device enter the store FIFO,
whose last entry is the instruction's; those of another device are written there before the lane goes on (R380;
DEDUCED, log 41). -/
def writeBytes (s : State) (c : Ctx) (l a : Nat) (bs : List Byte) : Except LaneRes State :=
  (accessBytes c .write l a bs.length (fun ps => writeAsks (ps.zip bs)) (lanePath s c .write l a bs.length)).map fun r =>
    r.1.modGroup c.t c.g (·.storeBytes ((r.2.zip bs).filter (fun b => !b.1.remote)))

/-- Bytes stored by a lane; a helper lane's have no effect (R132; DEDUCED, log 20). -/
def writeLane (s : State) (c : Ctx) (l a : Nat) (bs : List Byte) : Except LaneRes State :=
  if (c.grp.lane l).helper then .ok s else writeBytes s c l a bs

/-- A store of n bytes by an active lane. -/
def storeLane (c : Ctx) (a n v : Nat) (s : State) (l : Nat) : LaneRes :=
  .of ((writeLane s c l a (toBytes n v)).map fun s => s.modLane c.t c.g l (·.latch none))

/-- A word whose stores make one entry of the store FIFO: opened before its lanes run, and dropped again when
it took no bytes. -/
def storeWord (i : Instr) (e : Bool) (f : Ctx → State → Nat → LaneRes) (s : State) : Out :=
  word i (fun _ => true) (fun c =>
    let r := runLanes (lanePart i c (f c)) c.lanes (Ran.init (s.modGroup c.t c.g (·.openEntry)))
    finish s c e { r with s := r.s.modGroup c.t c.g (·.closeEntry) } (fun _ => c.pc + 4)) s

/-- A store of n bytes: the value of d for the lane, its pair or its block of four. -/
def store (i : Instr) (e : Bool) (d x : Opd) (o : BitVec 8) (n : Nat) (s : State) : Out :=
  storeWord i e (fun c s l =>
    let L := c.grp.lane l
    let v := if n ≤ 4 then (c.grp.laneVal L d).toNat
      else leValue ((List.range (n / 4)).flatMap (fun j => toBytes 4 (c.grp.blockVal L d j).toNat))
    storeLane c (lmAddress c.grp L x o n) n v s l) s

/-- ST.b (R192, R193): the low 8 bits of d; code 0xFF reads q4. -/
def execStB (e : Bool) (d x : Opd) (o : BitVec 8) (s : State) : Out := store (.stB e d x o) e d x o 1 s
/-- ST.h (R192, R193): the low 16 bits of d. -/
def execStH (e : Bool) (d x : Opd) (o : BitVec 8) (s : State) : Out := store (.stH e d x o) e d x o 2 s
/-- ST.w (R192, R193). -/
def execStW (e : Bool) (d x : Opd) (o : BitVec 8) (s : State) : Out := store (.stW e d x o) e d x o 4 s
/-- ST.d (R192, R193): a pair. -/
def execStD (e : Bool) (d x : Opd) (o : BitVec 8) (s : State) : Out := store (.stD e d x o) e d x o 8 s
/-- ST.o (R192, R193): four registers. -/
def execStO (e : Bool) (d x : Opd) (o : BitVec 8) (s : State) : Out := store (.stO e d x o) e d x o 16 s

/-! ## LDT (R202 to R204) -/

/-- The source bits of an element of a matrix operand (R204): line i, position k, as bit offsets from a. -/
def ldtBit (T : Bool) (w S i k : Nat) : Nat :=
  if T then 8 * (k * S) + i * w else 8 * (i * S) + k * w

/-- An element's value within the operand's bytes: a nibble, a byte or two bytes. -/
def ldtElement (buf : List Byte) (w bit : Nat) : Nat :=
  leValue ((buf.drop (bit / 8)).take 2) / 2 ^ (bit % 8) % 2 ^ w

/-- Word j of lane l (R203): e consecutive positions of line l mod 16 in chunk 2j + ⌊l / 16⌋. -/
def ldtWord (buf : List Byte) (T : Bool) (w S l j : Nat) : Word :=
  let e := 32 / w
  let k0 := (2 * j + l / 16) * e
  BitVec.ofNat 32 ((List.range e).foldl
    (fun v q => v + ldtElement buf w (ldtBit T w S (l % 16) (k0 + q)) * 2 ^ (w * q)) 0)

/-- The bytes that an operand spans (R204). -/
def ldtSpan (T : Bool) (w S : Nat) : Nat := if T then (512 / w - 1) * S + 2 * w else 15 * S + 64

/-- LDT (R202 to R204): one group's matrix operand from scratchpad. -/
def execLdt (e : Bool) (d x : Opd) (t : BitVec 1) (w : BitVec 2) (st : BitVec 5) (s : State) : Out :=
  laneWord (.ldt e d x t w st) e (fun c s1 l =>
    let T := t == 1#1
    let wid := 4 * 2 ^ w.toNat
    let S := 16 * (st.toNat + 1)
    let a := c.grp.sPair x.num
    let n := ldtSpan T wid S
    if !inWindow a || a % 16 != 0 then .trap s1 causeIllegal 0 else
    match readLane s s1 c l a n with
    | .stop r => r
    | .val s1 bs =>
      .done (s1.modLane c.t c.g l (·.results d ((List.range 8).map (ldtWord bs T wid S l))))) s

/-! ## ATOM (R198 to R200) -/

/-- The value that an atomic writes (R199): the old value, the operand, the new value of a cas, for 8 n bits;
`nat` takes min and max as unsigned. -/
def atomNew (n : Nat) (fn : BitVec 3) (nat : Bool) (old val new : Nat) : Nat :=
  let key (v : Nat) : Int := if nat then v else signExtend v (8 * n)
  match fn.toNat with
  | 0 => (old + val) % 2 ^ (8 * n)
  | 1 => if key val < key old then val else old
  | 2 => if key old < key val then val else old
  | 3 => old &&& val
  | 4 => old ||| val
  | 5 => old ^^^ val
  | 6 => val
  | _ => if old = val then new else old

/-- An atomic's operand and new value (R198), for a lane: n bytes each, from d upward. -/
def atomOperands (G : Group) (L : Lane) (d : Opd) (n : Nat) : Nat × Nat :=
  let at_ (j : Nat) : Nat := leValue ((List.range (n / 4)).flatMap
    (fun k => toBytes 4 (G.blockVal L d (j + k)).toNat))
  (at_ 0, at_ (n / 4))

/-- The Steward of a physical address (R380): of cluster PA[16:12], or the next enabled one. -/
def State.stewardOf (s : State) (pa : Nat) : Nat :=
  ((List.range 32).map (fun i => (bitsOf pa 12 5 + i) % 32)).find? (fun c => !s.boot.disabled.getLsbD c) |>.getD 0

/-- The last 256 of a list. -/
def last256 {α : Type} (l : List α) : List α := l.drop (l.length - 256)

/-- A reply kept by a Steward for a source, the last 256 of them (R380). -/
def State.keep (s : State) (cluster source : Nat) (seq : BitVec 32) (old : BitVec 64) : State :=
  let ks := (Tab.get? s.stewards cluster).getD []
  let ks := if ks.any (fun k => k.source == source) then
      ks.map (fun k => if k.source = source then { k with replies := last256 (k.replies ++ [(seq, old)]) } else k)
    else ks ++ [⟨source, [(seq, old)]⟩]
  { s with stewards := Tab.put s.stewards cluster ks }

/-- The 34-bit number of a unit of this device: device number and source number (R383). -/
def State.unitKey (s : State) (source : Nat) : Nat := s.boot.devnum.toNat * 4096 + source

/-- An atomic of one of this device's cores on global memory: its Steward keeps the reply, under the core's next number
(R200, R380; DEDUCED, log 40). -/
def State.keepOwn (s : State) (core pa old : Nat) : State :=
  match Tab.get? s.cores core with
  | none => s
  | some k =>
    (s.keep (s.stewardOf pa) (s.unitKey core) k.atomSeq (BitVec.ofNat 64 old)).modCore core fun k =>
      { k with atomSeq := k.atomSeq + 1 }

/-- One atomic access of n bytes for a lane (R199): misalignment, the access path with the page type, then the read
and the write together, after the team's buffered stores to the sector (R200); the old bytes. -/
def atomAccess (c : Ctx) (a n : Nat) (fn : BitVec 3) (nat : Bool) (val new : Nat) (s : State) (l : Nat) : Got :=
  if a % n ≠ 0 then .stop (.trap s causeIllegal 0) else
  let ask (_ : List Place) (chunks : List (Nat × Nat)) := chunks.map (fun ch => (ch.1, ch.2,
    RemoteReq.atomic (bitsOf ch.1 0 33) (n == 8) fn nat (BitVec.ofNat 64 val) (BitVec.ofNat 64 new)))
  match accessBytes c .atomic l a n ask (lanePath s c .atomic l a n) with
  | .error r => .stop r
  | .ok (s, ps) =>
    let ss := sectorsOf ps
    let s := s.spillSectors c.t ss
    let old := ps.map (s.byteBy c .atomic l (s.readPlace c))
    let s := (s.performBytes c.t (pairPlaces ps n (atomNew n fn nat (leValue old) val new))).dropEarly c.t ss
    .val (match ps with
      | .phys pa :: _ => if remotePa pa then s else s.keepOwn c.team.pcore pa (leValue old)
      | _ => s) old

/-- A lane's part of an ATOM (R199). -/
def atomLane (c : Ctx) (d x : Opd) (n : Nat) (fn : BitVec 3) (nat : Bool) (s : State) (l : Nat) : LaneRes :=
  let L := c.grp.lane l
  let (val, new) := atomOperands c.grp L d n
  if L.helper then .done (s.modLane c.t c.g l (·.latch none)) else
  match atomAccess c (c.grp.pairVal L x) n fn nat val new s l with
  | .stop r => r
  | .val s old => .done (s.modLane c.t c.g l (·.results d (valueWords (leValue old) (n / 4))))

/-- Whether a scope qualifier covers the scopes wider than a team (R91): die, device and system. -/
def coversDie (scope : BitVec 3) : Bool := 2 ≤ scope.toNat

/-- The group's store FIFO before an ATOM or a fence (R98, R200); one that releases toward the die and wider has every
store performed, its own and what it can have read of its team's (R99). -/
def State.release (s : State) (c : Ctx) (wide : Bool) : State := if wide then s.drainGroup c.t c.g else s.drainFifo c.t c.g

/-- After an access that acquires toward the die and wider, the group's later loads read afresh (R99). -/
def Group.acquire (G : Group) (wide : Bool) : Group := if wide then G.clearEarly else G

/-- Whether an active lane's atomic is on global memory: on a scratchpad address every scope is the team's (R92). -/
def Ctx.reachesGlobal (c : Ctx) (x : Opd) : Bool :=
  c.lanes.any (fun l => !(c.grp.lane l).helper && !inWindow (c.grp.pairVal (c.grp.lane l) x))

/-- An ATOM of n bytes with an order and a scope: the FIFO drains first (R200), then each active lane's access is made
in ascending lane order (R93). -/
def atom (i : Instr) (e : Bool) (d : Opd) (x : BitVec 7) (n : Nat) (fn : BitVec 3) (nat : Bool) (order : BitVec 2)
    (scope : BitVec 3) (s : State) : Out :=
  word i (fun _ => true) (fun c =>
    let x := Opd.ofCode (2 * x.toNat)
    let wide := coversDie scope && c.reachesGlobal x
    let r := runLanes (lanePart i c (atomLane c d x n fn nat)) c.lanes (Ran.init (s.release c (order.getLsbD 1 && wide)))
    finish s c e { r with s := r.s.modGroup c.t c.g (·.acquire (order.getLsbD 0 && wide)) } (fun _ => c.pc + 4)) s

/-- ATOM.w (R198, R199). -/
def execAtomW (e : Bool) (d : Opd) (x : BitVec 7) (n : BitVec 1) (o : BitVec 3) (r : BitVec 2) (k : BitVec 3)
    (s : State) : Out :=
  atom (.atomW e d x n o r k) e d x 4 o (n == 1#1) r k s

/-- ATOM.d (R198, R199). -/
def execAtomD (e : Bool) (d : Opd) (x : BitVec 7) (n : BitVec 1) (o : BitVec 3) (r : BitVec 2) (k : BitVec 3)
    (s : State) : Out :=
  atom (.atomD e d x n o r k) e d x 8 o (n == 1#1) r k s

/-! ## FENCE and PRF -/

/-- The stores that a fence performs (R98, R99): the group's FIFO drains to its team; at die scope and wider every store of
the team is performed, or of a fence that acquires only, those of other groups: the group can have read them, and its own
may stay unseen. -/
def State.fenceStores (s : State) (c : Ctx) (k : BitVec 2) (wide : Bool) : State :=
  if wide && k == 0#2 then (s.drainFifo c.t c.g).spillOthers c.t c.g else s.release c wide

/-- FENCE (R201): its stores are performed, and after one at die scope or wider that does not release only, the group's
later loads read afresh (R99). -/
def execFence (e : Bool) (k : BitVec 2) (sc : BitVec 3) (s : State) : Out :=
  word (.fence e k sc) (fun _ => true) (fun c =>
    finish s c e
      { Ran.init ((s.fenceStores c k (coversDie sc)).modGroup c.t c.g fun G =>
          (G.acquire (coversDie sc && k != 1#2)).mapLanes c.lanes (fun _ L => L.latch none)) with
        done := c.lanes } (fun _ => c.pc + 4)) s

/-- PRF (R77, R197): a prefetch changes no state; it is dropped. -/
def execPrf (e : Bool) (k : BitVec 1) (x : Opd) (s : State) : Out :=
  aluWord (.prf e k x) e (fun _ _ L => L.latch none) s

end Sys2Proof.Machine
end

