-- ==== Sys2Proof/Machine/Lod.lean ====
section
/-!
DEFINITION. LOD resources, LDL and the guestbook (03_memories_and_lod.md R78 to R89; 09_memory_instructions.md
R195, R196; 23_translation_and_residency.md R340).
-/
namespace Sys2Proof.Machine

/-! ## The guestbook (R86 to R89, R340) -/

/-- A ring that drops an entry (R87, R340). -/
def GbRing.dropped (r : GbRing) : GbRing :=
  { r with ovf := true, ovfCount := if r.ovfCount = BitVec.allOnes 32 then r.ovfCount else r.ovfCount + 1 }

/-- A guestbook entry (R86). -/
def gbEntry (resid source level kind tile stamp : Nat) : Nat :=
  resid * 2 ^ 108 + source * 2 ^ 96 + level * 2 ^ 92 + kind * 2 ^ 90 + tile * 2 ^ 64 + stamp % 2 ^ 64

/-- A key put into a duplicate filter that holds the last 64 (R87). -/
def filterPut (f : List GbKey) (k : GbKey) : List GbKey := (if f.length < 64 then f else f.drop 1) ++ [k]

/-- STAMP and SOURCE of an entry. -/
def gbStamp (e : BitVec 128) : Nat := (e.extractLsb' 0 64).toNat
def gbSource (e : BitVec 128) : Nat := (e.extractLsb' 96 12).toNat

/-- An entry put among those that wait to be placed: in order of STAMP, at one STAMP in order of SOURCE, and at one
SOURCE in the order of their appends (R89). -/
def guestInsert (e : BitVec 128) : List (BitVec 128) → List (BitVec 128)
  | [] => [e]
  | x :: xs =>
    if gbStamp e < gbStamp x ∨ (gbStamp e = gbStamp x ∧ gbSource e < gbSource x) then e :: x :: xs
    else x :: guestInsert e xs

/-- The entries that a ring holds and software has not consumed, those not placed yet among them (R87). -/
def GbRing.held (r : GbRing) : Nat := (r.produce - r.consume).toNat + r.waiting.length

/-- Append (R87): suppressed by the core's filter, dropped by a full or disabled ring, or taken by the ring with its key
in the filter. -/
def State.appendGuest (s : State) (part core ring kind resid level tile : Nat) : State :=
  let key : GbKey := ⟨ring, resid, level, tile⟩
  match Tab.get? s.cores core, Tab.get? s.parts part with
  | some k, some p =>
    match Tab.get? p.rings ring with
    | none => s
    | some r =>
      if k.filter.contains key then s
      else if !r.en || 2 ^ r.cap.toNat ≤ r.held then
        s.modPart part fun p => { p with rings := Tab.put p.rings ring r.dropped }
      else
        let e := BitVec.ofNat 128 (gbEntry resid core level kind tile s.time)
        let s := s.modPart part fun p => { p with rings := Tab.put p.rings ring { r with waiting := guestInsert e r.waiting } }
        s.modCore core fun k => { k with filter := filterPut k.filter key }
  | _, _ => s

/-- One entry placed in a ring: written, then published with the message of the ring's vector (R89, R370; DEDUCED, log
47). -/
def State.placeGuest (s : State) (part ring : Nat) (e : BitVec 128) : State :=
  match (Tab.get? s.parts part).bind fun p => Tab.get? p.rings ring with
  | none => s
  | some r =>
    (s.writePhys (r.base.toNat + 16 * (r.produce.toNat % 2 ^ r.cap.toNat)) (toBytes 16 e.toNat)).modPart part fun p =>
      ({ p with rings := Tab.put p.rings ring { r with produce := r.produce + 1 } } : Part).interrupt (1 + ring)

/-- The entries that a ring holds ready, placed: those whose STAMP has passed, so that no other can come before them. -/
def State.placeGuests (s : State) (part ring : Nat) : State :=
  match (Tab.get? s.parts part).bind fun p => Tab.get? p.rings ring with
  | none => s
  | some r =>
    let ready := r.waiting.takeWhile (fun e => gbStamp e < s.time % 2 ^ 64)
    let s := s.modPart part fun p =>
      { p with rings := Tab.modify p.rings ring (fun r => { r with waiting := r.waiting.drop ready.length }) }
    ready.foldl (fun s e => s.placeGuest part ring e) s

/-- Every ring's ready entries placed. -/
def State.settleGuests (s : State) : State :=
  s.parts.foldl (fun s (p : Nat × Part) => p.2.rings.foldl (fun s (r : Nat × GbRing) =>
    if r.2.waiting = [] then s else s.placeGuests p.1 r.1) s) s

/-- Every entry of a partition's rings placed: before a grid of it retires, a save of it ends or a ring of it is disabled
(R342, R389, R392). Where one of them waits, a nanosecond passes first, so that no other has its STAMP (DESIGN CHOICE, log
47). -/
def State.placeAll (s : State) (part : Nat) : State :=
  match Tab.get? s.parts part with
  | none => s
  | some P =>
    if P.rings.all (fun r => r.2.waiting == []) then s
    else P.rings.foldl (fun s r => s.placeGuests part r.1) { s with time := s.time + 1 }

/-! ## LOD descriptors (R78 to R80) -/

/-- The fields of an LOD descriptor (R78); the sizes are the field values plus 1. -/
structure LodDesc where
  base : Nat
  map : Nat
  width : Nat
  height : Nat
  levels : Nat
  esize : Nat
  tlog : Nat
  ring : Nat
  resid : Nat
  zero : Bool
  deriving DecidableEq, Repr

/-- The descriptor that 64 bytes hold. -/
def LodDesc.ofNat (v : Nat) : LodDesc :=
  { base := bitsOf v 0 64, map := bitsOf v 64 64, width := bitsOf v 128 16 + 1, height := bitsOf v 144 16 + 1,
    levels := bitsOf v 160 4 + 1, esize := bitsOf v 164 3, tlog := bitsOf v 168 4, ring := bitsOf v 172 4,
    resid := bitsOf v 176 20, zero := bitsOf v 167 1 == 0 && bitsOf v 196 316 == 0 }

/-- The tile size TB in bytes (R79). -/
def LodDesc.tileBytes (d : LodDesc) : Nat := 2 ^ (2 * d.tlog) * 2 ^ d.esize

/-- TX(l) and TY(l) (R80). -/
def LodDesc.tx (d : LodDesc) (l : Nat) : Nat := (max 1 (d.width / 2 ^ l) + 2 ^ d.tlog - 1) / 2 ^ d.tlog
def LodDesc.ty (d : LodDesc) (l : Nat) : Nat := (max 1 (d.height / 2 ^ l) + 2 ^ d.tlog - 1) / 2 ^ d.tlog

/-- Whether a descriptor at an address is valid (R79). -/
def LodDesc.valid (d : LodDesc) (at_ : Nat) : Bool :=
  d.zero && d.esize ≤ 4 && d.tlog ≤ 8 && d.tileBytes ≤ 65536 && d.base % d.tileBytes == 0 &&
  d.tx 0 * d.ty 0 ≤ 2 ^ 24 && globalAddr d.base && globalAddr d.map && globalAddr at_

/-- LevelOffset(l) (R80). -/
def LodDesc.levelOffset (d : LodDesc) (l : Nat) : Nat :=
  (List.range l).foldl (fun o j => o + d.tx j * d.ty j * d.tileBytes) 0

/-- TexAddr(l, u, v) (R80), modulo 2^64. -/
def LodDesc.texAddr (d : LodDesc) (l u v : Nat) : Nat :=
  (d.base + d.levelOffset l + ((v / 2 ^ d.tlog) * d.tx l + u / 2 ^ d.tlog) * d.tileBytes
    + ((v % 2 ^ d.tlog) * 2 ^ d.tlog + u % 2 ^ d.tlog) * 2 ^ d.esize) % 2 ^ 64

/-- The tile index of level-0 coordinates in a level (R80, R82). -/
def LodDesc.tileOf (d : LodDesc) (l x y : Nat) : Nat :=
  (y / 2 ^ l / 2 ^ d.tlog) * d.tx l + x / 2 ^ l / 2 ^ d.tlog

/-- Data registers that an element fills (R196). -/
def LodDesc.dataRegs (d : LodDesc) : Nat := if d.esize ≤ 2 then 1 else if d.esize = 3 then 2 else 4

/-! ## LDL (R82, R196) -/

/-- What the element probes of a lane come to: the data with its level and code, or the end of the lane's
part. -/
inductive Probe where
  | data (s : State) (v level code : Nat)
  | stop (r : LaneRes)
  deriving DecidableEq, Repr

/-- A lane's part that waits, with a read of its word that is whole remembered: it is read once (R95, R196). -/
def LaneRes.keepRead (r : LaneRes) (c : Ctx) (l a : Nat) (bs : List Byte) : LaneRes :=
  match r with
  | .wait s asks => .wait (s.begin c ⟨l, c.grp.word, .read, a, bs.length, [], some bs⟩) asks
  | r => r

/-- A read of a lane's word that is made once, however often the word waits for other devices (R95, R196). -/
def readOnce (s0 s : State) (c : Ctx) (l a n : Nat) : Got :=
  match (c.grp.begunAt .read l a n).bind (·.bytes) with
  | some bs => .val s bs
  | none => readLane s0 s c l a n

/-- The element probes (R82): level after coarser level while the page does not translate; NONE when the
coarsest does not either. -/
def probeFrom (s0 : State) (c : Ctx) (d : LodDesc) (l x y : Nat) : Nat → State → Nat → Nat → Probe
  | 0, s, _, _ => .data s 0 15 3
  | fuel + 1, s, level, code =>
    match readLane s0 s c l (d.texAddr level (x / 2 ^ level) (y / 2 ^ level)) (2 ^ d.esize) with
    | .val s bs => .data s (leValue bs) level code
    | .stop (.park s _ _ _) => probeFrom s0 c d l x y fuel s (level + 1) 2
    | .stop r => .stop r

/-- A lane's part of an LDL once the descriptor is read (R82, R83, R196). -/
def ldlLane (s0 : State) (c : Ctx) (dst x : Opd) (d : LodDesc) (s : State) (l : Nat) : LaneRes :=
  let L := c.grp.lane l
  let lvl := min (c.grp.blockVal L x 2).toNat (d.levels - 1)
  let xx := min (c.grp.blockVal L x 0).toNat (d.width - 1)
  let yy := min (c.grp.blockVal L x 1).toNat (d.height - 1)
  let at_ := (d.map + d.tileOf 0 xx yy) % 2 ^ 64
  match readOnce s0 s c l at_ 1 with
  | .stop r => r
  | .val s bs =>
    let m := min (leValue bs) (d.levels - 1)
    let first := max lvl m
    match probeFrom s0 c d l xx yy (d.levels - first) s first (if first = lvl then 0 else 1) with
    | .stop r => r.keepRead c l at_ bs
    | .data s v level code =>
      let status := level * 2 ^ 12 + lvl * 2 ^ 8 + code
      let s := s.modLane c.t c.g l fun L =>
        L.results dst (valueWords v d.dataRegs ++ [BitVec.ofNat 32 status])
      .done (if code = 0 ∨ L.helper then s
        else s.appendGuest c.grid.part c.team.pcore d.ring code d.resid lvl (d.tileOf lvl xx yy))

/-- LDL (R195, R196): the descriptor is read once, and every active lane shares the outcome of that read (DEDUCED,
log 46). -/
def execLdl (e : Bool) (d x p : Opd) (s : State) : Out :=
  word (.ldl e d x p) (fun _ => true) (fun c =>
    let at_ := c.grp.sPair p.num
    let first := c.lanes.headD 0
    let r := match readOnce s s c first at_ 64 with
      | .stop r => Ran.all c r
      | .val s1 bs =>
        let k := LodDesc.ofNat (leValue bs)
        if !k.valid at_ then Ran.all c (.trap s1 causeDescBad 0)
        else if k.esize = 4 ∧ d.num % 4 ≠ 0 then Ran.all c (.trap s1 causeIllegal 0)
        else if c.team.regs ≤ d.num + k.dataRegs then
          Ran.all c (.trap s1 causeRegRange (max d.num c.team.regs))
        else runLanes (fun u l => (ldlLane s c d x k u l).keepRead c first at_ bs) c.lanes (Ran.init s1)
    finish s c e r (fun _ => c.pc + 4)) s

end Sys2Proof.Machine
end

