-- ==== Sys2Proof/Machine/Uniform.lean ====
section
/-!
DEFINITION. Uniform moves, arithmetic, comparison, selection, loads and stores, control transfers and lane reads
(07_uniform_and_control.md R151 to R163).
-/
namespace Sys2Proof.Machine

/-- A uniform instruction with two sources (R155). -/
def uni2 (i : Instr) (e : Bool) (d x y : Opd) (op : Word → Word → Word) (s : State) : Out :=
  uniAlu i e (fun c G => G.result d (op (c.grp.uniVal x) (c.grp.uniVal y))) s

/-- UMOV (R154). -/
def execUmov (e : Bool) (d x : Opd) (s : State) : Out :=
  uniAlu (.umov e d x) e (fun c G => G.result d (c.grp.uniVal x)) s
/-- UMOVI (R154): imm16 sign-extended. -/
def execUmovi (e : Bool) (d : Opd) (i : BitVec 16) (s : State) : Out :=
  uniAlu (.umovi e d i) e (fun _ G => G.result d (i.signExtend 32)) s
/-- UMOVHI (R154): the upper half from imm16, the lower half kept. -/
def execUmovhi (e : Bool) (d : Opd) (i : BitVec 16) (s : State) : Out :=
  uniAlu (.umovhi e d i) e (fun c G => G.result d (i ++ (c.grp.uniVal d).extractLsb' 0 16)) s
/-- UADD (R154). -/
def execUadd (e : Bool) (d x y : Opd) (s : State) : Out :=
  uni2 (.uadd e d x y) e d x y (· + ·) s
/-- USUB (R154). -/
def execUsub (e : Bool) (d x y : Opd) (s : State) : Out :=
  uni2 (.usub e d x y) e d x y (· - ·) s
/-- UMUL (R154). -/
def execUmul (e : Bool) (d x y : Opd) (s : State) : Out :=
  uni2 (.umul e d x y) e d x y (· * ·) s
/-- UAND (R154). -/
def execUand (e : Bool) (d x y : Opd) (s : State) : Out :=
  uni2 (.uand e d x y) e d x y (· &&& ·) s
/-- UOR (R154). -/
def execUor (e : Bool) (d x y : Opd) (s : State) : Out :=
  uni2 (.uor e d x y) e d x y (· ||| ·) s
/-- UXOR (R154). -/
def execUxor (e : Bool) (d x y : Opd) (s : State) : Out :=
  uni2 (.uxor e d x y) e d x y (· ^^^ ·) s
/-- USHL (R154). -/
def execUshl (e : Bool) (d x y : Opd) (s : State) : Out :=
  uni2 (.ushl e d x y) e d x y shiftL s
/-- USHR (R154). -/
def execUshr (e : Bool) (d x y : Opd) (s : State) : Out :=
  uni2 (.ushr e d x y) e d x y shiftR s
/-- USAR (R154). -/
def execUsar (e : Bool) (d x y : Opd) (s : State) : Out :=
  uni2 (.usar e d x y) e d x y shiftA s
/-- UMIN.i32 (R154). -/
def execUminI32 (e : Bool) (d x y : Opd) (s : State) : Out :=
  uni2 (.uminI32 e d x y) e d x y minI s
/-- UMIN.n32 (R154). -/
def execUminN32 (e : Bool) (d x y : Opd) (s : State) : Out :=
  uni2 (.uminN32 e d x y) e d x y minN s
/-- UMAX.i32 (R154). -/
def execUmaxI32 (e : Bool) (d x y : Opd) (s : State) : Out :=
  uni2 (.umaxI32 e d x y) e d x y maxI s
/-- UMAX.n32 (R154). -/
def execUmaxN32 (e : Bool) (d x y : Opd) (s : State) : Out :=
  uni2 (.umaxN32 e d x y) e d x y maxN s
/-- UCMP.eq (R156). -/
def execUcmpEq (e : Bool) (d x y : Opd) (s : State) : Out :=
  uni2 (.ucmpEq e d x y) e d x y (fun a b => ofBool (a == b)) s
/-- UCMP.ne (R156). -/
def execUcmpNe (e : Bool) (d x y : Opd) (s : State) : Out :=
  uni2 (.ucmpNe e d x y) e d x y (fun a b => ofBool (a != b)) s
/-- UCMP.lt.i32 (R156). -/
def execUcmpLtI32 (e : Bool) (d x y : Opd) (s : State) : Out :=
  uni2 (.ucmpLtI32 e d x y) e d x y (fun a b => ofBool (a.slt b)) s
/-- UCMP.le.i32 (R156). -/
def execUcmpLeI32 (e : Bool) (d x y : Opd) (s : State) : Out :=
  uni2 (.ucmpLeI32 e d x y) e d x y (fun a b => ofBool (a.sle b)) s
/-- UCMP.lt.n32 (R156). -/
def execUcmpLtN32 (e : Bool) (d x y : Opd) (s : State) : Out :=
  uni2 (.ucmpLtN32 e d x y) e d x y (fun a b => ofBool (a.ult b)) s
/-- UCMP.le.n32 (R156). -/
def execUcmpLeN32 (e : Bool) (d x y : Opd) (s : State) : Out :=
  uni2 (.ucmpLeN32 e d x y) e d x y (fun a b => ofBool (a.ule b)) s
/-- USEL (R157): x when d ≠ 0, otherwise y. -/
def execUsel (e : Bool) (d x y : Opd) (s : State) : Out :=
  uniAlu (.usel e d x y) e
    (fun c G => G.result d (if c.grp.uniVal d != 0 then c.grp.uniVal x else c.grp.uniVal y)) s

/-! ## ULD and UST (R158) -/

/-- The address of a uniform memory word (R158). -/
def uniAddress (G : Group) (x : Opd) (o : BitVec 8) (n : Nat) : Nat := addOffset (G.sPair x.num) (o.toInt * n)

/-- A uniform load of n bytes: one access for the fragment, in the name of its lowest lane (R95, R158). -/
def uniLoad (i : Instr) (e : Bool) (x : Opd) (o : BitVec 8) (n : Nat) (put : Nat → Group → Group) (s : State) :
    Out :=
  uniWord i e (fun _ => true) (fun c =>
    match readLane s s c (c.lanes.headD 0) (uniAddress c.grp x o n) n with
    | .stop r => r
    | .val s bs => .done (s.modGroup c.t c.g (put (leValue bs)))) s

/-- ULD.w (R158). -/
def execUldW (e : Bool) (d x : Opd) (o : BitVec 8) (s : State) : Out :=
  uniLoad (.uldW e d x o) e x o 4 (fun v G => G.result d (BitVec.ofNat 32 v)) s
/-- ULD.d (R158). -/
def execUldD (e : Bool) (d x : Opd) (o : BitVec 8) (s : State) : Out :=
  uniLoad (.uldD e d x o) e x o 8 (fun v G => G.results d (valueWords v 2)) s

/-- Whether every active lane is a helper lane, whose stores and requests have no effect (R132). -/
def Ctx.helpers (c : Ctx) : Bool := c.lanes.all (fun l => (c.grp.lane l).helper)

/-- A uniform store of n bytes, in the name of the fragment's lowest lane (R158). -/
def uniStore (i : Instr) (e : Bool) (x : Opd) (o : BitVec 8) (n : Nat) (v : Group → Nat) (s : State) : Out :=
  uniWord i e (fun _ => true) (fun c =>
    let done (s : State) := s.modGroup c.t c.g (·.closeEntry.latchU none)
    if c.helpers then .done (s.modGroup c.t c.g (·.latchU none)) else
    .of ((writeBytes (s.modGroup c.t c.g (·.openEntry)) c (c.lanes.headD 0) (uniAddress c.grp x o n)
      (toBytes n (v c.grp))).map done)) s

/-- UST.w (R158). -/
def execUstW (e : Bool) (d x : Opd) (o : BitVec 8) (s : State) : Out :=
  uniStore (.ustW e d x o) e x o 4 (fun G => (G.uniVal d).toNat) s
/-- UST.d (R158). -/
def execUstD (e : Bool) (d x : Opd) (o : BitVec 8) (s : State) : Out :=
  uniStore (.ustD e d x o) e x o 8 (fun G => G.sPair d.num) s

/-! ## Uniform control transfers (R159, R160) -/

/-- The address that a word offset from a word names (R139), modulo 2^64. -/
def wordTarget (pc : Nat) (o : BitVec 16) : Nat := addOffset pc (4 * o.toInt)

/-- A uniform transfer: the target is checked before any program counter moves (R160); `f` acts on the group
when the transfer takes place. -/
def transfer (i : Instr) (target : Ctx → Nat) (f : Ctx → Group → Group) (s : State) : Out :=
  word i (fun _ => true) (fun c =>
    if codeAddress (target c) then
      finish s c true (Ran.all c (.done ((s.modGroup c.t c.g (f c)).markArrive c c.lanes))) (fun _ => target c)
    else trapWord s c causeIllegal 0) s

/-- UJMP (R159). -/
def execUjmp (o : BitVec 16) (s : State) : Out :=
  transfer (.ujmp o) (fun c => wordTarget c.pc o) (fun _ G => G.latchU none) s

/-- UBR (R159): the transfer when the condition holds, else the next word, which begins a run. -/
def uniBranch (i : Instr) (x : Opd) (o : BitVec 16) (takes : Word → Bool) (s : State) : Out :=
  word i (fun _ => true) (fun c =>
    let next := s.modGroup c.t c.g (·.latchU none)
    if !takes (c.grp.uniVal x) then finish s c true (Ran.all c (.done next)) (fun _ => c.pc + 4)
    else if codeAddress (wordTarget c.pc o) then
      finish s c true (Ran.all c (.done (next.markArrive c c.lanes))) (fun _ => wordTarget c.pc o)
    else trapWord s c causeIllegal 0) s

/-- UBR.z (R159). -/
def execUbrZ (x : Opd) (o : BitVec 16) (s : State) : Out := uniBranch (.ubrZ x o) x o (fun w => w == 0) s
/-- UBR.nz (R159). -/
def execUbrNz (x : Opd) (o : BitVec 16) (s : State) : Out := uniBranch (.ubrNz x o) x o (fun w => w != 0) s

/-- UCALL (R159): the pair and q1 receive the address of the next word. -/
def execUcall (x : Opd) (o : BitVec 16) (s : State) : Out :=
  transfer (.ucall x o) (fun c => wordTarget c.pc o)
    (fun c G => G.results x (valueWords ((c.pc + 4) % 2 ^ 64) 2)) s
/-- URET (R159). -/
def execUret (x : Opd) (s : State) : Out :=
  transfer (.uret x) (fun c => c.grp.sPair x.num) (fun _ G => G.latchU none) s
/-- UJR (R159). -/
def execUjr (x : Opd) (s : State) : Out :=
  transfer (.ujr x) (fun c => c.grp.sPair x.num) (fun _ G => G.latchU none) s

/-! ## UREADLANE and UFIRST (R162, R163) -/

/-- UREADLANE (R162): the v register of lane U(y)[4:0], active or not. -/
def execUreadlane (e : Bool) (d x y : Opd) (s : State) : Out :=
  uniAlu (.ureadlane e d x y) e
    (fun c G => G.result d ((c.grp.lane ((c.grp.uniVal y).toNat % 32)).vreg x.num)) s

/-- UFIRST (R163): the lowest active lane. -/
def execUfirst (e : Bool) (d : Opd) (s : State) : Out :=
  uniAlu (.ufirst e d) e (fun c G => G.result d (BitVec.ofNat 32 (c.lanes.headD 0))) s

end Sys2Proof.Machine
end

