-- ==== Sys2Proof/Machine/Facet.lean ====
section
/-!
DEFINITION. Facet streams, waystation records and the words that decode them (05_facet_streams_and_rays.md
R111 to R125; 12_geometry_instructions.md R237 to R243).
-/
namespace Sys2Proof.Machine

/-! ## Words that act lane by lane in the uniform set (R237) -/

/-- A geometry word that stores nothing: each active lane in ascending order, uniform q1 invalid. -/
def geoRead (i : Instr) (e : Bool) (f : Ctx → State → Nat → LaneRes) (s : State) : Out :=
  word i (fun _ => true) (fun c =>
    let r := runLanes (f c) c.lanes (Ran.init s)
    finish s c e { r with s := r.s.modGroup c.t c.g (·.latchU none) } (fun _ => c.pc + 4)) s

/-- A geometry word that can store: each active lane in ascending order, one entry of the store FIFO, uniform q1
invalid. -/
def geoWord (i : Instr) (e : Bool) (f : Ctx → State → Nat → LaneRes) (s : State) : Out :=
  word i (fun _ => true) (fun c =>
    let r := runLanes (f c) c.lanes (Ran.init (s.modGroup c.t c.g (·.openEntry)))
    finish s c e { r with s := r.s.modGroup c.t c.g (fun G => G.closeEntry.latchU none) } (fun _ => c.pc + 4)) s

/-! ## Fields of a record or context (R118) -/

/-- A field of a 512-byte record: lowest bit and width. -/
abbrev RField := Nat × Nat

/-- The value of a field. -/
def fget (r : Nat) (f : RField) : Nat := bitsOf r f.1 f.2

/-- The record with a field replaced. -/
def fset (r : Nat) (f : RField) (v : Nat) : Nat := r - fget r f * 2 ^ f.1 + v % 2 ^ f.2 * 2 ^ f.1

def fGen : RField := (0, 32)
def fBitoff : RField := (32, 32)
def fVcount : RField := (64, 32)
def fDa : RField := (96, 8)
def fDb : RField := (104, 8)
def fDo : RField := (112, 8)
def fDepth : RField := (120, 4)
def fSide : RField := (124, 1)
def fPend : RField := (125, 1)
def fMesh : RField := (320, 64)
def fRemain : RField := (384, 32)
def fWnext : RField := (416, 32)
def fClevel : RField := (448, 8)
def fDone : RField := (456, 1)
def fCheck : RField := (4064, 32)

/-- Stack entry e, and its parts da, db, do and side. -/
def fEntry (e : Nat) : RField := (128 + 24 * e, 24)
def fEntryD (e j : Nat) : RField := (128 + 24 * e + 6 * j, 6)
def fEntrySide (e : Nat) : RField := (128 + 24 * e + 18, 1)

/-- Component j of a window slot. -/
def fWindow (slot j : Nat) : RField := (896 + 96 * slot + 32 * j, 32)

/-- The fields that are zero in a stored record: PEND, the reserved bits and the fields of contexts. -/
def zeroFields : List RField :=
  [(125, 3), (320, 576), (3968, 96)] ++ (List.range 8).map (fun e => (128 + 24 * e + 19, 5))

/-! ## The check word (R118) -/

/-- One bit step of CRC-32C with the reflected polynomial. -/
def crcBit (x : BitVec 32) : BitVec 32 := if x.getLsbD 0 then (x >>> 1) ^^^ 0x82F63B78#32 else x >>> 1

/-- One byte taken into a CRC-32C. -/
def crcByte (x : BitVec 32) (b : Byte) : BitVec 32 :=
  (List.range 8).foldl (fun y _ => crcBit y) (x ^^^ b.setWidth 32)

/-- CRC-32C of some bytes. -/
def crc32c (bs : List Byte) : BitVec 32 := (bs.foldl crcByte (BitVec.allOnes 32)) ^^^ BitVec.allOnes 32

/-- The check word of a record: bytes 0x000 to 0x1FB, with bytes 0x028 to 0x06F taken as zero. -/
def checkWord (r : Nat) : Nat := (crc32c (toBytes 508 (fset r (320, 576) 0))).toNat

/-! ## Validity (R119) -/

/-- Whether a used distance is good. -/
def distanceOk (vcount d : Nat) : Bool := (1 ≤ d && d ≤ min 32 vcount) || (d == 33 && 33 ≤ vcount)

/-- The tests of R119 that apply to a context: DEPTH, distances and stack entries. -/
def contextOk (r : Nat) : Bool :=
  let n := fget r fVcount
  let depth := fget r fDepth
  depth ≤ 8 && [fDa, fDb, fDo].all (fun f => distanceOk n (fget r f)) &&
  (List.range 8).all (fun e =>
    if e < depth then (List.range 3).all (fun j => distanceOk n (fget r (fEntryD e j)))
    else fget r (fEntry e) == 0)

/-- All tests of R119 for a stored record. -/
def recordOk (r : Nat) : Bool :=
  fget r fCheck == checkWord r && zeroFields.all (fun f => fget r f == 0) && contextOk r

/-- Subcodes of FACET_BAD (R116). -/
def badInvalid : Nat := 1
def badOverflow : Nat := 2
def badUnderflow : Nat := 3
def badWindow : Nat := 4
def badDegenerate : Nat := 5
def badSyntax : Nat := 6
def badCheck : Nat := 7
def badStale : Nat := 8

/-! ## The decoder automaton (R113 to R115) -/

/-- Why a symbol does not complete: Bad(c), or the end of the lane's part at a stream read. -/
inductive SymStop where
  | bad (s : State) (sub : Nat)
  | lane (r : LaneRes)
  deriving DecidableEq, Repr

/-- A decode in progress: the state its reads left, and the context. -/
structure Dec where
  s : State
  r : Nat
  deriving DecidableEq, Repr

/-- A computation of the automaton. -/
abbrev DecM (α : Type) := Except SymStop α

/-- The next w bits of a stream at an address (R113): BITOFF advances. -/
def Dec.field (c : Ctx) (l sym : Nat) (w : Nat) (d : Dec) : DecM (Nat × Dec) :=
  if w = 0 then .ok (0, d) else
  let k := fget d.r fBitoff
  match readLane d.s d.s c l ((sym + k / 8) % 2 ^ 64) ((k % 8 + w + 7) / 8) with
  | .stop r => .error (.lane r)
  | .val s bs => .ok (bitsOf (leValue bs) (k % 8) w, ⟨s, fset d.r fBitoff (k + w)⟩)

/-- A correction (R114): a length, then a zigzag value. -/
def Dec.corr (c : Ctx) (l sym : Nat) (d : Dec) : DecM (Int × Dec) := do
  let (n, d) ← d.field c l sym 4
  let (z, d) ← d.field c l sym n
  pure (if z % 2 = 0 then (z / 2 : Int) else -(z / 2 : Int) - 1, d)

/-- A quantised vertex position: x, y, z modulo 2^32. -/
abbrev QPos := Nat × Nat × Nat

/-- Pos(d): the position of the vertex at a distance. -/
def Dec.pos (d : Dec) (dist : Nat) : DecM QPos :=
  let n := fget d.r fVcount
  if min 32 n < dist then .error (.bad d.s badWindow) else
  let slot := (n + 2 ^ 32 - dist) % 32
  .ok (fget d.r (fWindow slot 0), fget d.r (fWindow slot 1), fget d.r (fWindow slot 2))

/-- A distance as NewVertex leaves it: 33 stays. -/
def older (v : Nat) : Nat := if 1 ≤ v ∧ v ≤ 32 then v + 1 else v

/-- NewVertex(p). -/
def newVertex (r : Nat) (p : QPos) : Nat :=
  let n := fget r fVcount
  let r := [fDa, fDb, fDo].foldl (fun r f => fset r f (older (fget r f))) r
  let r := (List.range (min 8 (fget r fDepth))).foldl (fun r e =>
    (List.range 3).foldl (fun r j => fset r (fEntryD e j) (older (fget r (fEntryD e j)))) r) r
  let r := fset (fset (fset r (fWindow (n % 32) 0) p.1) (fWindow (n % 32) 1) p.2.1) (fWindow (n % 32) 2) p.2.2
  fset r fVcount (n + 1)

/-- A triangle as it is emitted: the positions and numbers of a, b and t. -/
structure FacetTri where
  pos : List QPos
  num : List Nat
  deriving DecidableEq, Repr

/-- Tri(dt, left). -/
def Dec.tri (d : Dec) (dt : Nat) (left : Bool) : DecM (FacetTri × Dec) := do
  let a := fget d.r fDa
  let b := fget d.r fDb
  let pa ← d.pos a
  let pb ← d.pos b
  let pt ← d.pos dt
  let n := fget d.r fVcount
  let num (v : Nat) : Nat := (n + 2 ^ 32 - v) % 2 ^ 32
  let r := if left then fset (fset d.r fDb dt) fDo b else fset (fset d.r fDa dt) fDo a
  let e := fget r fDepth
  if fget r fPend = 1 ∧ e = 8 then .error (.bad d.s badOverflow) else
  let r :=
    if fget r fPend = 1 then
      let (x, y, o) := if left then (dt, b, a) else (a, dt, b)
      let r := fset (fset (fset r (fEntryD e 0) x) (fEntryD e 1) y) (fEntryD e 2) o
      let r := fset r (fEntrySide e) (fget d.r fSide)
      fset (fset r fDepth (e + 1)) fPend 0
    else r
  pure (⟨[pa, pb, pt], [num a, num b, num dt]⟩, ⟨d.s, r⟩)

/-- The triangle of a new vertex, and the pivot turned. -/
def Dec.vertex (d : Dec) (p : QPos) : DecM (FacetTri × Dec) := do
  let side := fget d.r fSide
  let (t, d) ← Dec.tri ⟨d.s, newVertex d.r p⟩ 1 (side == 1)
  pure (t, ⟨d.s, fset d.r fSide (1 - side)⟩)

/-- A parallelogram component plus its correction, modulo 2^32. -/
def predict (a b o : Nat) (k : Int) : Nat := (((a : Int) + b - o + k) % (2 ^ 32 : Nat)).toNat

/-- One symbol (R115), REMAIN left to the caller. -/
def Dec.symbol (c : Ctx) (l sym : Nat) (d : Dec) : DecM (Option FacetTri × Dec) := do
  let (code, d) ← d.field c l sym 3
  match code with
  | 0 =>
    let (ax, ay, az) ← d.pos (fget d.r fDa)
    let (bx, by_, bz) ← d.pos (fget d.r fDb)
    let (ox, oy, oz) ← d.pos (fget d.r fDo)
    let (kx, d) ← d.corr c l sym
    let (ky, d) ← d.corr c l sym
    let (kz, d) ← d.corr c l sym
    let (t, d) ← d.vertex (predict ax bx ox kx, predict ay by_ oy ky, predict az bz oz kz)
    pure (some t, d)
  | 5 =>
    let (x, d) ← d.field c l sym 32
    let (y, d) ← d.field c l sym 32
    let (z, d) ← d.field c l sym 32
    let (t, d) ← d.vertex (x, y, z)
    pure (some t, d)
  | 4 =>
    if fget d.r fPend = 1 then .error (.bad d.s badSyntax)
    else if fget d.r fDepth = 8 then .error (.bad d.s badOverflow)
    else pure (none, ⟨d.s, fset d.r fPend 1⟩)
  | 3 =>
    let depth := fget d.r fDepth
    if fget d.r fPend = 1 then .error (.bad d.s badSyntax)
    else if depth = 0 then .error (.bad d.s badUnderflow)
    else
      let e := depth - 1
      let r := fset d.r fDepth e
      let r := fset (fset (fset r fDa (fget r (fEntryD e 0))) fDb (fget r (fEntryD e 1))) fDo (fget r (fEntryD e 2))
      pure (none, ⟨d.s, fset (fset r fSide (fget r (fEntrySide e))) (fEntry e) 0⟩)
  | 6 =>
    if fget d.r fPend = 1 then .error (.bad d.s badSyntax)
    else pure (none, ⟨d.s, fset d.r fWnext (fget d.r fWnext + 1)⟩)
  | 7 => .error (.bad d.s badInvalid)
  | k =>
    let (j, d) ← d.field c l sym 5
    let v := j + 1
    let _ ← d.pos v
    if v = fget d.r fDa ∨ v = fget d.r fDb ∨ v = fget d.r fDo then .error (.bad d.s badDegenerate)
    else
      let (t, d) ← d.tri v (k == 1)
      pure (some t, d)

/-- Step() (R115). -/
def Dec.step (c : Ctx) (l sym : Nat) (d : Dec) : DecM (Option FacetTri × Dec) := do
  let n := fget d.r fRemain
  if n = 0 then pure (none, ⟨d.s, fset d.r fDone 1⟩)
  else
    let (t, d) ← d.symbol c l sym
    pure (t, ⟨d.s, fset d.r fRemain (n - 1)⟩)

/-- What a run of steps comes to: the last completed context, whether a step has changed it, a triangle if there is
one, and how the run ended early. -/
structure Stepped where
  s : State
  r : Nat
  moved : Bool
  tri : Option FacetTri
  stop : Option SymStop
  deriving DecidableEq, Repr

/-- Steps until a triangle, DONE, an early end, or the fuel's count of symbols (R240 step 3). -/
def Dec.steps (c : Ctx) (l sym : Nat) : Nat → Bool → Dec → Stepped
  | 0, moved, d => ⟨d.s, d.r, moved, none, none⟩
  | fuel + 1, moved, d =>
    match d.step c l sym with
    | .error e => ⟨d.s, d.r, moved, none, some e⟩
    | .ok (some t, d) => ⟨d.s, d.r, true, some t, none⟩
    | .ok (none, d) => if fget d.r fDone = 1 then ⟨d.s, d.r, true, none, none⟩ else Dec.steps c l sym fuel true d

/-! ## Mesh headers (R111) -/

/-- Bits of a mesh header. -/
def hdrGen (h : Nat) : Nat := bitsOf h 128 32
def hdrSymcount (h : Nat) : Nat := bitsOf h 160 32
def hdrSym (h g : Nat) : Nat := bitsOf h (192 + 128 * (g % 2)) 64
def hdrWs (h g : Nat) : Nat := bitsOf h (256 + 128 * (g % 2)) 64
def hdrWscount (h : Nat) : Nat := bitsOf h 448 32
def hdrResid (h : Nat) : Nat := bitsOf h 480 20
def hdrRing (h : Nat) : Nat := bitsOf h 500 4
def hdrLodn (h : Nat) : Nat := bitsOf h 504 4
def hdrLod (h j : Nat) : Nat := bitsOf h (512 + 64 * j) 64

/-- A component's world coordinate (R112): ORG + STEP × q, rounded once (DEDUCED, log 45). -/
def worldCoord (org step q : Nat) : Nat :=
  let k := signExtend q 32
  match f32.value org, f32.value step with
  | .fin n1 m1 e1, .fin n2 m2 e2 => (addFin f32 .rne n1 m1 e1 (n2 != decide (k < 0)) (m2 * k.natAbs) e2).1
  | _, _ => (ffma f32 step (intToF f32 .rne k).1 org).1

/-! ## Records and the waystation cache (R121, R122) -/

/-- A lane's read as a computation. -/
def readL (s : State) (c : Ctx) (l a n : Nat) : Except LaneRes (State × Nat) := do
  let (s, bs) ← (readLane s s c l a n).get
  pure (s, leValue bs)

/-- Whether the pages of n bytes translate for a load (R125): a look that leaves nothing behind. -/
def pagesOk (s : State) (c : Ctx) (a n : Nat) : Bool :=
  if inWindow a then true else
  match placesFrom s (.core c.team.pcore) c.space .load 4 a n with
  | .ok _ _ _ => true
  | _ => false

/-- The waystation cache of a core. -/
def State.wayOf (s : State) (core : Nat) : List WayEntry :=
  match Tab.get? s.cores core with
  | some k => k.way
  | none => []

/-- A cached record at an address of generation g (R122). -/
def wayFind (s : State) (c : Ctx) (a g : Nat) : Option Nat :=
  ((s.wayOf c.team.pcore).find? (fun e => e.part == c.space.part && e.asid == c.space.asid && e.addr == a &&
    e.gen.toNat == g)).map (·.bytes.toNat)

/-- A record put into the cache of 64; a full one loses its oldest (log 14). -/
def wayPut (s : State) (c : Ctx) (a r : Nat) : State :=
  s.modCore c.team.pcore fun k =>
    { k with way := (if k.way.length < 64 then k.way else k.way.drop 1) ++
        [⟨c.space.part, c.space.asid, a, BitVec.ofNat 32 (fget r fGen), BitVec.ofNat 4096 r⟩] }

/-- A FACET_BAD trap of a lane. -/
def facetBad {α : Type} (s : State) (sub : Nat) : Except LaneRes α := .error (.trap s causeFacetBad sub)

/-- The address of record w of a header in the bank of generation g (R111). -/
def recordAddr (h g w : Nat) : Nat := (hdrWs h g + 512 * w) % 2 ^ 64

/-- The pages of n bytes must translate for a load: else the lane's part ends as the load does (R239). -/
def mustTranslate (s : State) (c : Ctx) (l a n : Nat) : Except LaneRes State :=
  if pagesOk s c a n then .ok s else (readL s c l a n).map (·.1)

/-- Record w of a header, which lies at an address whose pages translate, opened at generation g (R119, R121, R122): the
index, then the record from the cache, or from memory with its tests (DEDUCED, log 45). -/
def openRecord (s : State) (c : Ctx) (l h g w : Nat) : Except LaneRes (State × Nat) := do
  if hdrWscount h ≤ w then facetBad s badCheck else
  let a := recordAddr h g w
  let (s, r) ← match wayFind s c a g with
    | some r => pure (s, r)
    | none =>
      let (s, r) ← readL s c l a 512
      if recordOk r then pure (wayPut s c a r, r) else facetBad s badCheck
  if 1 < (hdrGen h + 2 ^ 32 - g) % 2 ^ 32 ∨ fget r fGen ≠ g then facetBad s badStale
  else pure (s, r)

/-! ## FACET.OPEN (R239, R125) -/

/-- An opened context before it is written: the record's bits with the fields that contexts have. -/
def openContext (r mesh remain clevel wnext done : Nat) : Nat :=
  fset (fset (fset (fset (fset (fset r fMesh mesh) fRemain remain) fClevel clevel) fPend 0) fDone done) fWnext wnext

/-- The context of an open that found no level resident (R125). -/
def closedContext (mesh g : Nat) : Nat := openContext (fset 0 fGen g) mesh 0 15 0 1

/-- The header at h and its record opened for chain level k of a leaf (R125). -/
def openLevel (s : State) (c : Ctx) (l h hd wsidx count g k : Nat) : Except LaneRes (State × Nat) := do
  let w := if k = 0 then wsidx else 0
  let (s, r) ← openRecord s c l hd (if k = 0 then g else hdrGen hd) w
  pure (s, openContext r h (if k = 0 then count else hdrSymcount hd) k w 0)

/-- The levels of a leaf from chain level k on (R125): the context to write, and whether the named mesh was
opened. `named` is the named mesh's header; a LODN above 8 counts as it is, and levels beyond the eighth have address 0
(DESIGN CHOICE, log 45). A level that is not resident ends the lane's part by its own failing read when LM = 0; whether
it is comes before what its index and record hold (DEDUCED, log 45). -/
def openLevels (c : Ctx) (l mesh wsidx count g : Nat) (lm : Bool) (named : Nat) :
    Nat → State → Nat → Nat → Except LaneRes (State × Nat × Bool)
  | 0, s, _, _ => .ok (s, closedContext mesh g, false)
  | fuel + 1, s, h, k => do
    let next (s : State) : Except LaneRes (State × Nat × Bool) :=
      if k = hdrLodn named then .ok (s, closedContext mesh g, false)
      else openLevels c l mesh wsidx count g lm named fuel s (if k < 8 then hdrLod named k else 0) (k + 1)
    if lm && !pagesOk s c h 128 then next s
    else
      let (s, hd) ← readL s c l h 128
      let a := recordAddr hd (if k = 0 then g else hdrGen hd) (if k = 0 then wsidx else 0)
      if lm && !pagesOk s c a 512 then next s
      else
        let s ← mustTranslate s c l a 512
        let (s, r) ← openLevel s c l h hd wsidx count g k
        pure (s, r, k == 0)

/-- The append that a leaf open makes when the named mesh itself was not opened (R125). -/
structure LeafAppend where
  ring : Nat
  resid : Nat
  index : Nat
  deriving DecidableEq, Repr

/-- A leaf open (R124, R125): the named header must translate; then level after coarser level; with the context comes the
append that is due. The reserved bits of the leaf record and of mesh headers are not looked at:
no rule says what a nonzero one does (DESIGN CHOICE, log 45). -/
def openLeaf (s : State) (c : Ctx) (l a g : Nat) : Except LaneRes (State × Nat × Option LeafAppend) := do
  let (s, leaf) ← readL s c l a 16
  let mesh := bitsOf leaf 0 64
  let wsidx := bitsOf leaf 64 24
  let (s, hd) ← readL s c l mesh 128
  let (s, k, named) ← openLevels c l mesh wsidx (bitsOf leaf 88 24) g (bitsOf leaf 112 1 == 1) hd 16 s mesh 0
  pure (s, k, if named then none else some ⟨hdrRing hd, hdrResid hd, wsidx⟩)

/-- A context's address (R238, R239): a multiple of 512 in the window, and within the limit. What its loads and stores
check besides is checked when they are made. -/
def contextAt (s : State) (c : Ctx) (l : Nat) (x : Opd) : Except LaneRes Nat :=
  let a := c.grp.pairVal (c.grp.lane l) x
  if !inWindow a || a % 512 != 0 then .error (.trap s causeIllegal 0)
  else if scratchBad a 512 c.team.limit then .error (.trap s causeScratchRange (scratchInfo a 512 c.team.limit))
  else .ok a

/-- The result word (R241). -/
def resultWord (r : Nat) (t : Bool) : Word :=
  BitVec.ofNat 32 (fget r fClevel * 256 + fget r fDone * 2 + (if t then 1 else 0))

/-- A lane's part of FACET.OPEN (R239). -/
def openLane (c : Ctx) (d x : Opd) (s : State) (l : Nat) : LaneRes := .of do
  let L := c.grp.lane l
  let reg (j : Nat) : Nat := (c.grp.blockVal L x j).toNat
  let g := reg 4
  let at_ := reg 2 + 2 ^ 32 * reg 3
  if 1 < reg 5 then .error (.trap s causeIllegal 0)
  else
    let a ← contextAt s c l x
    let (s, k, due) ←
      if reg 5 = 0 then openLeaf s c l at_ g
      else do
        let (s, hd) ← readL s c l at_ 128
        let w := reg 6
        let s ← mustTranslate s c l (recordAddr hd g w) 512
        let (s, r) ← openRecord s c l hd g w
        pure (s, openContext r at_ (if reg 7 = 0 then hdrSymcount hd else reg 7) 0 w 0, none)
    -- the context's store may still trap, and then nothing has been appended (R10)
    let s ← writeLane s c l a (toBytes 512 k)
    let s := match due with
      | some x => s.appendGuest c.grid.part c.team.pcore x.ring 0 x.resid 0 x.index
      | none => s
    pure (s.modLane c.t c.g l fun L => L.writeOut d (resultWord k false))

/-- FACET.OPEN (R239). -/
def execFacetOpen (e : Bool) (d x : Opd) (s : State) : Out :=
  geoWord (.facetOpen e d x) e (fun c => openLane c d x) s

/-! ## FACET.NEXT (R240, R241) -/

/-- The block that FACET.NEXT writes (R241). -/
def nextBlock (hd : Nat) (r : Nat) (t : Option FacetTri) : List Word :=
  (match t with
    | none => List.replicate 12 0
    | some t =>
      (t.pos.flatMap (fun p => [p.1, p.2.1, p.2.2].zipIdx.map (fun q =>
        BitVec.ofNat 32 (worldCoord (bitsOf hd (32 * q.2) 32) (bitsOf hd 96 32) q.1)))) ++
      t.num.map (BitVec.ofNat 32)) ++ [resultWord r t.isSome]

/-- A lane's part of FACET.NEXT (R240): the completed symbols stay in the context, however it ends; a context that no
step has changed is not stored (DEDUCED, log 45). -/
def nextLane (c : Ctx) (d x : Opd) (s : State) (l : Nat) : LaneRes := .of do
  let a ← contextAt s c l x
  let (s, r) ← readL s c l a 512
  let give (s : State) (ws : List Word) : State := s.modLane c.t c.g l (·.setVs d.num ws)
  if fget r fDone = 1 then pure (give s (nextBlock 0 r none))
  else if !contextOk r then facetBad s badCheck
  else
    let (s, hd) ← readL s c l (fget r fMesh) 128
    let run := Dec.steps c l (hdrSym hd (fget r fGen)) 16 false ⟨s, r⟩
    let keep (s : State) : Except LaneRes State := if run.moved then writeLane s c l a (toBytes 512 run.r) else .ok s
    match run.stop with
    | none =>
      let s ← keep run.s
      pure (give s (nextBlock hd run.r run.tri))
    | some (.bad s sub) =>
      let s ← keep s
      facetBad s sub
    | some (.lane (.park s va k f)) =>
      let s ← keep s
      .error (.park s va k f)
    | some (.lane (.trap s cause info)) =>
      let s ← keep s
      .error (.trap s cause info)
    | some (.lane r) => .error r

/-- FACET.NEXT (R240). -/
def execFacetNext (e : Bool) (d x : Opd) (s : State) : Out :=
  geoWord (.facetNext e d x) e (fun c => nextLane c d x) s

/-! ## FACET.MARK (R242) -/

/-- The record that a context makes at a generation (R242). -/
def markRecord (r g : Nat) : Nat :=
  let r := zeroFields.foldl (fun r f => fset r f 0) r
  let r := fset r fGen g
  fset r fCheck (checkWord r)

/-- FACET.MARK's generation for a lane: an s code, the lane's v register, or a uniform latch. -/
def markGen (G : Group) (L : Lane) (o : Opd) : Nat :=
  match o with
  | .v r => (L.vreg r.val).toNat
  | o => (G.uniVal o).toNat

/-- A lane's part of FACET.MARK (R242): the context's address is checked before the record's, in the order in which R242
names them (DEDUCED, log 45). -/
def markLane (c : Ctx) (g x y : Opd) (s : State) (l : Nat) : LaneRes := .of do
  let L := c.grp.lane l
  let ra := c.grp.pairVal L y
  let a ← contextAt s c l x
  if !globalAddr ra || ra % 512 != 0 then .error (.trap s causeIllegal 0)
  else
    let (s, r) ← readL s c l a 512
    if fget r fPend = 1 then facetBad s badSyntax
    else if !contextOk r then facetBad s badCheck
    else
      let s ← writeLane s c l ra (toBytes 512 (markRecord r (markGen c.grp L g)))
      pure (if L.helper then s else s.modCore c.team.pcore fun k =>
        { k with way := k.way.filter (fun e =>
            !(e.part == c.space.part && e.asid == c.space.asid && e.addr == ra)) })

/-- FACET.MARK (R242). -/
def execFacetMark (e : Bool) (g x y : Opd) (s : State) : Out :=
  geoWord (.facetMark e g x y) e (fun c => markLane c g x y) s

/-! ## MESH.BUMP (R243) -/

/-- MESH.BUMP (R243): one device-scope releasing atomic add of 1 to GEN, of team scope where the header lies in the
scratchpad (R92); the group's earlier stores come first (R200). -/
def execMeshBump (e : Bool) (d x : Opd) (s : State) : Out :=
  uniWord (.meshBump e d x) e (fun _ => true) (fun c =>
    let h := c.grp.sPair x.num
    if c.helpers then .done (s.modGroup c.t c.g (·.latchU none))
    else if h % 128 ≠ 0 then .trap s causeIllegal 0
    else
      let at_ := (h + 16) % 2 ^ 64
      match atomAccess c at_ 4 0 false 1 0 (s.release c (!inWindow at_)) (c.lanes.headD 0) with
      | .stop r => r
      | .val s old => .done (s.modGroup c.t c.g (·.result d (BitVec.ofNat 32 (leValue old))))) s

end Sys2Proof.Machine
end

