-- ==== Sys2Proof/Machine/LaneControl.lean ====
section
/-!
DEFINITION. Lane branches (07_uniform_and_control.md R160, R161; 20_runs_latches_prediction.md R294) and lane
control: EXIT, TRAP, rendezvous masks, barriers, convergence registers and barrier objects
(10_masks_and_barriers.md R205 to R222; 12_geometry_instructions.md R252; 24_traps_and_preemption.md R355).
-/
namespace Sys2Proof.Machine

/-! ## Lane branches -/

/-- The target of a branch (R139), modulo 2^64. -/
def branchTarget (pc : Nat) (off : Int) : Nat := addOffset pc (4 * off)

/-- The predicted taken set (R294). -/
def predicted (G : Group) (pc : Nat) (hint : BitVec 2) (active : BitVec 32) : BitVec 32 :=
  match hint.toNat with
  | 0 => Store.get G.history pc &&& active
  | 1 => active
  | _ => 0

/-- The fragments after a branch (R25). While lanes outside still belong to its ancestry, both sides carry the
decision in their names, so that those lanes find them by their own branches (R30); otherwise a split makes
two fresh names. -/
def Group.split (G : Group) (key : FragKey) (T N : List Nat) : Group :=
  if G.relatedOutside key (T ++ N) ≠ [] then
    let G := G.mapLanes T (fun _ L => { L with frag := ⟨key.base, key.trail ++ [true]⟩ })
    G.mapLanes N (fun _ L => { L with frag := ⟨key.base, key.trail ++ [false]⟩ })
  else if T = [] ∨ N = [] then G
  else
    let (G, kt) := G.freshKey
    let (G, kn) := G.freshKey
    let G := G.mapLanes T (fun _ L => { L with frag := kt })
    G.mapLanes N (fun _ L => { L with frag := kn })

/-- A lane branch (R161): every active lane decides for itself; the target is checked for each lane that would
take it (R160; DESIGN CHOICE, log 7). -/
def laneBranch (i : Instr) (hint : BitVec 2) (x : Opd) (o : BitVec 14) (takes : Word → Bool) (s : State) : Out :=
  word i (fun _ => true) (fun c =>
    let target := branchTarget c.pc o.toInt
    let good := c.sound i
    let want := good.filter (fun l => takes (c.laneValue x l))
    let bad := if globalAddr target then [] else want
    let T := want.filter (fun l => !(bad.contains l))
    let N := good.filter (fun l => !(want.contains l))
    let traps := c.lanes.filterMap (fun l =>
      match (c.grp.lane l).q.lost i.latches with
      | some n => some (l, causeLatchLost, n.val)
      | none => if bad.contains l then some (l, causeIllegal, 0) else none)
    let active := laneMask good
    let s1 := s.modGroup c.t c.g fun G =>
      let G := G.split c.key T N
      let G := G.mapLanes (T ++ N) (fun l L => { L.latch none with arrive := T.contains l })
      { G with pending := some ⟨BitVec.ofNat 64 c.pc, hint, active, predicted G c.pc hint active, laneMask T⟩ }
    finish s c true { Ran.init s1 with done := T ++ N, traps := traps }
      (fun l => if T.contains l then target else c.pc + 4)) s

/-- BRZ (R161). -/
def execBrz (h : BitVec 2) (x : Opd) (o : BitVec 14) (s : State) : Out :=
  laneBranch (.brz h x o) h x o (fun w => w == 0) s

/-- BRNZ (R161). -/
def execBrnz (h : BitVec 2) (x : Opd) (o : BitVec 14) (s : State) : Out :=
  laneBranch (.brnz h x o) h x o (fun w => w != 0) s

/-! ## EXIT and TRAP -/

/-- The places of a lane's colour at one sample's virtual address (R252): none where a later triangle's colour is there;
a colour for another device's memory is there before the lane goes on (DEDUCED, log 41). -/
def colourSample (c : Ctx) (l seq : Nat) (colour : Word) (s : State) (va : Nat) : Except LaneRes (State × Option (List Place)) :=
  let path : Access := match c.grp.begunAt .write l va 4 with
    | some b => .ok s b.places false
    | none => placesFrom s (.core c.team.pcore) c.space .store 2 va 4
  let later (ps : List Place) : Bool := match ps, Tab.get? s.cores c.team.pcore with
    | .phys pa :: _, some k => decide (seq < (Tab.get? k.colours pa).getD 0)
    | _, _ => false
  match path with
  | .ok u ps io =>
    if later ps then .ok (u, none) else
    (accessBytes c .write l va 4 (fun ps => writeAsks (pairPlaces ps 4 colour.toNat)) (.ok u ps io)).map fun r => (r.1, some r.2)
  | .park u a f => .error (.park u a .store f)
  | .trap u cause info => .error (.trap u cause info)

/-- The places of a lane's colours, sample by sample. -/
def colourPlaces (c : Ctx) (l seq : Nat) (colour : Word) : List Nat → State → Except LaneRes (State × List (List Place))
  | [], s => .ok (s, [])
  | va :: vas, s => do
    let (s, ps) ← colourSample c l seq colour s va
    let (s, pss) ← colourPlaces c l seq colour vas s
    pure (s, ps.toList ++ pss)

/-- A colour written at its places. -/
def State.putColour (s : State) (c : Ctx) (seq : Nat) (colour : Word) (ps : List Place) : State :=
  let s := s.performBytes c.t (pairPlaces ps 4 colour.toNat)
  match ps with
  | .phys pa :: _ => s.modCore c.team.pcore fun k => { k with colours := Tab.put k.colours pa seq }
  | _ => s

/-- The colours of a lane's coverage written (R252), once every sample's page translates: an address that does not parks the
lane at its EXIT, with no colour written (R10; log 19). -/
def colourLane (c : Ctx) (l seq : Nat) (colour : Word) (vas : List Nat) (s : State) : LaneRes :=
  .of ((colourPlaces c l seq colour vas s).map fun r => r.2.foldl (fun s ps => s.putColour c seq colour ps) r.1)

/-- A lane's part of EXIT before it ends: a shading lane's v15 becomes the colour of its samples (R252). -/
def exitLane (c : Ctx) (s : State) (l : Nat) : LaneRes :=
  match Tab.get? c.team.shade (32 * c.g + l) with
  | some sl => if (c.grp.lane l).helper then .done s
    else colourLane c l sl.seq ((c.grp.lane l).vreg 15) sl.samples s
  | none => .done s

/-- The samples whose colours have left for another device: a later triangle's colour is on its way there (R252). -/
def State.colourSent (s : State) (c : Ctx) (asks : List (Nat × Nat × Nat × RemoteReq)) : State :=
  asks.foldl (fun s a => match Tab.get? c.team.shade (32 * c.g + a.1) with
    | some sl => s.modCore c.team.pcore fun k => { k with colours := Tab.put k.colours a.2.1 sl.seq }
    | none => s) s

/-- EXIT (R212): lanes with flags to report take a STATUS trap (R355); the others end, and every rendezvous is
examined again. -/
def execExit (e : Bool) (s : State) : Out :=
  word (.exit e) (fun _ => true) (fun c =>
    let handler := s.handlerFor c.t c.g c.team c.grp
    let report := c.grp.statusLanes handler c.lanes
    let r := runLanes (exitLane c) (c.lanes.filter (fun l => !(report.contains l))) (Ran.init s)
    if r.waits then (s.awaitRemote c (r.s.grpOf c).began r.asks).colourSent c r.asks else
    let s := r.s.modGroup c.t c.g fun G => { (G.endLanes r.done).dropReplies c.lanes with runMask := 0 }
    let s := r.parks.foldl (fun s p => s.parkLane c p.1 p.2.1 p.2.2.1 p.2.2.2) s
    (s.statusTrap c.t c.g handler report c.pc c.pc).settle c.t) s

/-- TRAP (R213): cause TRAP with the user code on every active lane. -/
def execTrap (e : Bool) (n : BitVec 8) (s : State) : Out :=
  word (.trap e n) (fun _ => true) (fun c => trapWord s c causeTrap n.toNat e) s

/-! ## JOIN, LEAVE, WAIT, KREAD, KSET (R207 to R211) -/

/-- The bit of a meeting register for kj. -/
def meetBit (k : BitVec 8) : BitVec 12 := BitVec.ofNat 12 (2 ^ k.toNat)

/-- Lanes enrolled in kj (R207): the mask and the meeting registers together (R205). -/
def Group.joinMask (G : Group) (k : BitVec 8) (ls : List Nat) : Group :=
  let G := G.mapLanes ls (fun _ L => { L with meet := L.meet ||| meetBit k })
  { G with k := Store.set G.k k.toNat (Store.get G.k k.toNat ||| laneMask ls) }

/-- Lanes taken out of kj (R207). -/
def Group.leaveMask (G : Group) (k : BitVec 8) (ls : List Nat) : Group :=
  let G := G.mapLanes ls (fun _ L => { L with meet := L.meet &&& ~~~ meetBit k })
  { G with k := Store.set G.k k.toNat (Store.get G.k k.toNat &&& ~~~ laneMask ls) }

/-- kj set to a value on the lanes of the group that have not exited, with every meeting register (R211). -/
def Group.setMask (G : Group) (k : BitVec 8) (m : Word) : Group :=
  let v := m &&& laneMask G.liveLanes
  let G := G.mapLanes (List.range 32) (fun l L =>
    { L with meet := if v.getLsbD l then L.meet ||| meetBit k else L.meet &&& ~~~ meetBit k })
  { G with k := Store.set G.k k.toNat v }

/-- A word that changes masks: its effect, the next word for every active lane, and every WAIT examined again. -/
def maskWord (i : Instr) (e : Bool) (f : Ctx → Group → Group) (s : State) : Out :=
  word i (fun _ => true) (fun c =>
    let s1 := s.modGroup c.t c.g fun G => (f c G).mapLanes c.lanes (fun _ L => L.latch none)
    (finish s c e { Ran.init s1 with done := c.lanes } (fun _ => c.pc + 4)).settle c.t) s

/-- JOIN (R207). -/
def execJoin (e : Bool) (k : BitVec 8) (s : State) : Out :=
  maskWord (.join e k) e (fun c G => G.joinMask k c.lanes) s

/-- LEAVE (R207). -/
def execLeave (e : Bool) (k : BitVec 8) (s : State) : Out :=
  maskWord (.leave e k) e (fun c G => G.leaveMask k c.lanes) s

/-- Every active lane arrives at a holding word (R206): the fragment waits at a run boundary. -/
def State.arriveAt (s : State) (c : Ctx) (h : Hold) : State :=
  (s.modGroup c.t c.g fun G =>
    { (G.dropReplies c.lanes).mapLanes c.lanes (fun _ L => { L with hold := h, halt := false, q := Latches.invalid }) with
      runMask := 0, uq := Latches.invalid }).settle c.t

/-- WAIT (R208). -/
def execWait (k : BitVec 8) (s : State) : Out :=
  word (.wait k) (fun _ => true) (fun c => s.arriveAt c (.wait k.toNat)) s

/-- KREAD (R210): the mask as it stands, in every active lane. -/
def execKread (e : Bool) (d : Opd) (k : BitVec 8) (s : State) : Out :=
  aluWord (.kread e d k) e (fun c _ L => L.result d (Store.get c.grp.k k.toNat)) s

/-- KSET (R211): the lowest active lane's value; its latch alone is read, and a lost one traps every active
lane. -/
def execKset (e : Bool) (k : BitVec 8) (x : Opd) (s : State) : Out :=
  word (.kset e k x) (fun _ => true) (fun c =>
    let first := c.lanes.headD 0
    match (c.grp.lane first).q.lost (Instr.kset e k x).latches with
    | some n => trapWord s c causeLatchLost n.val
    | none =>
      let s1 := s.modGroup c.t c.g fun G =>
        (G.setMask k (c.laneValue x first)).mapLanes c.lanes (fun _ L => L.latch none)
      (finish s c e { Ran.init s1 with done := c.lanes } (fun _ => c.pc + 4)).settle c.t) s

/-! ## BAR, BARN, SIGN (R214 to R221) -/

/-- Every active lane arrives at a word that can trap later: the handler address is noted as it stands (R166). -/
def State.arriveHeld (s : State) (c : Ctx) (h : Hold) : State :=
  (s.modGroup c.t c.g fun G => { G with heldHandler := s.handlerFor c.t c.g c.team c.grp }).arriveAt c h

/-- BAR (R215). -/
def execBar (s : State) : Out := word .bar (fun _ => true) (fun c => s.arriveHeld c (.barrier teamBarrier 0)) s

/-- BARN (R217). -/
def execBarn (b k : BitVec 8) (s : State) : Out :=
  word (.barn b k) (fun _ => true) (fun c => s.arriveHeld c (.barrier b.toNat k.toNat)) s

/-- A convergence register with lanes of a group signed (R221). -/
def Conv.sign (r : Conv) (g : Nat) (m : BitVec 4) (ls : List Nat) : Conv :=
  { r with quartet := BitVec.ofNat 3 (g / 4), mask := m, fixed := true,
           signed := r.signed ||| BitVec.ofNat 128 ((laneMask ls).toNat * 2 ^ (32 * (g % 4))) }

/-- SIGN (R221). -/
def execSign (n : BitVec 8) (m : BitVec 4) (s : State) : Out :=
  word (.sign n m) (fun c => m.getLsbD (c.g % 4)) (fun c =>
    let r := c.team.convReg n.toNat
    if r.complete then s.waitUnit c
    else if r.fixed && (r.quartet.toNat != c.g / 4 || r.mask != m) then
      trapWord s c causeBarCount (1 + n.toNat * 16)
    else
      let s1 := s.modTeam c.t fun T => { T with conv := Tab.put T.conv n.toNat (r.sign c.g m c.lanes) }
      let s1 := s1.modGroup c.t c.g fun G => G.mapLanes c.lanes (fun _ L => L.latch none)
      (finish s c true { Ran.init s1 with done := c.lanes } (fun _ => c.pc + 4)).settle c.t) s

/-! ## WAITB and POLLB (R222, R253) -/

/-- A lane's read of a barrier object's count: the address checks, then a team-scope load. -/
def readCount (s0 s : State) (c : Ctx) (l a : Nat) : Got :=
  if !inWindow a || a % 16 != 0 then .stop (.trap s causeIllegal 0) else
  match readLane s0 s c l a 16 with
  | .stop r => .stop r
  | .val s bs => .val s (bs.take 5)

/-- WAITB (R222): the fragment leaves as a whole once every count that its lanes name is zero; its later loads read
afresh (R108). -/
def execWaitb (x : Opd) (s : State) : Out :=
  word (.waitb x) (fun _ => true) (fun c =>
    let count (l : Nat) : Got := readCount s s c l (c.grp.pairVal (c.grp.lane l) x)
    let r := runLanes (fun s l => match count l with
      | .stop r => r
      | .val _ _ => .done (s.modLane c.t c.g l (·.latch none))) c.lanes (Ran.init s)
    let owed := r.done.any (fun l => match count l with
      | .val _ bs => leValue bs != 0
      | .stop _ => false)
    if owed then
      if r.traps = [] then s.waitUnit c
      else finish s c true { Ran.init s with traps := r.traps } (fun _ => c.pc + 4)
    else finish s c true { r with s := r.s.modGroup c.t c.g (·.clearEarly) } (fun _ => c.pc + 4)) s

/-- POLLB (R222). -/
def execPollb (e : Bool) (d x : Opd) (s : State) : Out :=
  laneWord (.pollb e d x) e (fun c s1 l =>
    match readCount s s1 c l (c.grp.pairVal (c.grp.lane l) x) with
    | .stop r => r
    | .val s1 bs =>
      .done ((s1.modGroup c.t c.g (·.clearEarly)).modLane c.t c.g l
        (·.result d (BitVec.ofNat 32 (min (leValue bs) (2 ^ 32 - 1)))))) s

end Sys2Proof.Machine
end

