-- ==== Sys2Proof/Machine/Matrix.lean ====
section
/-!
DEFINITION. Format registers, the quartet step, accumulator tiles and the room key that a step spends
(11_matrix.md R223 to R236; 02_numbers.md R58 to R63; 22_queues_and_dispatch.md R322, R323).
-/
namespace Sys2Proof.Machine

/-! ## FMTSET (R223) -/

/-- FMTSET (R223): a valid descriptor, or the word traps and the register keeps its value. -/
def execFmtset (e : Bool) (n : BitVec 3) (x : Opd) (s : State) : Out :=
  uniWord (.fmtset e n x) e (fun _ => true) (fun c =>
    let v := c.grp.uniVal x
    if descValid v then
      .done (s.modGroup c.t c.g fun G => { G with f := Store.set G.f n.toNat v }.latchU none)
    else .trap s causeIllegal 0) s

/-! ## Accumulator tiles (R225, R226) -/

/-- The store index of slot (i, j) of a tile. -/
def slotIndex (z i j : Nat) : Nat := 1024 * z + 64 * i + j

/-- The slot that register m of lane l holds in a band (R226). -/
def bandSlot (z b l m : Nat) : Nat := slotIndex z (l % 16) (16 * b + 2 * m + l / 16)

/-- A tile's 1,024 slots replaced, by row and column. -/
def Group.setTile (G : Group) (z : Nat) (slots : List (BitVec 56)) : Group :=
  { G with z := Store.setRange G.z (1024 * z) slots }

/-! ## Elements and scales of a quartet step (R57 to R60, R203) -/

/-- Element width in bits of a container (R59). -/
def containerBits (c : Nat) : Nat := 4 * 2 ^ c

/-- K of a container (R59). -/
def containerK (c : Nat) : Nat := 512 / containerBits c

/-- The code at position k of line i of a block (R203). -/
def lineCode (st : Store 32) (c i k : Nat) : Nat :=
  let w := containerBits c
  let chunk := k / (32 / w)
  bitsOf (Store.get st (32 * (chunk / 2) + i + 16 * (chunk % 2))).toNat (k % (32 / w) * w) w

/-- The scale of line i, block kb, under a byte-select (R60). -/
def lineScale (st : Store 32) (c sel i kb : Nat) : Int :=
  let KB := containerK c / 16
  let b := sel * 16 * KB + i * KB + kb
  signExtend (bitsOf (Store.get st (32 * 8 + b / 4)).toNat (8 * (b % 4)) 8) 8

/-- An element as a step uses it: whether it lies in a zero block (R58), and its scaled value. -/
structure Elem where
  zero : Bool
  v : FVal
  deriving DecidableEq, Repr

/-- A value times 2^k. -/
def FVal.scale (v : FVal) (k : Int) : FVal :=
  match v with
  | .fin n m e => .fin n m (e + k)
  | x => x

/-- The value of an element's code: a narrow format, or .f16 or .g16 in a 16-bit container (R227). -/
def elemValue (c : Nat) (g : Bool) (f : Word) (code : Nat) : FVal :=
  if c = 2 then (if g then g16 else f16).value code else (Desc.ofWord f).value code

/-- Line i of an operand: its K elements. -/
def opLine (st : Store 32) (c : Nat) (g : Bool) (f : Word) (sel i : Nat) : List Elem :=
  (List.range (containerK c)).map (fun k =>
    let sc := lineScale st c sel i (k / 16)
    ⟨sc == -128, (elemValue c g f (lineCode st c i k)).scale sc⟩)

/-- The sum of a slot's products so far, with the special values among them (R61). -/
structure MmaSum where
  nan : Bool
  nv : Bool
  pos : Bool
  neg : Bool
  sum : Dyadic
  /-- Every product so far is a zero of negative sign. -/
  negZero : Bool
  deriving DecidableEq, Repr

/-- No product yet. -/
def MmaSum.empty : MmaSum := ⟨false, false, false, false, ⟨0, 0⟩, true⟩

/-- One product added (R61): inside a zero block it is +0; a signalling element outside its own zero block
raises NV (DEDUCED, log 42). -/
def MmaSum.term (r : MmaSum) (a b : Elem) : MmaSum :=
  let nv := r.nv || (!a.zero && a.v.signalling) || (!b.zero && b.v.signalling)
  let r := { r with nv := nv }
  if a.zero || b.zero then { r with negZero := false } else
  match a.v, b.v with
  | .nan _, _ => { r with nan := true }
  | _, .nan _ => { r with nan := true }
  | x, y =>
    match exactProduct x y with
    | none => { r with nan := true, nv := true }
    | some (.inf n) => if n then { r with neg := true } else { r with pos := true }
    | some p => { r with sum := r.sum.add p.dyadic, negZero := r.negZero && (p matches .fin true 0 _) }

/-- The products of two lines. -/
def mmaSum (la lb : List Elem) : MmaSum := (la.zip lb).foldl (fun r p => r.term p.1 p.2) MmaSum.empty

/-- A slot's new value and flags from its input and the products (R61): one rounding. -/
def mmaSlot (input : Nat) (r : MmaSum) : Nat × Flags :=
  let acc := a56.value input
  let nv := r.nv || acc.signalling
  let fl := if nv then flagNV else 0
  match acc with
  | .nan _ => (a56.nan, fl)
  | .inf n =>
    if r.nan then (a56.nan, fl)
    else if (if n then r.pos else r.neg) then (a56.nan, flagNV)
    else if r.pos && r.neg then (a56.nan, flagNV)
    else (a56.signed n a56.inf, fl)
  | .fin n m e =>
    if r.nan then (a56.nan, fl)
    else if r.pos && r.neg then (a56.nan, flagNV)
    else if r.pos || r.neg then (a56.signed r.neg a56.inf, fl)
    else
      let t := r.sum.add (FVal.fin n m e).dyadic
      if t.m = 0 then (a56.signed (n && m == 0 && r.negZero) 0, fl)
      else
        let (v, f) := roundTo a56 .rne (decide (t.m < 0)) t.m.natAbs t.e false
        (v, fl ||| f)

/-! ## A step's operands and effect (R229 to R231) -/

/-- The nine registers of a block and its scales, by register and lane (R60, R229: of all 32 lanes). -/
def Group.blockStore (G : Group) (base : Nat) : Store 32 :=
  (List.range 9).foldl (fun st r =>
    (List.range 32).foldl (fun st l => Store.set st (32 * r + l) ((G.lane l).vreg (base + r))) st) []

/-- The fields of a matrix word: tile, A, B, P, container, byte-selects, and whether it is MMAZ. -/
structure MmaWord where
  z : Nat
  a : Nat
  b : Nat
  p : Nat
  c : Nat
  sa : Nat
  sb : Nat
  zero : Bool
  e : Bool
  deriving DecidableEq, Repr

/-- The fields of an instruction that is a matrix word. -/
def mmaWord : Instr → Option MmaWord
  | .mma e z a b p c s t => some ⟨z.toNat, a.toNat, b.toNat, p.toNat, c.toNat, s.toNat, t.toNat, false, e⟩
  | .mmaz e z a b p c s t => some ⟨z.toNat, a.toNat, b.toNat, p.toNat, c.toNat, s.toNat, t.toNat, true, e⟩
  | _ => none

/-- One group's word with its operands as they stand (R229). -/
def Group.stepWord (G : Group) (m : MmaWord) : StepWord :=
  { z := m.z, zero := m.zero, p := m.p, sa := m.sa, sb := m.sb,
    a := G.blockStore (8 * m.a), b := G.blockStore (8 * m.b),
    fa := Store.get G.f (2 * m.p), fb := Store.get G.f (2 * m.p + 1) }

/-- The lines of a word's A block. -/
def StepWord.linesA (w : StepWord) (c : Nat) : List (List Elem) :=
  (List.range 16).map (opLine w.a c (w.p / 2 == 1) w.fa w.sa)

/-- The lines of a word's B quarter. -/
def StepWord.linesB (w : StepWord) (c : Nat) : List (List Elem) :=
  (List.range 16).map (opLine w.b c (w.p % 2 == 1) w.fb w.sb)

/-- The new slots of one group's tile, row by row, and the flags they raise (R231). -/
def stepTile (G : Group) (w : StepWord) (c : Nat) (bs : List (List Elem)) : List (BitVec 56) × Flags :=
  let rows := (w.linesA c).zipIdx.map (fun la => bs.zipIdx.map (fun lb =>
    let old := if w.zero then 0 else (Store.get G.z (slotIndex w.z la.2 lb.2)).toNat
    mmaSlot old (mmaSum la.1 lb.1)))
  (rows.flatMap (·.map (fun r => BitVec.ofNat 56 r.1)),
    rows.foldl (fun f row => row.foldl (fun f r => f ||| r.2) f) 0)

/-- An empty convergence register of the next generation (R221). -/
def Conv.next (r : Conv) : Conv := ⟨0, r.gen + 1, false, 0, 0, false⟩

/-- A started step takes its effect (R231): the four tiles, the flags in every live lane of the quartet, and
the convergence register empty in its next generation. -/
def State.completeStep (s : State) (t cn : Nat) : State :=
  match Tab.get? s.teams t with
  | none => s
  | some T =>
    match Tab.get? T.steps cn with
    | none => s
    | some st =>
      let bs := st.words.flatMap (fun w => w.linesB st.container)
      let outs := st.words.zipIdx.map (fun w =>
        (4 * st.quartet + w.2, w.1.z,
          match Tab.get? T.groups (4 * st.quartet + w.2) with
          | some G => stepTile G w.1 st.container bs
          | none => ([], 0)))
      let flags := outs.foldl (fun f o => f ||| o.2.2.2) 0
      let s := outs.foldl (fun s o => s.modGroup t o.1 fun G =>
        (G.setTile o.2.1 o.2.2.1).mapLanes G.liveLanes (fun _ L => L.raise flags)) s
      s.modTeam t fun T =>
        { T with steps := Tab.drop T.steps cn, conv := Tab.put T.conv cn (T.convReg cn).next }

/-- Every started step of a group's quartet takes its effect: what the group's next word finds (R232). -/
def State.completeSteps (s : State) (t g : Nat) : State :=
  match Tab.get? s.teams t with
  | none => s
  | some T => (T.steps.filter (fun e => e.2.quartet == g / 4)).foldl (fun s e => s.completeStep t e.1) s

/-- QUARTET_STEP_COMPLETE (R231). -/
def execQuartetStepComplete (team cn : Nat) (s : State) : Out := .next (s.completeStep team cn)

/-! ## Room keys (R233, R322, R323) -/

/-- The key freed; the remaining count goes with it (DEDUCED, log 57). -/
def RoomKey.free (k : RoomKey) : RoomKey := { k with held := false, remain := 0 }

/-- Four operations taken from a lease; below four the key is free (R233, R323; DEDUCED, log 57). -/
def RoomKey.spend (k : RoomKey) : RoomKey :=
  if k.en then { k with remain := k.remain - 4, held := k.held && 4 ≤ (k.remain - 4).toNat } else k

/-- Whether a lease admits a step of a queue's team (R233). -/
def RoomKey.admits (k : RoomKey) (queue : Nat) : Bool :=
  !k.en || (k.held && k.holder.toNat == queue && 4 ≤ k.remain.toNat)

/-! ## Binding and starting a step (R228 to R230) -/

/-- Subcodes of MMA_STEP with n in [7:4] (R230). -/
def mmaInfo (sub n : Nat) : Nat := sub + 16 * n

/-- The convergence register that a group's matrix word binds to (R229). -/
def Team.bindStep (T : Team) (g : Nat) : Option Nat :=
  (List.range 8).find? (fun n =>
    let r := T.convReg n
    r.fixed && r.quartet.toNat == g / 4 && r.mask == 0xF#4 &&
      r.signed.extractLsb' (32 * (g % 4)) 32 != 0#32)

/-- A matrix word (R227 to R229): it must begin a run, its fragment must be the whole group, and it holds bound
to a convergence register. -/
def matrixWord (i : Instr) (s : State) : Out :=
  word i (fun c => c.grp.runPos == 0) (fun c =>
    if c.lanes ≠ c.grp.liveLanes then trapWord s c causeMmaStep (mmaInfo 4 15)
    else match c.team.bindStep c.g with
      | none => trapWord s c causeMmaStep (mmaInfo 1 15)
      | some n => s.arriveHeld c (.matrix n i)) s

/-- MMA (R227). -/
def execMma (e : Bool) (z : BitVec 6) (a b : BitVec 5) (p c st t : BitVec 2) (s : State) : Out :=
  matrixWord (.mma e z a b p c st t) s

/-- MMAZ (R227). -/
def execMmaz (e : Bool) (z : BitVec 6) (a b : BitVec 5) (p c st t : BitVec 2) (s : State) : Out :=
  matrixWord (.mmaz e z a b p c st t) s

/-- The matrix word at which a group is held, bound to a convergence register. -/
def Group.heldMatrix (G : Group) (cn : Nat) : Option MmaWord :=
  match G.liveLanes with
  | [] => none
  | l :: _ =>
    match (G.lane l).hold with
    | .matrix n i => if n = cn ∧ G.saved = false then mmaWord i else none
    | _ => none

/-- Whether a group of a core's quarter other than the named one is part-way through a run. -/
def State.quarterBusy (s : State) (pcore quarter t g : Nat) : Bool :=
  s.teams.any (fun T => T.2.pcore == pcore && T.2.groups.any (fun G =>
    G.2.quarter == quarter && G.2.runMask != 0 && !(T.1 == t && G.1 == g)))

/-- Subcode 5 of R230: a format register that a step reads is not valid or is of the other container. -/
def badFormats (G : Group) (m : MmaWord) : Bool :=
  m.c != 2 && [0, 1].any (fun j =>
    let w := Store.get G.f (2 * m.p + j)
    !descValid w || (Desc.ofWord w).c != (m.c == 0))

/-- Held groups trap MMA_STEP together, and the convergence register is empty again with GEN unchanged
(R230). -/
def State.failStep (s : State) (t cn sub : Nat) (gs : List Nat) : State :=
  let s := s.modTeam t fun T =>
    { T with conv := Tab.put T.conv cn ⟨0, (T.convReg cn).gen, false, 0, 0, false⟩ }
  let s := gs.foldl (fun s g =>
    match Tab.get? s.teams t with
    | none => s
    | some T =>
      match Tab.get? T.groups g with
      | none => s
      | some G => s.trapHeld t g G.liveLanes causeMmaStep (mmaInfo sub cn)) s
  s.settle t

/-- The step of a group's word starts: the group goes on in the run that the word begins (R229). -/
def Group.startRun (G : Group) (m : MmaWord) : Group :=
  let ls := G.liveLanes
  let G := G.mapLanes ls (fun _ L => { L.advance (L.pc.toNat + 4) (if m.e then 0 else 1) with hold := .run, q := Latches.invalid })
  { G with runMask := if m.e then 0 else laneMask ls, runPos := 1, uq := Latches.invalid }

/-- A step whose checks passed starts: its operands are read, and the lease pays (R229, R233). -/
def State.startStep (s : State) (t cn q pcore : Nat) (ws : List (Nat × Group × MmaWord)) : State :=
  let st : QStep := { quartet := q, container := (ws.map (·.2.2.c)).headD 0,
                      words := ws.map (fun w => w.2.1.stepWord w.2.2) }
  let s := s.modCore pcore fun k => { k with key := k.key.spend }
  let s := ws.foldl (fun s w => s.modGroup t w.1 (·.startRun w.2.2)) s
  s.modTeam t fun T => { T with steps := Tab.put T.steps cn st }

/-- Whether a group has no live lane (R230 subcode 3). -/
def Team.groupGone (T : Team) (g : Nat) : Bool :=
  match Tab.get? T.groups g with
  | some G => G.liveLanes == []
  | none => true

/-- The step of a complete convergence register starts, fails, or does not start yet (R229, R230). -/
def State.tryStep (s : State) (t cn : Nat) : State :=
  match Tab.get? s.teams t with
  | none => s
  | some T =>
    let r := T.convReg cn
    if !r.complete || (Tab.get? T.steps cn).isSome then s else
    let q := r.quartet.toNat
    let gs := (List.range 4).map (4 * q + ·)
    let open_ := gs.filter (fun g => !T.groupGone g)
    let ws := open_.filterMap (fun g =>
      match Tab.get? T.groups g with
      | some G => (G.heldMatrix cn).map (fun m => (g, G, m))
      | none => none)
    if ws.length ≠ open_.length ∨ ws = [] then s
    else if ws.length < 4 then s.failStep t cn 3 open_
    else
      match Tab.get? s.cores T.pcore, Tab.get? s.grids T.grid with
      | some k, some gr =>
        if !k.key.admits gr.queue then s
        else if ws.any (fun w => s.quarterBusy T.pcore w.2.1.quarter t w.1) then s
        else if ws.any (fun w => some w.2.2.c != (ws.map (·.2.2.c)).head?) then s.failStep t cn 2 gs
        else if ws.any (fun w => badFormats w.2.1 w.2.2) then s.failStep t cn 5 gs
        else s.startStep t cn q T.pcore ws
      | _, _ => s

/-- QUARTET_STEP_START (R229, R230). -/
def execQuartetStepStart (team cn : Nat) (s : State) : Out := .next (s.tryStep team cn)

/-! ## ZCLR, ZRD and ZWR (R235, R236) -/

/-- ZCLR (R235): every slot +0. -/
def execZclr (e : Bool) (z : BitVec 6) (s : State) : Out :=
  uniAlu (.zclr e z) e (fun _ G => (G.setTile z.toNat (List.replicate 1024 0)).latchU none) s

/-- A slot read out (R63): the result's bits and flags (DEDUCED, log 43). -/
def zrdSlot (f mode : Nat) (sat : Bool) (d : Word) (v : Nat) : Nat × Flags :=
  let m := roundMode mode
  match f with
  | 0 => if sat then fcvtSat a56 f32 m v else fcvt a56 f32 m v
  | 1 => if sat then fcvtSat a56 f16 m v else fcvt a56 f16 m v
  | 2 => if sat then fcvtSat a56 g16 m v else fcvt a56 g16 m v
  | _ => (Desc.ofWord d).ofFloat a56 m v

/-- ZRD (R236): by a fragment that is the whole group, in all 32 lanes; q1 of each lane takes its lowest
result, and an invalid format register traps before a fragment that is not the group (DEDUCED, log 44). -/
def execZrd (e : Bool) (d : BitVec 5) (z : BitVec 6) (b f : BitVec 2) (m : BitVec 3) (sat : BitVec 1) (n : BitVec 3)
    (s : State) : Out :=
  uniWord (.zrd e d z b f m sat n) e (fun _ => true) (fun c =>
    let fw := Store.get c.grp.f n.toNat
    if f = 3 ∧ descValid fw = false then .trap s causeIllegal 0
    else if c.lanes ≠ c.grp.liveLanes then .trap s causeMmaStep (mmaInfo 4 15)
    else
      .done (s.modGroup c.t c.g fun G =>
        (G.mapLanes (List.range 32) (fun l L =>
          let rs := (List.range 8).map (fun j =>
            zrdSlot f.toNat m.toNat (sat == 1#1) fw (Store.get c.grp.z (bandSlot z.toNat b.toNat l j)).toNat)
          let ws := rs.map (fun r => BitVec.ofNat 32 r.1)
          ((L.setVs (8 * d.toNat) ws).latch ws.head?).raise (rs.foldl (fun fl r => fl ||| r.2) 0))).latchU none)) s

/-- A register widened into a slot (R54, R236). -/
def zwrSlot (w : Word) : Nat × Flags := fcvt f32 a56 .rne w.toNat

/-- ZWR (R236): the block of every lane, widened exactly into its band. -/
def execZwr (e : Bool) (d : BitVec 5) (z : BitVec 6) (b : BitVec 2) (s : State) : Out :=
  uniWord (.zwr e d z b) e (fun _ => true) (fun c =>
    if c.lanes ≠ c.grp.liveLanes then .trap s causeMmaStep (mmaInfo 4 15)
    else
      let val (l j : Nat) : Nat × Flags := zwrSlot ((c.grp.lane l).vreg (8 * d.toNat + j))
      .done (s.modGroup c.t c.g fun G =>
        let z' := (List.range 32).foldl (fun st l => (List.range 8).foldl (fun st j =>
          Store.set st (bandSlot z.toNat b.toNat l j) (BitVec.ofNat 56 (val l j).1)) st) G.z
        ({ G with z := z' }.mapLanes (List.range 32) (fun l L =>
          L.raise ((List.range 8).foldl (fun fl j => fl ||| (val l j).2) 0))).latchU none)) s

end Sys2Proof.Machine
end

