-- ==== Sys2Proof/Machine/Engine.lean ====
section
/-!
DEFINITION. Shape objects, transform stages, KICK, XFORM, engine operations and room-key leases
(13_engines_and_system.md R253 to R263; 16_program_decompress.md R274, R275; 04_ordering.md R106 to R109).
-/
namespace Sys2Proof.Machine

/-! ## Transform stages (R255) -/

def stOp (st : Nat) : Nat := bitsOf st 0 8
def stFrom (st : Nat) : Nat := bitsOf st 8 3
def stTo (st : Nat) : Nat := bitsOf st 12 3
def stMode (st : Nat) : Nat := bitsOf st 16 3
def stDesc (st : Nat) : Word := BitVec.ofNat 32 (bitsOf st 32 32)
def stElem (st : Nat) : Nat := 2 ^ bitsOf st 8 3
def stRows (st : Nat) : Nat := bitsOf st 16 16 + 1
def stCols (st : Nat) : Nat := bitsOf st 32 16 + 1

/-- Whether a stage value is one of R255's, its end excluded. -/
def stageOk (st : Nat) : Bool :=
  match stOp st with
  | 1 => bitsOf st 8 56 == 0
  | 2 =>
    let q := stFrom st == 3 || stTo st == 3
    stFrom st ≤ 3 && stTo st ≤ 3 && !(stFrom st == 3 && stTo st == 3) && stMode st ≤ 4 &&
      bitsOf st 11 1 == 0 && bitsOf st 15 1 == 0 && bitsOf st 19 13 == 0 &&
      (if q then descValid (stDesc st) else bitsOf st 32 32 == 0)
  | 3 => bitsOf st 8 3 ≤ 3 && bitsOf st 11 5 == 0 && bitsOf st 48 16 == 0
  | 4 => bitsOf st 8 24 == 0 && descValid (stDesc st)
  | _ => false

/-- The stages of a chain: those before its end. -/
def chainOf (sts : List Nat) : List Nat := sts.takeWhile (fun st => stOp st != 0)

/-- Whether three stage values make a chain: good stages, then zeros. -/
def chainOk (sts : List Nat) : Bool :=
  (chainOf sts).all stageOk && (sts.drop (chainOf sts).length).all (· == 0)

/-- The float format of a CVT type. -/
def cvtFmt (t : Nat) : Fmt :=
  match t with
  | 0 => f32
  | 1 => f16
  | _ => g16

/-- The width in bits of a CVT type's elements. -/
def cvtBits (t : Nat) (d : Word) : Nat :=
  match t with
  | 0 => 32
  | 1 => 16
  | 2 => 16
  | _ => if (Desc.ofWord d).c then 4 else 8

/-- Bits of one input unit and of the output it makes, for CVT and EXPAND. -/
def stageUnits (st : Nat) : Nat × Nat :=
  if stOp st = 2 then (cvtBits (stFrom st) (stDesc st), cvtBits (stTo st) (stDesc st))
  else (8 + 16 * cvtBits 3 (stDesc st), 512)

/-- The length that a number of bytes becomes through units of `a` bits to units of `b` bits. -/
def unitLen (n a b : Nat) : Option Nat :=
  if 8 * n % a ≠ 0 ∨ 8 * n / a * b % 8 ≠ 0 then none else some (8 * n / a * b / 8)

/-- A length along a chain: known, not known before the data is read, or impossible (R259). -/
inductive Len where
  | known (n : Nat)
  | unknown
  | bad
  deriving DecidableEq, Repr

/-- A stage's output length from its input length. -/
def lenAfter (st : Nat) : Len → Len
  | .known n =>
    match stOp st with
    | 1 => .unknown
    | 3 => if n = stRows st * stCols st * stElem st then .known n else .bad
    | _ => match unitLen n (stageUnits st).1 (stageUnits st).2 with
      | some m => .known m
      | none => .bad
  | .unknown => if stOp st = 3 then .known (stRows st * stCols st * stElem st) else .unknown
  | .bad => .bad

/-- A stage's input length from its output length. -/
def lenBefore (st : Nat) : Len → Len
  | .known n =>
    match stOp st with
    | 1 => .unknown
    | 3 => if n = stRows st * stCols st * stElem st then .known n else .bad
    | _ => match unitLen n (stageUnits st).2 (stageUnits st).1 with
      | some m => .known m
      | none => .bad
  | .unknown => if stOp st = 3 then .known (stRows st * stCols st * stElem st) else .unknown
  | .bad => .bad

/-- The length after a whole chain. -/
def lenForward (sts : List Nat) (n : Len) : Len := sts.foldl (fun l st => lenAfter st l) n

/-- The length before a whole chain that is to end at a length. -/
def lenBackward (sts : List Nat) (n : Len) : Len := sts.foldr (fun st l => lenBefore st l) n

/-- The expected output length of the stage before a chain's rest (R259): not known where the rest has a DICT stage. -/
def wantedLen (sts : List Nat) (n : Len) : Len := if sts.any (fun st => stOp st == 1) then .unknown else lenBackward sts n

/-- Whether the lengths that can be checked before the data is read fit between a chain's two ends (R259), at every point
of the chain (DEDUCED, log 37). -/
def lensFit (src dst : Len) (sts : List Nat) : Bool :=
  (List.range (sts.length + 1)).all (fun j =>
    match lenForward (sts.take j) src, lenBackward (sts.drop j) dst with
    | .bad, _ => false
    | _, .bad => false
    | .known a, .known b => a == b
    | _, _ => true)

/-! ## Data along a chain -/

/-- A byte or value whose source may be poisoned: `error i` depends on the poisoned byte at place i of the source, the
first in the order in which the operation consumes it (R261). -/
abbrev Known (α : Type) := Except Nat α

/-- The little-endian value of some bytes, when none is lost. -/
def gather : List (Known Byte) → Known Nat
  | [] => .ok 0
  | b :: bs =>
    match b, gather bs with
    | .ok v, .ok n => .ok (v.toNat + 256 * n)
    | .ok _, .error a => .error a
    | .error a, .ok _ => .error a
    | .error a, .error a' => .error (min a a')

/-- A stop: ERR, and the place in the source of the byte that ADDR names; none for the source's end. -/
abbrev Stop := Nat × Option Nat

/-- What a stage passes on: its bytes, and the stop that cut them short, if one has. -/
structure Feed where
  bytes : List (Known Byte)
  stop : Option Stop
  deriving Repr

/-- ERR codes of a barrier object (R253). -/
def errPoison : Nat := 1
def errLength : Nat := 2
def errData : Nat := 3
def errAbort : Nat := 4

/-- The bytes before the first lost one, and its poisoned source. -/
def knownPart : List (Known Byte) → List Byte × Option Nat
  | [] => ([], none)
  | .ok b :: bs => (b :: (knownPart bs).1, (knownPart bs).2)
  | .error a :: _ => ([], some a)

/-- The bytes that a match appends, one by one (R274). -/
def matchCopy (d : Nat) : Nat → List Byte → List Byte
  | 0, out => out
  | n + 1, out => matchCopy d n (out ++ [out.getD (out.length - d) 0])

/-- The DICT stage (R274, R275, R261): tokens in stream order, each checked before its bytes are written.
`at_` is the place in the source of a token at an offset of the stage input (none for an intermediate stream); `want` is
the expected output length where it is known; `cut` says that the input was itself cut short. -/
def dictRun (want : Option Nat) (at_ : Nat → Option Nat) (cut : Bool) :
    Nat → Nat → List (Known Byte) → List Byte → List Byte × Option Stop
  | 0, _, _, out => (out, none)
  | fuel + 1, off, inp, out =>
    let short : List Byte × Option Stop := (out, if cut then none else some (errData, at_ off))
    let long (n : Nat) : Bool := match want with
      | some w => w < out.length + n
      | none => false
    match inp with
    | [] =>
      match want with
      | some w => (out, if !cut && out.length < w then some (errLength, none) else none)
      | none => (out, none)
    | .error a :: _ => (out, some (errPoison, some a))
    | .ok t :: rest =>
      let n := t.toNat % 128 + 1
      if t.toNat < 128 then
        if rest.length < n ∧ cut = false then short
        else if long n then (out, some (errLength, at_ off))
        else
          let (bs, lost) := knownPart (rest.take n)
          match lost with
          | some a => (out ++ bs, some (errPoison, some a))
          | none =>
            if rest.length < n then (out ++ bs, none)
            else dictRun want at_ cut fuel (off + 1 + n) (rest.drop n) (out ++ bs)
      else
        match rest with
        | [] => short
        | .error a :: _ => (out, some (errPoison, some a))
        | .ok d :: rest =>
          if out.length < d.toNat + 1 then (out, some (errData, at_ off))
          else if long n then (out, some (errLength, at_ off))
          else dictRun want at_ cut fuel (off + 2) rest (matchCopy (d.toNat + 1) n out)

/-- Whole pieces of n items, with what is left over dropped. -/
def pieces {α : Type} (n : Nat) : Nat → List α → List (List α)
  | 0, _ => []
  | fuel + 1, l => if l.length < n ∨ n = 0 then [] else l.take n :: pieces n fuel (l.drop n)

/-- The elements of packed data (R57: element 2j in the low half of byte j). -/
def elements (bits : Nat) (bs : List (Known Byte)) : List (Known Nat) :=
  if bits = 4 then bs.flatMap (fun b => [b.map (fun v => v.toNat % 16), b.map (fun v => v.toNat / 16)])
  else (pieces (bits / 8) bs.length bs).map gather

/-- Elements packed into bytes. -/
def packed4 : List (Known Nat) → List (Known Byte)
  | [] => []
  | [_] => []
  | a :: b :: rest =>
    (match a, b with
      | .ok x, .ok y => .ok (BitVec.ofNat 8 (x + 16 * y))
      | .ok _, .error e => .error e
      | .error e, .ok _ => .error e
      | .error e, .error e' => .error (min e e')) :: packed4 rest

/-- Elements of a width packed into bytes. -/
def packElements (bits : Nat) (es : List (Known Nat)) : List (Known Byte) :=
  if bits = 4 then packed4 es
  else es.flatMap (fun e => match e with
    | .ok v => (toBytes (bits / 8) v).map .ok
    | .error a => List.replicate (bits / 8) (.error a))

/-- One element converted by CVT (R54, R57); flags are lost. -/
def cvtElement (st code : Nat) : Nat :=
  let m := roundMode (stMode st)
  if stTo st = 3 then ((Desc.ofWord (stDesc st)).ofFloat (cvtFmt (stFrom st)) m code).1
  else if stFrom st = 3 then ((Desc.ofWord (stDesc st)).toFloat (cvtFmt (stTo st)) m code).1
  else (fcvt (cvtFmt (stFrom st)) (cvtFmt (stTo st)) m code).1

/-- The .f32 of a narrow element under a scale (R255 OP 4, R58). -/
def expandElement (d : Word) (k : Int) (code : Nat) : Nat :=
  if k = -128 then 0 else
  match (Desc.ofWord d).value code with
  | .nan _ => f32.nan
  | .inf n => f32.signed n f32.inf
  | .fin n m e => (roundTo f32 .rne n m (e + k) false).1

/-- One block of EXPAND: a scale and 16 elements; the elements of a zero block are not needed. -/
def expandBlock (d : Word) (bs : List (Known Byte)) : List (Known Byte) :=
  match bs with
  | [] => []
  | k :: rest =>
    packElements 32 (((elements (cvtBits 3 d) rest).take 16).map (fun e =>
      match k with
      | .error a => match e with
        | .ok _ => .error a
        | .error a' => .error (min a a')
      | .ok kv =>
        let k := signExtend kv.toNat 8
        if k = -128 then .ok 0 else e.map (expandElement d k)))

/-- The transpose of a rows × columns matrix of n-byte elements; a part that did not arrive leaves out every
output byte from the first that needs it. -/
def transpose (rows cols n : Nat) (bs : List (Known Byte)) : List (Known Byte) :=
  let want := (List.range cols).flatMap (fun j => (List.range rows).flatMap (fun i =>
    (List.range n).map (fun b => (i * cols + j) * n + b)))
  (want.takeWhile (fun p => p < bs.length)).filterMap (fun p => bs[p]?)

/-- One stage applied to what reaches it (R255, R259): `want` is its expected output length (DEDUCED, log 37), `at_` the
place in the source of an offset of its input, when its input is the source. -/
def runStage (st : Nat) (want : Len) (at_ : Nat → Option Nat) (f : Feed) : Feed :=
  let short (n : Nat) : Option Stop :=
    match f.stop with
    | some x => some x
    | none => if f.bytes.length % n = 0 then none else some (errLength, none)
  match stOp st with
  | 1 =>
    let w := match want with
      | .known n => some n
      | _ => none
    let (out, stop) := dictRun w at_ f.stop.isSome (f.bytes.length + 1) 0 f.bytes []
    ⟨out.map .ok, match stop with
      | some x => some x
      | none => f.stop⟩
  | 2 =>
    let (a, b) := stageUnits st
    let es := elements a f.bytes
    let out := packElements b (es.map (·.map (cvtElement st)))
    ⟨out, match f.stop with
      | some x => some x
      | none => if (unitLen f.bytes.length a b).isSome then none else some (errLength, none)⟩
  | 3 =>
    let n := stRows st * stCols st * stElem st
    ⟨transpose (stRows st) (stCols st) (stElem st) f.bytes,
      match f.stop with
      | some x => some x
      | none => if f.bytes.length = n then none else some (errLength, none)⟩
  | _ =>
    let n := (stageUnits st).1 / 8
    ⟨(pieces n f.bytes.length f.bytes).flatMap (expandBlock (stDesc st)), short n⟩

/-- A chain applied to the source's bytes: stage after stage, each with its expected output length; `first` says that
the next stage's input is the source. -/
def runChain (dstLen : Len) : List Nat → Bool → Feed → Feed
  | [], _, f => f
  | st :: sts, first, f =>
    runChain dstLen sts false (runStage st (wantedLen sts dstLen) (if first then some else fun _ => none) f)

/-- The output bytes that an operation writes: those with an address; the rest are needed for nothing. -/
def neededBytes (ts : List (Option Nat)) (bs : List (Known Byte)) : List (Known Byte) :=
  bs.zipIdx.filterMap (fun e => if (ts[e.2]?).getD none = none then none else some e.1)

/-- The first poisoned place of the source that some data depends on. -/
def firstLost (bs : List (Known Byte)) : Option Nat :=
  bs.foldl (fun acc b => match b, acc with
    | .error a, some x => some (min a x)
    | .error a, none => some a
    | .ok _, acc => acc) none

/-- The stop of a whole operation (R253, R259, R261): the chain's, a poisoned byte that the destination's bytes need, or a
final length that differs. -/
def feedStop (f : Feed) (ts : List (Option Nat)) : Option Stop :=
  match f.stop with
  | some x => some x
  | none =>
    match firstLost (neededBytes ts f.bytes) with
    | some a => some (errPoison, some a)
    | none => if f.bytes.length = ts.length then none else some (errLength, none)

/-! ## Shape records (R254) -/

def shBase (r : Nat) : Nat := bitsOf r 0 64
def shExt (r e : Nat) : Nat := bitsOf r (64 + 32 * e) 32
def shStride (r e : Nat) : Nat := if e = 0 then 2 ^ bitsOf r 416 3 else bitsOf r (128 + 64 * e) 64
def shBox (r e : Nat) : Nat := bitsOf r (384 + 8 * e) 8 + 1
def shElem (r : Nat) : Nat := 2 ^ bitsOf r 416 3
def shRank (r : Nat) : Nat := bitsOf r 420 2 + 1
def shStages (r : Nat) : List Nat := (List.range 3).map (fun j => bitsOf r (448 + 64 * j) 64)

/-- The number of bytes in a tile. -/
def tileLen (r : Nat) : Nat := shBox r 0 * shBox r 1 * shBox r 2 * shBox r 3 * shElem r

/-- Whether a tile fits at an end of a chain that a request's direction gives it (R254, R257): at its end, or where it
begins. -/
def tileFits (r : Nat) (out : Bool) : Bool :=
  if out then lensFit .unknown (.known (tileLen r)) (chainOf (shStages r))
  else lensFit (.known (tileLen r)) .unknown (chainOf (shStages r))

/-- The checks of JOB_BAD subcode 1 on a shape record (R256, R259); its stage lengths fit when they do in one direction or
the other (DEDUCED, log 38). -/
def shapeOk (r : Nat) : Bool :=
  bitsOf r 640 128 == 0 && bitsOf r 422 26 == 0 && bitsOf r 419 1 == 0 && bitsOf r 416 3 ≤ 3 &&
  (List.range 4).all (fun e => 1 ≤ shExt r e && (e < shRank r || (shExt r e == 1 && shBox r e == 1))) &&
  chainOk (shStages r) && (tileFits r true || tileFits r false)

/-- A tile's coordinates in box order (R254), relative to its origin. -/
def boxOrder (r : Nat) : List (List Nat) :=
  (List.range (shBox r 3)).flatMap (fun c3 => (List.range (shBox r 2)).flatMap (fun c2 =>
    (List.range (shBox r 1)).flatMap (fun c1 => (List.range (shBox r 0)).map (fun c0 => [c0, c1, c2, c3]))))

/-- Coordinate e of a tile origin. -/
def coordOf (coord e : Nat) : Int := signExtend (bitsOf coord (32 * e) 32) 32

/-- An element's address, when its coordinate lies within the tensor. -/
def elementAddr (r coord : Nat) (c : List Nat) : Option Nat :=
  let at_ (e : Nat) : Int := coordOf coord e + (c.getD e 0 : Nat)
  if (List.range 4).all (fun e => 0 ≤ at_ e && at_ e < shExt r e) then
    some (shBase r + (List.range 4).foldl (fun a e => a + (at_ e).toNat * shStride r e) 0)
  else none

/-- The address of every byte of a tile in box order; none for an element outside the tensor. -/
def tileBytes (r coord : Nat) : List (Option Nat) :=
  (boxOrder r).flatMap (fun c => (List.range (shElem r)).map (fun b => (elementAddr r coord c).map (· + b)))

/-- The range of a shape side (R259): base and length of the span of its in-bounds elements; length 0 when it
has none. -/
def tileRange (r coord : Nat) : Nat × Nat :=
  let lo (e : Nat) : Int := max (coordOf coord e) 0
  let hi (e : Nat) : Int := min (coordOf coord e + (shBox r e : Nat) - 1) ((shExt r e : Nat) - 1)
  if (List.range 4).any (fun e => hi e < lo e) then (shBase r, 0)
  else
    let sum (f : Nat → Int) : Nat := (List.range 4).foldl (fun a e => a + (f e).toNat * shStride r e) 0
    (shBase r + sum lo, sum hi + shElem r - sum lo)

/-- The tile bytes that lie within the tensor. -/
def tileInside (r coord : Nat) : Nat :=
  (List.range 4).foldl (fun n e =>
    let lo := max (coordOf coord e) 0
    let hi := min (coordOf coord e + (shBox r e : Nat) - 1) ((shExt r e : Nat) - 1)
    n * (hi - lo + 1).toNat) (shElem r)

/-! ## SHAPE.SEAL and SHAPE.DROP (R256) -/

/-- The shape table of a core. -/
def State.shapesOf (s : State) (core : Nat) : Tab Shape :=
  match Tab.get? s.cores core with
  | some k => k.shapes
  | none => []

/-- Whether a handle is valid for new uses by a team. -/
def shapeFor (tab : Tab Shape) (team h : Nat) : Option (BitVec 768) :=
  match Tab.get? tab h with
  | some sh => if sh.team = team ∧ sh.dropped = false then some sh.record else none
  | none => none

/-- SHAPE.SEAL (R256). -/
def execShapeSeal (e : Bool) (d x : Opd) (s : State) : Out :=
  uniWord (.shapeSeal e d x) e (fun _ => true) (fun c =>
    let a := c.grp.sPair x.num
    if a % 32 ≠ 0 then .trap s causeIllegal 0 else
    match readLane s s c (c.lanes.headD 0) a 96 with
    | .stop r => r
    | .val s1 bs =>
      if !shapeOk (leValue bs) then .trap s1 causeJobBad 1 else
      match Tab.lowestFree (s1.shapesOf c.team.pcore) 64 with
      | none => .done (s1.modGroup c.t c.g (·.result d 64))
      | some h =>
        let s1 := s1.modCore c.team.pcore fun k =>
          { k with shapes := Tab.put k.shapes h ⟨c.t, BitVec.ofNat 768 (leValue bs), false⟩ }
        .done (s1.modGroup c.t c.g (·.result d (BitVec.ofNat 32 h)))) s

/-- A dropped handle freed once no operation names it (R256). -/
def State.freeShape (s : State) (core h : Nat) : State :=
  match Tab.get? (s.shapesOf core) h with
  | some sh =>
    if sh.dropped ∧ s.ops.all (fun o => !(o.2.pcore == core && o.2.handle == some h)) then
      s.modCore core fun k => { k with shapes := Tab.drop k.shapes h }
    else s
  | none => s

/-- SHAPE.DROP (R256). -/
def execShapeDrop (e : Bool) (x : Opd) (s : State) : Out :=
  uniWord (.shapeDrop e x) e (fun _ => true) (fun c =>
    let h := (c.grp.uniVal x).toNat
    match shapeFor (s.shapesOf c.team.pcore) c.t h with
    | none => .trap s causeJobBad 2
    | some _ =>
      let s := s.modCore c.team.pcore fun k =>
        { k with shapes := Tab.modify k.shapes h (fun sh => { sh with dropped := true }) }
      .done ((s.freeShape c.team.pcore h).modGroup c.t c.g (·.latchU none))) s

/-! ## Requests and job cards (R257 to R259) -/

/-- A request or card as it is carried out: its two ranges, its chain and what it owes. -/
structure Job where
  src : Nat
  srcLen : Nat
  dst : Nat
  dstLen : Nat
  shape : Option (BitVec 768 × BitVec 128 × Bool)
  handle : Option Nat
  stages : List Nat
  bobj : Nat
  owes : Nat
  deriving DecidableEq, Repr

/-- A trap cause and its information. -/
abbrev TrapWhy := Nat × Nat

/-- %trapinfo of a failing record: subcode and index. -/
def jobInfo (sub k : Nat) : Nat := sub + 16 * k

/-- A copy request's job before its ranges are checked (R257, R259 check 1, subcodes 1 and 2; DEDUCED, log 38). -/
def parseRequest (tab : Tab Shape) (team k v : Nat) : Except TrapWhy Job :=
  let bad : Except TrapWhy Job := .error (causeJobBad, jobInfo 1 k)
  let src := bitsOf v 0 64
  let dst := bitsOf v 64 64
  let len := bitsOf v 128 40
  let coord := bitsOf v 256 128
  let bobj := bitsOf v 192 15
  if bitsOf v 384 128 ≠ 0 ∨ bitsOf v 216 40 ≠ 0 ∨ bitsOf v 207 1 ≠ 0 ∨ bitsOf v 168 24 ≠ 0 then bad
  else if bitsOf v 214 1 = 0 then
    if bitsOf v 208 6 ≠ 0 ∨ bitsOf v 215 1 ≠ 0 ∨ len = 0 then bad
    else .ok ⟨src, len, dst, len, none, none, [], bobj, len⟩
  else
    let h := bitsOf v 208 6
    let out := bitsOf v 215 1 == 1
    if len ≠ 0 ∨ (if out then dst else src) ≠ 0 then bad else
    match shapeFor tab team h with
    | none => .error (causeJobBad, jobInfo 2 k)
    | some rec =>
      let r := rec.toNat
      let sts := chainOf (shStages r)
      let (base, span) := tileRange r coord
      let shape := some (rec, BitVec.ofNat 128 coord, out)
      if tileFits r out = false then bad else
      match (if out then lenBackward sts (.known (tileLen r)) else lenForward sts (.known (tileLen r))) with
      | .known n =>
        if out then .ok ⟨src, n, base, span, shape, some h, sts, bobj, tileInside r coord⟩
        else .ok ⟨base, span, dst, n, shape, some h, sts, bobj, n⟩
      | _ => bad

/-- A job card's job before its ranges are checked (R258, R259). -/
def parseCard (k v : Nat) : Except TrapWhy Job :=
  let sts := (List.range 3).map (fun j => bitsOf v (224 + 64 * j) 64)
  let srcLen := bitsOf v 128 40
  let dstLen := bitsOf v 168 40
  if bitsOf v 416 96 ≠ 0 ∨ bitsOf v 223 1 ≠ 0 ∨ srcLen = 0 ∨ dstLen = 0 ∨ chainOf sts = [] ∨ chainOk sts = false ∨
      lensFit (.known srcLen) (.known dstLen) (chainOf sts) = false then .error (causeJobBad, jobInfo 1 k)
  else .ok ⟨bitsOf v 0 64, srcLen, bitsOf v 64 64, dstLen, none, none, chainOf sts, bitsOf v 208 15, dstLen⟩

/-- The checks of a job's addresses (R259): subcodes 3 and 4, the scratchpad limit, and the overlap of a job with
stages. -/
def checkJob (limit k : Nat) (j : Job) : Except TrapWhy Job :=
  let sides := [(j.src, j.srcLen), (j.dst, j.dstLen)]
  if sides.any (fun p => !canonical p.1 || 2 ^ 64 < p.1 + p.2) then .error (causeJobBad, jobInfo 3 k)
  else if limit < 16 * j.bobj + 16 then .error (causeJobBad, jobInfo 4 k)
  else match sides.find? (fun p => 0 < p.2 && meetsWindow p.1 p.2 && scratchBad p.1 p.2 limit) with
    | some p => .error (causeScratchRange, scratchInfo p.1 p.2 limit + k * 2 ^ 20)
    | none =>
      if j.stages ≠ [] ∧ overlaps j.src j.srcLen j.dst j.dstLen then .error (causeCopyOverlap, 16 * k)
      else .ok j

/-- Record k of a list validated (R259). -/
def validate (tab : Tab Shape) (team limit : Nat) (card : Bool) (k v : Nat) : Except TrapWhy Job :=
  match if card then parseCard k v else parseRequest tab team k v with
  | .error w => .error w
  | .ok j => checkJob limit k j

/-- Records validated in order; the first failure decides. -/
def validateAll (tab : Tab Shape) (team limit : Nat) (card : Bool) : Nat → List Nat → Except TrapWhy (List Job)
  | _, [] => .ok []
  | k, v :: vs => do
    let j ← validate tab team limit card k v
    let js ← validateAll tab team limit card (k + 1) vs
    pure (j :: js)

/-! ## Starting operations (R260) -/

/-- The die of a physical core (R383). -/
def dieOf (pcore : Nat) : Nat := pcore / 128

/-- The rooms of a die's Courier that are taken (R261). -/
def State.roomsOf (s : State) (die : Nat) : Tab Nat :=
  match Tab.get? s.dies die with
  | some d => d.rooms
  | none => []

/-- The lowest two free range-lock entries of a core (DESIGN CHOICE, log 25). -/
def freeLocks (locks : Tab RangeLock) : Option (Nat × Nat) :=
  match (List.range 32).filter (fun i => (Tab.get? locks i).isNone) with
  | a :: b :: _ => some (a, b)
  | _ => none

/-- One job started (R107, R260): its locks, its room, and the operation, which stops if the grid is being aborted (R363);
none when a lock or a room lacks. -/
def startJob (c : Ctx) (s : State) (j : Job) : Option State :=
  let die := dieOf c.team.pcore
  let room := if j.stages = [] then some none else (Tab.lowestFree (s.roomsOf die) 16).map some
  match freeLocks (s.locksOf c.team.pcore), room with
  | some (a, b), some room =>
    let lock (base len : Nat) (dst : Bool) : RangeLock := ⟨c.t, c.space.part, c.space.asid, base, len, dst, room.getD 0⟩
    let op : EngineOp :=
      { team := c.t, grid := c.team.grid, part := c.space.part, pcore := c.team.pcore, asid := c.space.asid,
        room := room, locks := [a, b], src := j.src, srcLen := j.srcLen, dst := j.dst, dstLen := j.dstLen,
        shape := j.shape, handle := j.handle, stages := j.stages.map (BitVec.ofNat 64), bobj := j.bobj,
        owes := j.owes, token := none, aborted := c.grid.aborted, out := none, remote := [] }
    let s := s.modCore c.team.pcore fun k =>
      { k with locks := Tab.put (Tab.put k.locks a (lock j.src j.srcLen false)) b (lock j.dst j.dstLen true) }
    let s := match room with
      | some r => s.modDie die fun d => { d with rooms := Tab.put d.rooms r s.fresh }
      | none => s
    some { s with ops := Tab.put s.ops s.fresh op, fresh := s.fresh + 1 }
  | _, _ => none

/-- Jobs started one after another until one finds no lock or room: how many. -/
def startJobs (c : Ctx) : State → List Job → Nat → State × Nat
  | s, [], n => (s, n)
  | s, j :: js, n =>
    match startJob c s j with
    | none => (s, n)
    | some s => startJobs c s js (n + 1)

/-- The records of a list, read by the fragment (DEDUCED, log 33). -/
def readRecords (s : State) (c : Ctx) (a n : Nat) : Except LaneRes (State × List Nat) :=
  match readLane s s c (c.lanes.headD 0) a (64 * n) with
  | .stop r => .error r
  | .val s bs => .ok (s, (List.range n).map (fun k => leValue ((bs.drop (64 * k)).take 64)))

/-- KICK and XFORM (R260): the list's checks, its records, their validation, then the starts; the group's earlier
stores come first (R106). A helper fragment's has no effect (R132). -/
def kickWord (i : Instr) (e card : Bool) (d x : Opd) (count : Ctx → Nat) (s : State) : Out :=
  uniWord i e (fun _ => true) (fun c =>
    let n := count c
    let a := c.grp.sPair x.num
    if c.helpers then .done (s.modGroup c.t c.g (·.latchU none))
    else if n = 0 ∨ 32 < n ∨ inWindow a = false ∨ a % 64 ≠ 0 then .trap s causeIllegal 0
    else if scratchBad a (64 * n) c.team.limit then
      .trap s causeScratchRange (scratchInfo a (64 * n) c.team.limit + 2 ^ 25)
    else match readRecords s c a n with
      | .error r => r
      | .ok (s1, vs) =>
        match validateAll (s1.shapesOf c.team.pcore) c.t c.team.limit card 0 vs with
        | .error (cause, info) => .trap s1 cause info
        | .ok js =>
          let (s2, k) := startJobs c (s1.drainGroup c.t c.g) js 0
          .done (s2.modGroup c.t c.g (·.result d (BitVec.ofNat 32 k)))) s

/-- KICK (R260). -/
def execKick (e : Bool) (d x y : Opd) (s : State) : Out :=
  kickWord (.kick e d x y) e false d x (fun c => (c.grp.uniVal y).toNat) s

/-- XFORM (R260): one job card. -/
def execXform (e : Bool) (d x : Opd) (s : State) : Out :=
  kickWord (.xform e d x) e true d x (fun _ => 1) s

/-! ## Completion (R108, R253, R261) -/

/-- The unit that carries out an operation (R383): the Porter or the Courier of the core's die. -/
def EngineOp.unit (o : EngineOp) : Nat := 0x100 + dieOf o.pcore + (if o.room.isSome then 2 else 0)

/-- The source's byte addresses in the order the chain consumes them; none is a zero outside the tensor. -/
def EngineOp.sources (o : EngineOp) : List (Option Nat) :=
  match o.shape with
  | some (r, c, false) => tileBytes r.toNat c.toNat
  | _ => (List.range o.srcLen).map (fun i => some (o.src + i))

/-- The destination's byte addresses in the order the chain produces them. -/
def EngineOp.targets (o : EngineOp) : List (Option Nat) :=
  match o.shape with
  | some (r, c, true) => tileBytes r.toNat c.toNat
  | _ => (List.range o.dstLen).map (fun i => some (o.dst + i))

/-- The places of an engine's bytes (R261), or the first address that does not translate. -/
def enginePlaces (sp : Space) (die : Nat) (k : AccKind) :
    State → List (Option Nat) → Except (State × Nat × XFail) (State × List (Option Place))
  | s, [] => .ok (s, [])
  | s, none :: as => do
    let (s, ps) ← enginePlaces sp die k s as
    pure (s, none :: ps)
  | s, some a :: as =>
    if inWindow a then do
      let (s, ps) ← enginePlaces sp die k s as
      pure (s, some (.scratch (a - windowBase)) :: ps)
    else
      match translate s (.die die) sp a k with
      | .fail f => .error (s, a, f)
      | .ok s pa _ mixed => do
        let (s, ps) ← enginePlaces sp die k s as
        pure (s, some (if mixed then .enc pa else .phys pa) :: ps)

/-- A byte at place i of a source: lost when its sector is poisoned (R346); remote bytes come from the replies, with their marks. -/
def EngineOp.sourceByte (o : EngineOp) (s : State) (T : Team) (i : Nat) (p : Option Place) : Known Byte :=
  match p with
  | none => .ok 0
  | some (.phys pa) =>
    if remotePa pa then (if replyLost o.remote .read 0 pa then .error i else .ok (replyByte o.remote .read 0 pa))
    else if s.poisoned pa then .error i else .ok (s.byte pa)
  | some (.enc pa) => if s.poisoned pa then .error i else .ok (s.stored T (.enc pa))
  | some (.scratch o) => .ok (s.stored T (.scratch o))

/-- ADDR of a stop (R253, R261, R275): the address of its byte of the source; else the source's end. A byte outside the
tensor has no address, and the source's end stands for it too (DEDUCED, log 37). -/
def EngineOp.stopAddr (o : EngineOp) (at_ : Option Nat) : Nat :=
  (at_.bind fun i => (o.sources[i]?).bind id).getD (o.src + o.srcLen)

/-- The bytes that an operation writes, by virtual address: those before the lowest address whose byte is not known (R253). -/
def writtenBytes (ts : List (Option Nat)) (bs : List (Known Byte)) : List (Nat × Byte) :=
  let all := ts.zipIdx
  let bound := all.foldl (fun (m : Option Nat) e =>
    match e.1, bs[e.2]? with
    | some _, some (.ok _) => m
    | some a, _ => match m with
      | some x => some (min a x)
      | none => some a
    | none, _ => m) none
  all.filterMap (fun e =>
    match e.1, bs[e.2]? with
    | some a, some (.ok b) =>
      if (match bound with
        | some x => decide (a < x)
        | none => true) then some (a, b) else none
    | _, _ => none)

/-- The barrier object counted down (R253): the whole amount, and the first stop's ERR and ADDR. -/
def countDown (T : Team) (bobj owes : Nat) (stop : Option (Nat × Nat)) : Team :=
  let o := 16 * bobj
  let v := leValue (Store.getRange T.scratch o 16)
  let count := (bitsOf v 0 40 + 2 ^ 40 - owes % 2 ^ 40) % 2 ^ 40
  let (err, addr) := match stop with
    | some (e, a) => if bitsOf v 40 8 = 0 then (e, a) else (bitsOf v 40 8, bitsOf v 64 64)
    | none => (bitsOf v 40 8, bitsOf v 64 64)
  let v' := count + err * 2 ^ 40 + bitsOf v 48 16 * 2 ^ 48 + addr % 2 ^ 64 * 2 ^ 64
  { T with scratch := Store.setRange T.scratch o (toBytes 16 v') }

/-- An operation is over (R108 steps 2 and 3, R262): its locks and room are free, its object is counted down, a dropped
handle that waited for it goes, and its core's lanes read its destination afresh (R107). -/
def State.endOp (s : State) (n : Nat) (o : EngineOp) (stop : Option (Nat × Nat)) : State :=
  let s := s.modCore o.pcore fun k => { k with locks := o.locks.foldl Tab.drop k.locks }
  let s := match o.room with
    | some r => s.modDie (dieOf o.pcore) fun d => { d with rooms := Tab.drop d.rooms r }
    | none => s
  let s := { s with ops := Tab.drop s.ops n }
  let s := s.modTeam o.team fun T => countDown T o.bobj o.owes stop
  let s := s.clearNotes o.pcore
  match o.handle with
  | some h => s.freeShape o.pcore h
  | none => s

/-- An operation's source page or destination page does not translate: it waits on a token in its room (R261). -/
def State.waitOp (s : State) (n : Nat) (o : EngineOp) (sp : Space) (va : Nat) (k : AccKind) (f : XFail) : State :=
  let (s, tok) := raiseFault s sp va k f o.unit (o.room.getD 0)
  { s with ops := Tab.modify s.ops n (fun o => { o with token := tok }) }

/-- Requests of an engine operation sent (R380): a flow that is full takes them later. -/
def State.askOp (s : State) (n : Nat) (o : EngineOp) (kind : ReqKind) (chunks : List (Nat × Nat)) (req : Nat × Nat → RemoteReq) :
    State :=
  chunks.foldl (fun s ch =>
    let dest := bitsOf ch.1 33 22
    match s.sendRequest o.unit dest (req ch) with
    | (s, none) => s
    | (s, some seq) => { s with ops := Tab.modify s.ops n (fun o =>
        { o with remote := o.remote ++ [⟨kind, 0, ch.1, ch.2, o.unit, dest, seq, none⟩] }) }) s

/-- An access of an engine operation to another device failed (R378, R380): its replies are done with, and it waits on a
token at the virtual address of the place. -/
def State.failOp (s : State) (n : Nat) (o : EngineOp) (sp : Space) (as : List (Option Nat)) (ps : List (Option Place))
    (pa other : Nat) (k : AccKind) : State :=
  let va := (((as.zip ps).find? (fun e => e.2 == some (.phys pa))).bind (·.1)).getD other
  ({ s with ops := Tab.modify s.ops n (fun o => { o with remote := [] }) } : State).waitOp n { o with remote := [] } sp va k
    remoteFail

/-- What an operation's data come to, once every page translates and every remote byte is here. -/
inductive OpData where
  | wait (s : State)
  | run (s : State) (ws : List (Nat × Byte)) (stop : Option (Nat × Nat))
  deriving DecidableEq, Repr

/-- An operation's translation, reading and transformation (R255, R257, R261; DESIGN CHOICE, log 36). -/
def State.evalOp (s : State) (n : Nat) (o : EngineOp) : OpData :=
  match Tab.get? s.teams o.team, Tab.get? s.grids o.grid with
  | some T, some gr =>
    let sp := gr.space
    match enginePlaces sp (dieOf o.pcore) .engineRead s o.sources with
    | .error (s, va, f) => .wait (s.waitOp n o sp va .engineRead f)
    | .ok (s, sps) =>
      match enginePlaces sp (dieOf o.pcore) .engineWrite s o.targets with
      | .error (s, va, f) => .wait (s.waitOp n o sp va .engineWrite f)
      | .ok (s, _) =>
        match remoteState o.remote .read 0 (sps.filterMap id) with
        | .ask chunks => .wait (s.askOp n o .read chunks (fun ch => .read (bitsOf ch.1 0 33) ch.2))
        | .waiting => .wait s
        | .failed pa => .wait (s.failOp n o sp o.sources sps pa o.src .engineRead)
        | .ready =>
          let data := sps.zipIdx.map (fun e => o.sourceByte s T e.2 e.1)
          let want := o.targets.length
          let f := runChain (.known want) (o.stages.map BitVec.toNat) true ⟨data, none⟩
          .run s (writtenBytes o.targets f.bytes) ((feedStop f o.targets).map (fun x => (x.1, o.stopAddr x.2)))
  | _, _ => .wait s

/-- Of bytes written to one place the last. -/
def lastBytes : List (Nat × Place × Byte) → List (Nat × Place × Byte)
  | [] => []
  | e :: es => if es.any (fun x => x.2.1 == e.2.1) then lastBytes es else e :: lastBytes es

/-- The bytes of other devices that no reply has confirmed. -/
def unconfirmed (replies : List RemoteReply) (ws : List (Nat × Place × Byte)) : List (Nat × Place × Byte) :=
  ws.filter (fun e => !(replies.any (fun r => r.kind == .write && (r.answer.map (·.1)) == some false &&
    match e.2.1 with
    | .phys a => r.pa ≤ a && a < r.pa + r.len
    | .scratch _ => false
    | .enc _ => false)))

/-- The destination bytes of an operation written (R108): the local ones at once; those of other devices when their
devices have confirmed them (R380), and then the operation ends. -/
def State.writeOp (s : State) (n : Nat) (o : EngineOp) (ws : List (Nat × Byte)) (stop : Option (Nat × Nat)) : State :=
  match Tab.get? s.grids o.grid with
  | none => s
  | some gr =>
    let as := ws.map (fun e => some e.1)
    match enginePlaces gr.space (dieOf o.pcore) .engineWrite s as with
    | .error (s, va, f) =>
      ({ s with ops := Tab.modify s.ops n (fun o => { o with out := some (ws, stop) }) } : State).waitOp n o gr.space va
        .engineWrite f
    | .ok (s, ps) =>
      let all := (ps.zip ws).filterMap (fun e => e.1.map (fun p => (e.2.1, p, e.2.2)))
      let away (p : Place) : Bool := match p with
        | .phys pa => remotePa pa
        | .scratch _ => false
        | .enc _ => false
      let s := s.performEntry o.team ⟨(all.filter (fun e => !away e.2.1)).map (fun e => e.2)⟩
      let rest := unconfirmed o.remote (lastBytes (all.filter (fun e => away e.2.1)))
      let keep (s : State) : State :=
        { s with ops := Tab.modify s.ops n (fun o => { o with out := some (rest.map (fun e => (e.1, e.2.2)), stop) }) }
      match remoteState o.remote .write 0 (rest.map (fun e => e.2.1)) with
      | .ready => s.endOp n o stop
      | .waiting => keep s
      | .failed pa => (keep s).failOp n o gr.space as ps pa o.dst .engineWrite
      | .ask chunks => (keep s).askOp n o .write chunks (fun ch => .write (bitsOf ch.1 0 33)
          (((remoteRuns (rest.map (fun e => e.2))).find? (fun r => r.1 == ch.1)).map (·.2) |>.getD []))

/-- An operation taken further, if its data come to a stop or to none as asked (R108, R253): its data, once; then its
writes. -/
def State.driveOp (s : State) (n : Nat) (o : EngineOp) (stops : Bool) : State :=
  match o.out with
  | some (ws, stop) => if stop.isSome = stops then s.writeOp n o ws stop else s
  | none =>
    match s.evalOp n o with
    | .wait s => s
    | .run s' ws stop => if stop.isSome = stops then s'.writeOp n o ws stop else s

/-- ENGINE_OP_COMPLETE (R108): an operation that no check stops writes its destination, then ends. -/
def execEngineOpComplete (op : Nat) (s : State) : Out :=
  .next (match Tab.get? s.ops op with
    | none => s
    | some o => if o.token.isSome ∨ o.aborted then s else s.driveOp op o false)

/-- Whether a write that an operation has sent to another device is still on its way (R108, R380). -/
def EngineOp.writesOut (o : EngineOp) : Bool := o.remote.any (fun r => r.kind == .write && r.answer == none)

/-- ENGINE_OP_STOP (R253, R261, R275): an operation that a check or an abort stops keeps what it wrote before the
failing data, then ends with ERR and ADDR. -/
def execEngineOpStop (op : Nat) (s : State) : Out :=
  .next (match Tab.get? s.ops op with
    | none => s
    | some o =>
      if o.aborted then (if o.writesOut then s else s.endOp op o (some (errAbort, 0))) else
      if o.token.isSome then s else s.driveOp op o true)

/-! ## LEASE.GET and LEASE.PUT (R263, R322, R323) -/

/-- The room key of a core. -/
def State.keyOf (s : State) (core : Nat) : RoomKey :=
  match Tab.get? s.cores core with
  | some k => k.key
  | none => ⟨0, 0, false, false⟩

/-- The limit on a lease of a queue (R303, R322): it acts as at least 4. -/
def State.leaseMax (s : State) (part queue : Nat) : Nat :=
  match Tab.get? s.parts part with
  | some p => match Tab.get? p.queues queue with
    | some q => max 4 q.leaseMax.toNat
    | none => 4
  | none => 4

/-- LEASE.GET (R263). -/
def execLeaseGet (e : Bool) (d x : Opd) (s : State) : Out :=
  uniWord (.leaseGet e d x) e (fun _ => true) (fun c =>
    let r := (c.grp.uniVal x).toNat
    let k := s.keyOf c.team.pcore
    let give (s : State) (n : Nat) := LaneRes.done (s.modGroup c.t c.g (·.result d (BitVec.ofNat 32 n)))
    if r = 0 ∨ 2 ^ 31 < r then .trap s causeIllegal 0
    else if !k.en then give s (max r 4)
    else if k.held && k.holder.toNat != c.grid.queue then give s 0
    else
      let n := min (max r 4) (s.leaseMax c.grid.part c.grid.queue)
      give (s.modCore c.team.pcore fun k =>
        { k with key := { k.key with held := true, holder := BitVec.ofNat 6 c.grid.queue,
                                     remain := BitVec.ofNat 32 n } }) n) s

/-- LEASE.PUT (R263): frees the key of the issuing grid's queue. -/
def execLeasePut (e : Bool) (s : State) : Out :=
  uniWord (.leasePut e) e (fun _ => true) (fun c =>
    let s := s.modCore c.team.pcore fun k =>
      if k.key.en && k.key.held && k.key.holder.toNat == c.grid.queue then { k with key := k.key.free } else k
    .done (s.modGroup c.t c.g (·.latchU none))) s

end Sys2Proof.Machine
end

