-- ==== Sys2Proof/Machine/Packet.lean ====
section
/-!
DEFINITION. Launch packets: their fields, checks and the grid that an accepted packet makes
(22_queues_and_dispatch.md R305 to R310; 07_uniform_and_control.md R170; 01_execution_model.md R17, R19).
-/
namespace Sys2Proof.Machine

/-- Field [lo + n − 1 : lo] of a launch packet (R305). -/
def pkField (p : BitVec 1024) (lo n : Nat) : Nat := (p.extractLsb' lo n).toNat

def pkEntry (p : BitVec 1024) : Nat := pkField p 0 64
def pkParam (p : BitVec 1024) : Nat := pkField p 64 64
def pkTeams (p : BitVec 1024) : Nat := pkField p 160 32
def pkGroups (p : BitVec 1024) : Nat := pkField p 192 6 + 1
def pkRegs (p : BitVec 1024) : Nat := pkField p 200 8
def pkTiles (p : BitVec 1024) : Nat := pkField p 208 7
def pkSerial (p : BitVec 1024) : Bool := pkField p 215 1 == 1
def pkScratch (p : BitVec 1024) : Nat := pkField p 224 20

/-- A team's scratchpad limit: its .scratch value rounded up to 4 KiB (R68). -/
def pkLimit (p : BitVec 1024) : Nat := (pkScratch p + 4095) / 4096 * 4096
def pkSched (p : BitVec 1024) : Nat := pkField p 256 64
def pkHandler (p : BitVec 1024) : Nat := pkField p 320 64
def pkRecord (p : BitVec 1024) : Nat := pkField p 384 64
def pkCounter (p : BitVec 1024) : Nat := pkField p 448 64
def pkDepAddr (p : BitVec 1024) : Nat := pkField p 512 64
def pkDepVal (p : BitVec 1024) : BitVec 32 := p.extractLsb' 576 32
def pkTenant (p : BitVec 1024) : BitVec 16 := p.extractLsb' 624 16
def pkGraph (p : BitVec 1024) : Nat := pkField p 640 64

/-- The groups per quarter that a register count allows (R17). -/
def groupsPerQuarter (regs : Nat) : Nat := min 16 (2048 / regs)

/-- The reserved fields of a packet are zero (R305). -/
def pkReservedZero (p : BitVec 1024) : Bool :=
  pkField p 704 320 == 0 && pkField p 608 16 == 0 && pkField p 244 12 == 0 && pkField p 216 8 == 0 &&
  pkField p 198 2 == 0

/-- Row 1 of R170: the register count. -/
def pkBadRegs (p : BitVec 1024) : Bool := pkRegs p % 8 != 0 || pkRegs p < 8 || 192 < pkRegs p

/-- Row 2 of R170: the team size. -/
def pkBadSize (p : BitVec 1024) : Bool := 32 < pkGroups p || (0 < pkTiles p && pkGroups p % 4 != 0)

/-- Row 3 of R170: reserved fields, ranges, alignments, and teams that no core could ever hold. -/
def pkBadField (p : BitVec 1024) : Bool :=
  let m := (pkGroups p + 3) / 4
  !pkReservedZero p || 524288 < pkScratch p || 64 < pkTiles p || pkTeams p == 0 ||
  pkDepAddr p % 4 != 0 || pkCounter p % 4 != 0 || pkRecord p % 16 != 0 ||
  64 < m * pkTiles p || groupsPerQuarter (pkRegs p) < m

/-- The lowest failing row of R170 among 1 to 3; 0 when none fails. -/
def packetStatus (p : BitVec 1024) : Nat :=
  if pkBadRegs p then 1 else if pkBadSize p then 2 else if pkBadField p then 3 else 0

/-- Child-grid slots of a partition (R310). -/
def childSlots : Nat := 4096

/-- A child grid's record (R170, R305, R310): its parent's queue, tenant tag and address space. A child that an aborted
grid still launches in its last run is aborted with it (R363). -/
def childGrid (parent : Grid) (number : Nat) (p : BitVec 1024) : Grid :=
  { parent with packet := p, depth := parent.depth + 1, parent := some number, order := 0, next := 0,
                liveTeams := 0, liveKids := 0, depOk := pkDepAddr p == 0, stopped := false, aborted := parent.aborted,
                recordDone := false, counterDone := false, wg := none, shadesFor := none, wait := .none }

/-- A child grid created whole (R170): its slot taken and its parent's count of live children raised. -/
def State.addChild (s : State) (parent : Nat) (g : Grid) : State :=
  let s := { s with grids := Tab.put s.grids s.fresh g, fresh := s.fresh + 1 }
  let s := s.modPart g.part fun q => { q with kids := q.kids + 1 }
  s.modGrid parent fun G => { G with liveKids := G.liveKids + 1 }

/-- The child-grid slots that a partition has in use (R310). -/
def State.kidsOf (s : State) (p : Nat) : Nat :=
  match Tab.get? s.parts p with
  | some q => q.kids
  | none => childSlots

/-- The packet that a team's fields come from: its node's packet in a work graph (R318), else its grid's. -/
def teamPacket (g : Grid) (T : Team) : BitVec 1024 :=
  match T.wg, g.wg with
  | some w, some graph =>
    if w.node = 0 then g.packet else
    match Tab.get? graph.nodes w.node with
    | some n => n.packet
    | none => g.packet
  | _, _ => g.packet

end Sys2Proof.Machine
end

