-- ==== Sys2Proof/Machine/Ready.lean ====
section
/-!
DEFINITION. Which groups and fragments are ready, and the bounds on how long one waits for others
(01_execution_model.md R22, R27, R42; 07_uniform_and_control.md R171).
-/
namespace Sys2Proof.Machine

/-! ## Ready lanes and groups -/

/-- Whether a lane of a group is one that can issue. -/
def Lane.ready (L : Lane) : Bool := L.live && L.hold == .run

/-- Whether a group may issue with respect to its own state (R22, R357): it has not ended and is not stopped at a run
boundary; asked to stop, it still finishes its run. -/
def Group.mayIssue (G : Group) : Bool := !G.ended && !G.saved && (!G.stopping || G.runMask != 0)

/-- Whether a lane of a group can issue, its turn and what its word waits for apart (R27). -/
def Group.laneReady (G : Group) (l : Nat) : Bool := G.mayIssue && (G.lane l).ready

/-- A group of a team. -/
def State.groupAt (s : State) (t g : Nat) : Option Group := (Tab.get? s.teams t).bind fun T => Tab.get? T.groups g

/-- The lanes that would issue with a lane. -/
def Group.unitOf (G : Group) (l : Nat) : List Nat := G.lanesWhere (G.lane l).joins

/-- Whether a lane's fragment waits for a reply of another device: to its word's fetch, or to its accesses. -/
def Group.awaitsReply (G : Group) (l : Nat) : Bool :=
  let unit := G.unitOf l
  G.remote.any (fun r => unit.contains r.lane && r.answer.isNone)

/-- The lowest lane of each fragment of a group that is among some lanes. -/
def Group.units (G : Group) (R : List Nat) : List Nat := R.filter (fun l => (G.unitOf l).headD l == l)

/-! ## The bound of R27 -/

/-- Runs of other fragments that a lane's fragment has waited for, and the most other fragments that were ready. -/
def Sched.skip (c : Sched) (t g l : Nat) : Nat × Nat :=
  match c.skips.find? (fun e => e.1 == (t, g, l)) with
  | some e => e.2
  | none => (0, 0)

/-- The fragments of the ready lanes other than a lane's own: by their lowest lanes. -/
def Group.rivals (G : Group) (R : List Nat) (l : Nat) : List Nat :=
  (G.units R).filter (fun m => !(G.unitOf l).contains m)

/-- How many more runs of other fragments a lane's fragment allows (R27). -/
def Sched.slack (c : Sched) (t g : Nat) (G : Group) (R : List Nat) (l : Nat) : Nat :=
  let w := c.skip t g l
  8 * max (max w.2 (G.rivals R l).length) 1 - w.1

/-- Whether a lane's fragment may begin a run with respect to the other ready fragments of its group: each of them can
still issue within the bound of R27, one after another. -/
def Sched.fragmentTurn (c : Sched) (t g : Nat) (G : Group) (R : List Nat) (l : Nat) : Bool :=
  let slacks := (G.rivals R l).map (c.slack t g G R)
  slacks.all (fun x => (slacks.filter (· ≤ x)).length ≤ x)

/-! ## YIELD (R171) -/

/-- A group that has executed YIELD: no other group has issued a run since. -/
def State.yielded (s : State) (t g : Nat) : State :=
  { s with sched := { s.sched with yields := s.sched.yields.filter (fun e => e.1 != (t, g)) ++ [((t, g), [])] } }

end Sys2Proof.Machine
end

