-- ==== Sys2Proof/Machine/System.lean ====
section
/-!
DEFINITION. System registers, the schedule table, LAUNCH, NOP, YIELD, BKPT and ERET (07_uniform_and_control.md
R164 to R171; 13_engines_and_system.md R265, R266; 24_traps_and_preemption.md R352).
-/
namespace Sys2Proof.Machine

/-- NOP (R171): no effect beyond the latch shift. -/
def execNop (e : Bool) (s : State) : Out := uniAlu (.nop e) e (fun _ G => G.latchU none) s

/-- YIELD (R171): the architected effect of NOP; its group's next run comes after one of every other ready group. -/
def execYield (e : Bool) (s : State) : Out :=
  uniWord (.yield e) e (fun _ => true) (fun c =>
    .done ((s.yielded c.t c.g).modGroup c.t c.g (·.latchU none))) s

/-- BKPT (R266): traps on every active lane, to return at the next word. -/
def execBkpt (e : Bool) (s : State) : Out :=
  word (.bkpt e) (fun _ => true) (fun c => trapWord s c causeBkpt 0 e) s

/-! ## ERET (R265, R352) -/

/-- The lanes that entered the running handler and are still live. -/
def Group.enteredLive (G : Group) : List Nat :=
  match G.handlers.reverse with
  | h :: _ => (maskLanes h.enter).filter (fun l => (G.lane l).live)
  | [] => []

/-- Whether the issuing fragment is the whole of the running handler (R265). -/
def Ctx.wholeHandler (c : Ctx) : Bool :=
  c.grp.trapLevel != 0 && 0 < c.level && c.level == c.grp.handlers.length && c.grp.enteredLive.all (fun l => c.lanes.contains l)

/-- The program counter that the frame holds for a lane (R351). -/
def savedPc (s : State) (c : Ctx) (l : Nat) : Nat :=
  s.frameValue c.team c.grp (c.grp.framePtr - windowBase + 8 * l) 8

/-- ERET (R352): the frame must lie in the scratchpad, and every saved program counter must be a code address;
then the lanes return (DEDUCED, log 32). -/
def execEret (s : State) : Out :=
  word .eret Ctx.wholeHandler (fun c =>
    let f := c.grp.framePtr
    let back := c.grp.enteredLive
    if !frameFits f c.team.limit then trapWord s c causeScratchRange (scratchInfo f 1024 c.team.limit)
    else if back.any (fun l => !codeAddress (savedPc s c l)) then trapWord s c causeIllegal 0
    else
      ((s.leaveHandler c.t c.g back).modGroup c.t c.g fun G =>
        { G with runMask := 0, uq := Latches.invalid }).settle c.t) s

/-! ## SYSRD and SYSWR (R164 to R167) -/

/-- The value of a system register as the issuing fragment reads it (R15, R164). %lane and %status hold one
value per lane: the lowest active lane's, and the OR over the active lanes. Outside a handler the trap
registers read as zero (DEDUCED, log 21). -/
def sysValue (s : State) (c : Ctx) (r : Nat) : Nat :=
  let inside := 0 < c.level
  match r with
  | 0x000 => c.lanes.headD 0
  | 0x001 => c.g
  | 0x002 => c.team.index
  | 0x003 => packetGrid c.grid.packet
  | 0x004 => c.team.core
  | 0x005 => c.team.cluster
  | 0x006 => c.team.pcore
  | 0x007 => c.grid.depth
  | 0x008 => pkTeams c.grid.packet
  | 0x009 => c.team.ngroup
  | 0x00A => c.team.limit
  | 0x00B => pkSched (teamPacket c.grid c.team)
  | 0x010 => (s.cycles + Config.clockOffset c.team.pcore) % 2 ^ 64
  | 0x011 => s.time % 2 ^ 64
  | 0x018 => (c.grp.statusOf c.lanes).toNat
  | 0x020 => (s.handlerFor c.t c.g c.team c.grp).toNat
  | 0x021 => if inside then c.grp.trapLevel.toNat else 0
  | 0x022 => if inside then c.grp.trapCause.toNat else 0
  | 0x023 => if inside then c.grp.trapPc.toNat else 0
  | 0x024 => if inside then c.grp.trapInfo.toNat else 0
  | _ => 0

/-- The 64-bit system registers (R164). -/
def wideSys (r : Nat) : Bool := [0x00B, 0x010, 0x011, 0x020, 0x023].contains r

/-- SYSRD (R164): q1 takes the low 32 bits. -/
def execSysrd (e : Bool) (d : Opd) (r : BitVec 16) (s : State) : Out :=
  uniAlu (.sysrd e d r) e (fun c G =>
    let v := sysValue s c r.toNat
    if wideSys r.toNat then G.results d (valueWords v 2) else G.result d (BitVec.ofNat 32 v)) s

/-- SYSWR (R164 to R166): %status clears the named flags in every active lane; %handler takes a code address,
which the group's own later instructions see at once. -/
def execSyswr (e : Bool) (d : Opd) (r : BitVec 16) (s : State) : Out :=
  uniWord (.syswr e d r) e (fun c => r.toNat != 0x020 || codeAddress (c.grp.sPair d.num)) (fun c =>
    if r.toNat = 0x020 then
      let h := BitVec.ofNat 64 (c.grp.sPair d.num)
      let s := s.modTeam c.t fun T => { T with handler := h }
      .done (s.modGroup c.t c.g fun G => { G with handler := h }.latchU none)
    else
      .done (s.modGroup c.t c.g fun G =>
        (G.mapLanes c.lanes (fun _ L => L.clearStatus ((c.grp.uniVal d).extractLsb' 0 6))).latchU none)) s

/-! ## SCHED (R168, R169) -/

/-- What a scan of a class's entries comes to: the best entry so far with its index, or an end of the word. -/
inductive Scan where
  | best (s : State) (b : Option (Nat × Nat))
  | stop (r : LaneRes)
  deriving DecidableEq, Repr

/-- LIMIT, PARAM and ENTRY of a schedule entry (R168). -/
def seLimit (v : Nat) : Nat := bitsOf v 0 32
def seParam (v : Nat) : Nat := bitsOf v 32 32
def seEntry (v : Nat) : Nat := bitsOf v 64 64

/-- Whether an entry takes the place of the best one (R169). -/
def seBetter (n v : Nat) (b : Option (Nat × Nat)) : Bool :=
  seEntry v != 0 && n ≤ seLimit v && match b with
    | some (_, w) => seLimit v < seLimit w
    | none => true

/-- The entries from j on (R169). -/
def scanSched (s0 : State) (c : Ctx) (at_ n : Nat) : Nat → Nat → State → Option (Nat × Nat) → Scan
  | 0, _, s, b => .best s b
  | fuel + 1, j, s, b =>
    match readLane s0 s c (c.lanes.headD 0) ((at_ + 16 * j) % 2 ^ 64) 16 with
    | .stop r => .stop r
    | .val s bs =>
      let v := leValue bs
      scanSched s0 c at_ n fuel (j + 1) s (if seBetter n v b then some (j, v) else b)

/-- SCHED (R169): the entry with the smallest limit that holds the size; 8 when none does. -/
def execSched (e : Bool) (d x : Opd) (k : BitVec 4) (s : State) : Out :=
  uniWord (.sched e d x k) e (fun _ => true) (fun c =>
    let tab := pkSched (teamPacket c.grid c.team)
    let give (s : State) (b : Option (Nat × Nat)) :=
      let ws := match b with
        | some (j, v) => valueWords (seEntry v) 2 ++ [BitVec.ofNat 32 (seParam v), BitVec.ofNat 32 j]
        | none => [0, 0, 0, 8]
      LaneRes.done (s.modGroup c.t c.g (·.results d ws))
    if tab = 0 then give s none else
    match scanSched s c (tab + 128 * k.toNat) (c.grp.uniVal x).toNat 8 0 s none with
    | .stop r => r
    | .best s b => give s b) s

/-! ## LAUNCH (R170, R37, R38, R102) -/

/-- LAUNCH: by group 0 only; the depth, the packet's read, its validation, and the child grid created whole.
Every earlier access of the group comes before the child. -/
def execLaunch (e : Bool) (d x : Opd) (s : State) : Out :=
  uniWord (.launch e d x) e (fun c => c.g == 0) (fun c =>
    let give (s : State) (status : Nat) := LaneRes.done (s.modGroup c.t c.g (·.result d (BitVec.ofNat 32 status)))
    if c.helpers then .done (s.modGroup c.t c.g (·.latchU none))
    else if 10 ≤ c.grid.depth then .trap s causeLaunchDepth 0
    else
      match readLane s s c (c.lanes.headD 0) (c.grp.sPair x.num) 128 with
      | .stop r => r
      | .val s1 bs =>
        let p := BitVec.ofNat 1024 (leValue bs)
        let status := if packetStatus p = 0 ∧ pkGraph p ≠ 0 then 3 else packetStatus p
        if status ≠ 0 then give s1 status
        else if childSlots ≤ s1.kidsOf c.grid.part then give s1 4
        else
          let child := childGrid c.grid c.team.grid p
          give ((s1.drainGroup c.t c.g).addChild c.team.grid child) 0) s

end Sys2Proof.Machine
end

