-- ==== Sys2Proof/Machine/Concierge.lean ====
section
/-!
DEFINITION. The Concierge: launch queues, packets taken, dependence words, placement and allocation of teams,
ends of teams and grids, room-key registers (22_queues_and_dispatch.md R303 to R323; 01_execution_model.md R13 to
R20, R37 to R39; 23_translation_and_residency.md R407).
-/
namespace Sys2Proof.Machine

/-! ## Accesses of a unit to virtual addresses (R407, R380) -/

/-- The Concierge's source number (R383; DEDUCED, log 62). -/
def conciergeSource : Nat := 0x1D2

/-- What a unit's access comes to: its result, a failed translation at an address, or an outstanding reply from
remote memory. -/
inductive UnitGot (α : Type) where
  | val (s : State) (a : α)
  | fault (s : State) (va : Nat) (k : AccKind) (f : XFail)
  | wait (s : State)
  deriving Repr

/-- A unit's computations one after another. -/
def UnitGot.bind {α β : Type} (g : UnitGot α) (f : State → α → UnitGot β) : UnitGot β :=
  match g with
  | .val s a => f s a
  | .fault s va k x => .fault s va k x
  | .wait s => .wait s

/-- The places of a unit's access. -/
def unitPlaces (s : State) (sel : TlbSel) (sp : Space) (k : AccKind) (va n : Nat) : UnitGot (List Place) :=
  match placesFrom s sel sp k (n / 4096 + 2) va n with
  | .ok s ps _ => .val s ps
  | .park s a f => .fault s a k f
  | .trap s _ _ => .wait s

/-- The byte of a place for a unit that waits for replies with a key. -/
def State.unitByte (s : State) (key : Nat) : Place → Byte
  | .phys a => if remotePa a then replyByte s.remotes .read key a else s.byte a
  | .enc a => Config.encodedByte a s.steps
  | .scratch _ => 0

/-- The replies that a key waited for are done with. -/
def State.dropReplies (s : State) (key : Nat) : State :=
  { s with remotes := s.remotes.filter (fun r => r.lane != key) }

/-- Requests of a unit sent (R380): a flow that is full takes them later. -/
def State.askUnit (s : State) (source key : Nat) (kind : ReqKind) (chunks : List (Nat × Nat)) (req : Nat × Nat → RemoteReq) :
    State :=
  chunks.foldl (fun s ch =>
    let dest := bitsOf ch.1 33 22
    match s.sendRequest source dest (req ch) with
    | (s, none) => s
    | (s, some seq) => { s with remotes := s.remotes ++ [⟨kind, key, ch.1, ch.2, source, dest, seq, none⟩] }) s

/-- An access of a unit once its places are known: remote bytes are asked for, and the rest follows when every reply is
here. -/
def unitAccess {α : Type} (s : State) (source key : Nat) (kind : ReqKind) (k : AccKind) (va : Nat) (ps : List Place)
    (req : Nat × Nat → RemoteReq) (go : State → State × α) : UnitGot α :=
  match remoteState s.remotes kind key ps with
  | .ask chunks => .wait (s.askUnit source key kind chunks req)
  | .waiting => .wait s
  | .failed pa => .fault (s.dropReplies key) (va + ps.idxOf (.phys pa)) k remoteFail
  | .ready => .val (go s).1 (go s).2

/-- n bytes read by a unit at a virtual address (R407). -/
def unitRead (s : State) (sel : TlbSel) (source key : Nat) (sp : Space) (va n : Nat) : UnitGot (List Byte) :=
  (unitPlaces s sel sp .load va n).bind fun s ps =>
    unitAccess s source key .read .load va ps (fun ch => .read (bitsOf ch.1 0 33) ch.2) fun s =>
      (s, ps.map (s.unitByte key))

/-- The bytes of a run among places and bytes. -/
def runBytes (bs : List (Place × Byte)) (pa : Nat) : List Byte :=
  (((remoteRuns bs).find? (fun r => r.1 == pa)).map (·.2)).getD []

/-- Bytes written by a unit at a virtual address (R407): those of another device when it has confirmed them (R380). -/
def unitWrite (s : State) (sel : TlbSel) (source key : Nat) (sp : Space) (va : Nat) (bs : List Byte) : UnitGot Unit :=
  (unitPlaces s sel sp .store va bs.length).bind fun s ps =>
    unitAccess s source key .write .store va ps (fun ch => .write (bitsOf ch.1 0 33) (runBytes (ps.zip bs) ch.1)) fun s =>
      ((s.performBytes 0 (ps.zip bs)).dropReplies key, ())

/-- A read of the Concierge. -/
def conciergeRead (s : State) (key : Nat) (sp : Space) (va n : Nat) : UnitGot (List Byte) :=
  unitRead s .none conciergeSource key sp va n

/-- A failed access of the Concierge on behalf of a grid: it waits for RESUME on a token, or makes the access
again when none is free (R335, R407). -/
def State.conciergeFault (s : State) (sp : Space) (va : Nat) (k : AccKind) (f : XFail) (what : CAccess) :
    State × CWait :=
  match raiseFault s sp va k f conciergeSource 0 with
  | (s, some i) => (s, .token i what)
  | (s, none) => (s, .none)

/-- A grid that waits on the Concierge's failed access. -/
def State.gridFault (s : State) (g : Nat) (sp : Space) (va : Nat) (k : AccKind) (f : XFail) (what : CAccess) : State :=
  let (s, w) := s.conciergeFault sp va k f what
  (s.dropReplies g).modGrid g fun G => { G with wait := w }

/-! ## Queue registers (R303 to R306) -/

/-- The state with a function applied to one queue. -/
def State.modQueue (s : State) (p q : Nat) (f : Queue → Queue) : State :=
  s.modPart p fun P => { P with queues := Tab.modify P.queues q f }

/-- A queue of a partition. -/
def State.queue? (s : State) (p q : Nat) : Option Queue :=
  match Tab.get? s.parts p with
  | some P => Tab.get? P.queues q
  | none => none

/-- QUEUE_TAIL_WRITE (R304): the packets below TAIL are the Concierge's to take. -/
def execQueueTailWrite (part queue : Nat) (val : BitVec 32) (s : State) : Out :=
  .next (s.modQueue part queue fun Q => { Q with tail := val })

/-- QUEUE_ERR_CLEAR (R306). -/
def execQueueErrClear (part queue : Nat) (s : State) : Out :=
  .next (s.modQueue part queue fun Q => { Q with err := false })

/-! ## Work-graph descriptors (R318) -/

/-- Bits of a launch packet that a node's packet does not use: NTEAM, SERIAL, CREC, CNTADDR, DEPADDR, DEPVAL,
WGRAPH (R318). -/
def nodeIgnored : BitVec 1024 :=
  BitVec.ofNat 1024 ((2 ^ 32 - 1) * 2 ^ 160 + 2 ^ 215 + (2 ^ 128 - 1) * 2 ^ 384 + (2 ^ 96 - 1) * 2 ^ 512
    + (2 ^ 64 - 1) * 2 ^ 640)

/-- A node's packet with its unused fields at values that pass every check: one team and nothing else. -/
def nodePacket (p : BitVec 1024) : BitVec 1024 := (p &&& ~~~ nodeIgnored) ||| BitVec.ofNat 1024 (2 ^ 160)

/-- Ports of a node descriptor. -/
def ndPorts (v : Nat) : List (Nat × Nat) :=
  (List.range 8).map (fun p => (bitsOf v (128 + 16 * p) 6, bitsOf v (134 + 16 * p) 10))
def ndDepth (v : Nat) : Nat := bitsOf v 120 8
def ndTimeout (v : Nat) : Nat := bitsOf v 96 21
def ndThresh (v : Nat) : Nat := bitsOf v 64 32
def ndPacket (v : Nat) : Nat := bitsOf v 0 64

/-- Whether a node descriptor's fields lie in their ranges, and every declared port leads to a deeper node. -/
def nodeOk (vs : List Nat) (i v : Nat) : Bool :=
  bitsOf v 256 256 == 0 && bitsOf v 117 3 == 0 && ndTimeout v ≤ 2 ^ 20 && (i != 0 || ndDepth v == 0) &&
  (i == 0 || (1 ≤ ndThresh v && ndThresh v ≤ 64)) &&
  (ndPorts v).all (fun p => p.2 == 0 || (p.1 < vs.length && ndDepth v < ndDepth (vs.getD p.1 0)))

/-- The records a team of a node may emit: ΣMAX over its ports. -/
def portSum (ports : List (Nat × Nat)) : Nat := ports.foldl (fun n p => n + p.2) 0

/-- M(d): the largest ΣMAX over some nodes of depth d (R318), from (depth, ΣMAX) pairs. -/
def depthMax (ns : List (Nat × Nat)) (d : Nat) : Nat :=
  ns.foldl (fun m n => if n.1 = d then max m n.2 else m) 0

/-- H(d): the sum of M(e) over every depth e greater than d (R319). -/
def depthKeep (ns : List (Nat × Nat)) (d : Nat) : Nat :=
  (List.range 256).foldl (fun n e => if d < e then n + depthMax ns e else n) 0

/-- Whether a descriptor's header and nodes are valid (R318), but for the nodes' packets. -/
def graphOk (h : Nat) (vs : List Nat) : Bool :=
  let base := bitsOf h 0 64
  let count := bitsOf h 64 32
  let ns := vs.map (fun v => (ndDepth v, portSum (ndPorts v)))
  base % 256 == 0 && globalAddr base && (count == 0 || globalAddr (base + 256 * count - 1)) &&
  vs.zipIdx.all (fun e => nodeOk vs e.2 e.1) && depthMax ns 0 + depthKeep ns 0 ≤ count

/-- Where the bunks held apart for input lists begin (R320): beyond the hostel, or before it where no address follows it
(DESIGN CHOICE, log 24). -/
def listPlace (base count : Nat) : Nat :=
  if globalAddr (base + 256 * count + 2 ^ 24) then base + 256 * count else base - 2 ^ 24

/-- A graph at its launch: nothing pending, every bunk free. -/
def newGraph (h : Nat) (packets : List (BitVec 1024)) (vs : List Nat) : WorkGraph :=
  let base := bitsOf h 0 64
  let count := bitsOf h 64 32
  { nodes := (vs.zip packets).zipIdx.map (fun e => (e.2,
      { ports := ndPorts e.1.1, depth := ndDepth e.1.1, timeout := ndTimeout e.1.1, thresh := ndThresh e.1.1,
        packet := e.1.2, pending := [], formed := [], made := 0, live := 0, closed := false })),
    free := (List.range count).map (fun i => base + 256 * i),
    listBase := listPlace base count, lists := [] }

/-- The node packets read in node order, node 0's being the grid's own; none when one fails R170. -/
def readNodePackets (key : Nat) (sp : Space) : State → List Nat → UnitGot (Option (List (BitVec 1024)))
  | s, [] => .val s (some [])
  | s, v :: vs =>
    (conciergeRead s key sp (ndPacket v) 128).bind fun s bs =>
      let p := nodePacket (BitVec.ofNat 1024 (leValue bs))
      if packetStatus p ≠ 0 then .val s none
      else (readNodePackets key sp s vs).bind fun s ps => .val s (ps.map (p :: ·))

/-- A work-graph descriptor read and checked (R306, R318): none when it is invalid. -/
def readGraph (s : State) (key : Nat) (sp : Space) (p : BitVec 1024) : UnitGot (Option WorkGraph) :=
  let at_ := pkGraph p
  if at_ % 64 ≠ 0 ∨ globalAddr at_ = false then .val s none else
  (conciergeRead s key sp at_ 64).bind fun s bs =>
    let h := leValue bs
    let n := bitsOf h 96 8
    if n = 0 ∨ 64 < n ∨ bitsOf h 104 408 ≠ 0 then .val s none else
    (conciergeRead s key sp (at_ + 64) (64 * n)).bind fun s bs =>
      let vs := (List.range n).map (fun i => leValue ((bs.drop (64 * i)).take 64))
      if graphOk h vs = false then .val s none
      else (readNodePackets key sp s (vs.drop 1)).bind fun s ps =>
        .val s (ps.map (fun ps => newGraph h (p :: ps) vs))

/-! ## PACKET_TAKE (R303 to R306, R325) -/

/-- Whether the Concierge takes a packet from a queue now. -/
def Queue.takeable (Q : Queue) : Bool :=
  Q.en && !Q.err && Q.cmd == 0 && Q.rootMode == 10 && Q.head != Q.tail && Q.wait == .none

/-- The address of packet k of a queue. -/
def Queue.packetAddr (Q : Queue) (k : Nat) : Nat := Q.qbase.toNat + 128 * (k % 2 ^ Q.qlog.toNat)

/-- A key for replies that a queue's packet waits for. -/
def queueKey (p q : Nat) : Nat := 2 ^ 64 + 64 * p + q

/-- A queue grid as its packet is taken (R39): its address space is the one its queue's root names (R325). -/
def queueGrid (p q number : Nat) (Q : Queue) (pk : BitVec 1024) (wg : Option WorkGraph) : Grid :=
  { packet := pk, depth := 0, parent := none, part := p, queue := q, tenant := pkTenant pk, asid := Q.rootAsid,
    root := Q.rootPpn, order := number, next := 0, liveTeams := 0, liveKids := 0, depOk := pkDepAddr pk == 0,
    stopped := false, aborted := false, recordDone := false, counterDone := false, wg := wg, shadesFor := none,
    wait := .none }

/-- A packet refused (R306): ERR and ESTAT set, HEAD where it is. -/
def State.refusePacket (s : State) (p q status : Nat) : State :=
  s.modQueue p q fun Q => { Q with err := true, estat := BitVec.ofNat 32 status, wait := .none }

/-- A packet accepted: its grid exists and HEAD moves on. -/
def State.acceptPacket (s : State) (p q : Nat) (Q : Queue) (pk : BitVec 1024) (wg : Option WorkGraph) : State :=
  let s := { s with grids := Tab.put s.grids s.fresh (queueGrid p q s.fresh Q pk wg), fresh := s.fresh + 1 }
  s.modQueue p q fun Q => { Q with head := Q.head + 1 }

/-- PACKET_TAKE (R306): the next packet of a queue is read and checked, and taken or refused. -/
def State.takePacket (s : State) (p q : Nat) (Q : Queue) : State :=
  let pk := BitVec.ofNat 1024 (leValue (s.bytes (Q.packetAddr Q.head.toNat) 128))
  let status := packetStatus pk
  if status ≠ 0 then s.refusePacket p q status
  else if pkGraph pk = 0 then s.acceptPacket p q Q pk none
  else
    let sp : Space := ⟨p, Q.rootAsid, Q.rootPpn⟩
    match readGraph s (queueKey p q) sp pk with
    | .wait s => s
    | .fault s va k f =>
      let (s, w) := s.conciergeFault sp va k f .graph
      (s.dropReplies (queueKey p q)).modQueue p q fun Q => { Q with wait := w }
    | .val s none => (s.dropReplies (queueKey p q)).refusePacket p q 5
    | .val s (some wg) => (s.dropReplies (queueKey p q)).acceptPacket p q Q pk (some wg)

/-- Whether a partition's system runs. -/
def State.partUp (s : State) (p : Nat) : Bool :=
  match Tab.get? s.parts p with
  | some P => P.running && !P.halted
  | none => false

/-- PACKET_TAKE (R306). -/
def execPacketTake (part queue : Nat) (s : State) : Out :=
  .next (match s.queue? part queue with
    | some Q => if s.partUp part && Q.takeable then s.takePacket part queue Q else s
    | none => s)

/-! ## DEPENDENCE_POLL (R309) -/

/-- Whether a dependence word is satisfied: its distance past DEPVAL is not negative. -/
def dependenceMet (word val : BitVec 32) : Bool := !(word - val).msb

/-- DEPENDENCE_POLL (R309). -/
def execDependencePoll (grid : Nat) (s : State) : Out :=
  .next (match Tab.get? s.grids grid with
    | none => s
    | some g =>
      if g.depOk || g.aborted || g.wait != .none || !s.partUp g.part then s else
      match conciergeRead s grid g.space (pkDepAddr g.packet) 4 with
      | .wait s => s
      | .fault s va k f => s.gridFault grid g.space va k f .dependence
      | .val s bs =>
        let met := dependenceMet (BitVec.ofNat 32 (leValue bs)) (pkDepVal g.packet)
        (s.dropReplies grid).modGrid grid fun g => { g with depOk := met })

/-! ## Allocation within a core (R313, R314) -/

/-- What a team needs of a core. -/
structure Need where
  groups : Nat
  regs : Nat
  tiles : Nat
  scratch : Nat
  tenant : BitVec 16
  /-- Shape handles that must be free (R361). -/
  shapes : List Nat
  deriving DecidableEq, Repr

/-- What a launch packet's teams need. -/
def packetNeed (p : BitVec 1024) (tenant : BitVec 16) : Need :=
  ⟨pkGroups p, pkRegs p, pkTiles p, pkScratch p, tenant, []⟩

/-- The blocks that a count takes: one for each one-bit, the largest first (R314). -/
def blockSizes (n : Nat) : List Nat := ((List.range 9).reverse.filter (fun k => n.testBit k)).map (2 ^ ·)

/-- The lowest free aligned block of a size (R314; the lowest is a DESIGN CHOICE, log 25). -/
def buddyFind (used : List (Nat × Nat)) (total size : Nat) : Option Nat :=
  ((List.range (total / size)).map (· * size)).find? (fun b => used.all (fun u => !overlaps b size u.1 u.2))

/-- Blocks of the given sizes. -/
def buddyAll (used : List (Nat × Nat)) (total : Nat) : List Nat → Option (List (Nat × Nat))
  | [] => some []
  | n :: ns =>
    match buddyFind used total n with
    | none => none
    | some b => (buddyAll ((b, n) :: used) total ns).map ((b, n) :: ·)

/-- The next power of two at or above a number up to 128, 0 for 0. -/
def upTo2 (n : Nat) : Nat := if n = 0 then 0 else ((List.range 8).map (2 ^ ·)).find? (fun p => decide (n ≤ p)) |>.getD 128

/-- Scratchpad granules of a team (R314): its block's size. -/
def scratchGranules (bytes : Nat) : Nat := upTo2 ((bytes + 4095) / 4096)

/-- The teams on a physical core. -/
def State.teamsOn (s : State) (pcore : Nat) : List Team := (s.teams.filter (fun t => t.2.pcore == pcore)).map (·.2)

/-- Where a group is put: its quarter, its register blocks and its tile blocks. -/
abbrev Seat := Nat × List (Nat × Nat) × List (Nat × Nat)

/-- The seats that the groups on a core take. -/
def seatsOf (ts : List Team) : List Seat :=
  ts.flatMap (fun T => T.groups.map (fun G => (G.2.quarter, G.2.regBlocks, G.2.zBlocks)))

/-- Seats for groups g, g + 1, …, n − 1 of a team with rotation ρ (R313), beside the seats taken: granules and tiles for
each, and at most 16 groups on a quarter (R17). -/
def seatGroups (n : Need) (rho : Nat) : Nat → Nat → List Seat → Option (List Seat)
  | 0, _, _ => some []
  | fuel + 1, g, taken =>
    let q := (g + rho) % 4
    let here := taken.filter (fun x => x.1 == q)
    if 16 ≤ here.length then none else
    match buddyAll (here.flatMap (·.2.1)) 256 (blockSizes (n.regs / 8)),
        buddyAll (here.flatMap (·.2.2)) 64 (blockSizes n.tiles) with
    | some rb, some zb => (seatGroups n rho fuel (g + 1) ((q, rb, zb) :: taken)).map ((q, rb, zb) :: ·)
    | _, _ => none

/-- The scratchpad block of a team beside those taken. -/
def scratchBlock (taken : List (Nat × Nat)) (bytes : Nat) : Option (Nat × Nat) :=
  let n := scratchGranules bytes
  if n = 0 then some (0, 0) else (buddyFind taken 128 n).map (·, n)

/-- Whether a core can hold a team, and where (R313): its own tenant tag, or one it has been scrubbed for; a seat
for every group with the first rotation that fits; a scratchpad block; and free shape handles (DESIGN CHOICE, log
15). -/
def State.fits (s : State) (pcore rho : Nat) (n : Need) : Option (List Seat × (Nat × Nat)) :=
  match Tab.get? s.cores pcore with
  | none => none
  | some k =>
    if k.dead || (k.tag != none && k.tag != some n.tenant) || n.shapes.any (fun h => (Tab.get? k.shapes h).isSome) then none
    else
      let ts := s.teamsOn pcore
      match ((List.range 4).map (fun d => (rho + d) % 4)).findSome? (fun r => seatGroups n r n.groups 0 (seatsOf ts)),
          scratchBlock (ts.map (·.block)) n.scratch with
      | some seats, some b => some (seats, b)
      | _, _ => none

/-! ## Placement (R311, R312) -/

/-- The circular distance of two positions among n cores. -/
def circular (n a b : Nat) : Nat := min ((a + n - b) % n) ((b + n - a) % n)

/-- Droop events of a core in the last 2^16 cycles (R311). -/
def State.recentDroops (s : State) (pcore : Nat) : Nat :=
  match Tab.get? s.cores pcore with
  | some k => (k.droops.filter (fun d => s.cycles < d + 2 ^ 16)).length
  | none => 0

/-- A core's score for a team (R311; DESIGN CHOICE, log 51). -/
def State.score (s : State) (P : Part) (pos i : Nat) : Nat :=
  let pcore := P.cfg.cores.getD i 0
  P.tw.toNat * Config.heat pcore s.cycles + P.dw.toNat * s.recentDroops pcore + circular P.cfg.cores.length i pos

/-- The cores of the placement window of the next team, by %core (R311). -/
def Part.window (P : Part) : List Nat :=
  let n := P.cfg.cores.length
  (List.range n).filter (fun i => circular n i (P.placed % n) ≤ 8)

/-- The core that the next team goes to (R311): %core, its seats and its scratchpad block. -/
def State.placeTeam (s : State) (P : Part) (n : Need) : Option (Nat × List Seat × (Nat × Nat)) :=
  let rho := Config.rotation s.fresh
  (P.window.filterMap (fun i => (s.fits (P.cfg.cores.getD i 0) rho n).map (fun a => (i, a)))).foldl
    (fun best c =>
      let pos := P.placed % P.cfg.cores.length
      match best with
      | none => some c
      | some b => if s.score P pos c.1 < s.score P pos b.1 then some c else best) none

/-! ## Teams at their start (R20) -/

/-- A group at team start (R20). -/
def Group.start (pc : Word64) (regs : Store 32) (handler : Word64) (seat : Seat) : Group :=
  { quarter := seat.1, lanes := (List.range 32).map (fun l => (l, Lane.start pc)), s := regs, k := [], f := [], z := [],
    uq := Latches.invalid, runMask := 0, runPos := 0, fifo := [], early := [], handlers := [], trapLevel := 0, trapCause := 0,
    trapPc := 0, trapInfo := 0, handler := handler, heldHandler := handler, pending := none, history := [], nextBase := 1, ended := false, stopped := false,
    stopping := false, saved := false, regBlocks := seat.2.1, zBlocks := seat.2.2, remote := [], began := [], word := 0, ahead := [],
    pieces := [], lazy := false }

/-- s0:s1 and s58:s59 at team start (R20). -/
def startRegs (param limit : Nat) : Store 32 :=
  Store.setRange (Store.setRange [] 0 [BitVec.ofNat 32 param, BitVec.ofNat 32 (param / 2 ^ 32)]) 58
    [BitVec.ofNat 32 (windowBase + limit), BitVec.ofNat 32 ((windowBase + limit) / 2 ^ 32)]

/-- A team at its start (R20). -/
def newTeam (grid index : Nat) (part core pcore : Nat) (p : BitVec 1024) (param : Nat) (seats : List Seat)
    (block : Nat × Nat) (wg : Option WgTeam) : Team :=
  let handler := BitVec.ofNat 64 (pkHandler p)
  let limit := pkLimit p
  { grid := grid, index := index, part := part, core := core, cluster := core / 8, pcore := pcore, ngroup := pkGroups p,
    regs := pkRegs p, ztiles := pkTiles p, limit := limit, scratch := [], buffer := [], late := [], handler := handler,
    groups := seats.zipIdx.map (fun e =>
      (e.2, Group.start (BitVec.ofNat 64 (pkEntry p)) (startRegs param limit) handler e.1)),
    barriers := (List.range 17).map (fun b => (b, ⟨0, 0, 0⟩)),
    conv := (List.range 8).map (fun c => (c, ⟨0, 0, false, 0, 0, false⟩)),
    steps := [], wg := wg, shade := [], shadeFor := none, block := block }

/-- A team seated (R308, R311): its core serves its tenant tag, and its grid counts it. -/
def State.seatTeam (s : State) (T : Team) (tenant : BitVec 16) : State :=
  let s := { s with teams := Tab.put s.teams s.fresh T, fresh := s.fresh + 1 }
  let s := s.modCore T.pcore fun k => { k with tag := some tenant }
  s.modGrid T.grid fun g => { g with liveTeams := g.liveTeams + 1 }

/-! ## Work graphs in admission (R319 to R321) -/

/-- The depths and ΣMAX of a graph's nodes. -/
def WorkGraph.sums (w : WorkGraph) : List (Nat × Nat) := w.nodes.map (fun n => (n.2.depth, portSum n.2.ports))

/-- Whether the hostel can reserve for a team of a node and keep H of its depth (R319). -/
def WorkGraph.canReserve (w : WorkGraph) (n : WgNode) : Bool :=
  portSum n.ports + depthKeep w.sums n.depth ≤ w.free.length

/-- The nodes that have a port into a node. -/
def WorkGraph.producers (w : WorkGraph) (n : Nat) : List (Nat × WgNode) :=
  w.nodes.filter (fun m => m.2.ports.any (fun p => p.2 != 0 && p.1 == n))

/-- Whether every node with a port into a node is closed (R321). -/
def WorkGraph.producersClosed (w : WorkGraph) (n : Nat) : Bool := (w.producers n).all (fun m => m.2.closed)

/-- The graph with every node that R321 closes closed, a pass of it. `root` says that node 0's teams have all
ended. -/
def WorkGraph.closeOnce (w : WorkGraph) (root : Bool) : WorkGraph :=
  w.nodes.foldl (fun w n =>
    match Tab.get? w.nodes n.1 with
    | none => w
    | some N =>
      let shut := if n.1 = 0 then root else
        N.live == 0 && N.pending == [] && N.formed == [] && w.producersClosed n.1
      { w with nodes := Tab.put w.nodes n.1 { N with closed := shut } }) w

/-- The graph with its closed nodes found: a node's producers are less deep, so 64 passes reach every node. -/
def WorkGraph.close (w : WorkGraph) (root : Bool) : WorkGraph :=
  w.nodes.foldl (fun w _ => w.closeOnce root) w

/-- Whether every node of a graph is closed. -/
def WorkGraph.allClosed (w : WorkGraph) : Bool := w.nodes.all (fun n => n.2.closed)

/-- A grid's graph examined again (R321). -/
def Grid.settleGraph (g : Grid) : Grid :=
  match g.wg with
  | none => g
  | some w =>
    let root := match Tab.get? w.nodes 0 with
      | some N => g.next == pkTeams g.packet && N.live == 0
      | none => true
    { g with wg := some (w.close root) }

/-- A node forms a team of its oldest records, THRESH at most (R321). -/
def WgNode.form (n : WgNode) : WgNode :=
  { n with formed := n.formed ++ [n.pending.take n.thresh], pending := n.pending.drop n.thresh }

/-- The state with a function applied to a node of a grid's graph. -/
def State.modNode (s : State) (g n : Nat) (f : WgNode → WgNode) : State :=
  s.modGrid g fun G =>
    match G.wg with
    | some w => { G with wg := some { w with nodes := Tab.modify w.nodes n f } }
    | none => G

/-- A node of a grid's graph. -/
def State.node? (s : State) (g n : Nat) : Option (WorkGraph × WgNode) :=
  match Tab.get? s.grids g with
  | some G => match G.wg with
    | some w => (Tab.get? w.nodes n).map (w, ·)
    | none => none
  | none => none

/-- WG_NODE_TEAM_FORM (R321): at THRESH records, or with closed producers. -/
def execWgNodeTeamForm (grid node : Nat) (s : State) : Out :=
  .next (match s.node? grid node with
    | some (w, n) =>
      if n.pending ≠ [] ∧ (n.thresh ≤ n.pending.length ∨ w.producersClosed node) then s.modNode grid node WgNode.form
      else s
    | none => s)

/-- WG_RECORD_TIMEOUT (R321): the oldest pending record has waited TIMEOUT cycles. -/
def execWgRecordTimeout (grid node : Nat) (s : State) : Out :=
  .next (match s.node? grid node with
    | some (_, n) =>
      match n.pending with
      | r :: _ => if n.timeout ≠ 0 ∧ r.since + n.timeout ≤ s.cycles then s.modNode grid node WgNode.form else s
      | [] => s
    | none => s)

/-- The slot of an input list in the bunks held apart: 64 addresses and two words take three bunks. -/
def listAddr (w : WorkGraph) (slot : Nat) : Nat := w.listBase + 768 * slot

/-- The lowest slot that no team's input list uses. -/
def WorkGraph.freeList (w : WorkGraph) : Nat :=
  ((List.range (w.lists.length + 1)).find? (fun i => !w.lists.contains i)).getD 0

/-- An input list's bytes (R320). -/
def inputList (param : Nat) (rs : List WgRecord) : List Byte :=
  toBytes 4 rs.length ++ toBytes 4 0 ++ toBytes 8 param ++ rs.flatMap (fun r => toBytes 8 r.bunk)

/-! ## TEAM_ADMIT (R308 to R313, R319) -/

/-- The next team a grid offers: node 0's next %team, or the oldest formed team of a node. -/
inductive Offer where
  | plain (index : Nat)
  | node (n : Nat) (records : List WgRecord)
  deriving DecidableEq, Repr

/-- The nodes of a graph, deepest first (among teams of one grid the deeper goes first: DESIGN CHOICE, log 24). -/
def WorkGraph.byDepth (w : WorkGraph) : List (Nat × WgNode) :=
  (List.range 256).reverse.flatMap (fun d => w.nodes.filter (fun n => n.2.depth == d))

/-- The team that a grid offers to admission, if it has one (R308, R319). -/
def Grid.offer (g : Grid) : Option Offer :=
  let plain : Option Offer := if g.next < pkTeams g.packet then some (.plain g.next) else none
  match g.wg with
  | none => plain
  | some w =>
    match w.byDepth.findSome? (fun n => match n.2.formed with
        | rs :: _ => if w.canReserve n.2 then some (Offer.node n.1 rs) else none
        | [] => none) with
    | some o => some o
    | none => match plain, Tab.get? w.nodes 0 with
      | some o, some n => if w.canReserve n then some o else none
      | _, _ => none

/-- Whether a grid still has teams to admit (R308). -/
def Grid.unadmitted (g : Grid) : Bool :=
  !g.aborted && (g.next < pkTeams g.packet || match g.wg with
    | some w => !w.allClosed
    | none => pkGraph g.packet != 0)

/-- Whether a grid's work graph has still to be read: one made again by a restore (R361, R407). -/
def Grid.wantsGraph (g : Grid) : Bool := !g.aborted && g.wg.isNone && pkGraph g.packet != 0

/-- The packet that an offered team runs. -/
def Grid.offerPacket (g : Grid) : Offer → BitVec 1024
  | .plain _ => g.packet
  | .node n _ => match g.wg with
    | some w => match Tab.get? w.nodes n with
      | some N => N.packet
      | none => g.packet
    | none => g.packet

/-- The queue grids of a queue that come before a grid and have not retired. -/
def State.earlier (s : State) (g : Grid) : List Nat :=
  (s.grids.filter (fun h => h.2.part == g.part && h.2.queue == g.queue && h.2.parent.isNone && h.2.order < g.order)).map (·.1)

/-- Whether a grid may have a team admitted now (R305, R309). -/
def State.gridReady (s : State) (g : Grid) : Bool :=
  g.depOk && g.wait == .none && !g.wantsGraph && (g.parent.isSome || !pkSerial g.packet || s.earlier g == [])

/-- The child grids of a queue with teams to admit, in ascending number (R310). -/
def State.childGrids (s : State) (p q : Nat) : List (Nat × Grid) :=
  s.grids.filter (fun g => g.2.part == p && g.2.queue == q && g.2.parent.isSome && g.2.shadesFor.isNone && g.2.unadmitted)

/-- The child grid of a queue that admission looks at: the one with the lowest number; while it waits, it blocks the others and
its queue (R308 to R310; which child comes first is a DESIGN CHOICE, log 72). -/
def State.childHead (s : State) (p q : Nat) : Option (Nat × Grid) := (s.childGrids p q).head?

/-- The queue grid of a queue that admission looks at: the earliest with teams to admit (R308). -/
def State.packetHead (s : State) (p q : Nat) : Option (Nat × Grid) :=
  let gs := s.grids.filter (fun g => g.2.part == p && g.2.queue == q && g.2.parent.isNone && g.2.unadmitted)
  gs.foldl (fun best g => match best with
    | none => some g
    | some b => if g.2.order < b.2.order then some g else best) none

/-- What a queue puts forward: the grid and whether it goes ahead of packets of equal priority (R310). -/
def State.forward (s : State) (p q : Nat) : Option (Nat × Grid × Bool) :=
  match s.childHead p q with
  | some (n, g) => if s.gridReady g then some (n, g, true) else none
  | none => match s.packetHead p q with
    | some (n, g) => if s.gridReady g then some (n, g, false) else none
    | none => none

/-- The queues of a partition in the order in which they are served (R308, R310): by priority; at equal priority
those that put a child grid or a restored team forward come first; then in ascending number from the one after
the last queue served. -/
def serveOrder (P : Part) (ahead : Nat → Bool) : List Nat :=
  let ring := (List.range 64).map (fun i => (P.lastQueue + 1 + i) % 64)
  let prio (q : Nat) : Nat := match Tab.get? P.queues q with
    | some Q => Q.prio.toNat
    | none => 0
  (List.range 8).reverse.flatMap (fun pr =>
    let qs := ring.filter (fun q => prio q == pr)
    qs.filter ahead ++ qs.filter (fun q => !ahead q))

/-- A grid's offered team admitted at a place: node 0's and ordinary teams take the grid's next %team; a team of
a deeper node takes a place among that node's own teams and starts with its input list (R20, R319, R320). -/
def State.admitOffer (s : State) (P : Part) (p n : Nat) (g : Grid) (o : Offer) (at_ : Nat × List Seat × (Nat × Nat)) :
    State :=
  let pk := g.offerPacket o
  let pcore := P.cfg.cores.getD at_.1 0
  let seat (s : State) (index param : Nat) (wg : Option WgTeam) : State :=
    let s := s.seatTeam (newTeam n index p at_.1 pcore pk param at_.2.1 at_.2.2 wg) g.tenant
    s.modPart p fun P => { P with placed := P.placed + 1, lastQueue := g.queue }
  let reserve (w : WorkGraph) (N : WgNode) (k input : Nat) (eaten : List Nat) : WorkGraph × WgTeam :=
    ({ w with free := w.free.drop (portSum N.ports) },
      { node := k, left := N.ports.zipIdx.map (fun e => (e.2, e.1.2)), pool := w.free.take (portSum N.ports), held := [],
        consumed := eaten, input := input, done := false })
  match o, g.wg with
  | .plain i, none => seat (s.modGrid n fun g => { g with next := g.next + 1 }) i (pkParam pk) none
  | .plain i, some w =>
    match Tab.get? w.nodes 0 with
    | none => s
    | some N =>
      let (w, t) := reserve w N 0 0 []
      let w := { w with nodes := Tab.put w.nodes 0 { N with made := N.made + 1, live := N.live + 1 } }
      seat (s.modGrid n fun g => { g with next := g.next + 1, wg := some w }) i (pkParam pk) (some t)
  | .node k rs, some w =>
    match Tab.get? w.nodes k with
    | none => s
    | some N =>
      let slot := w.freeList
      let input := listAddr w slot
      match unitWrite s .none conciergeSource n g.space input (inputList (pkParam pk) rs) with
      | .wait s => s
      | .fault s va k f => s.gridFault n g.space va k f .hostel
      | .val s () =>
        let (w, t) := reserve w N k input (rs.map (·.bunk))
        let w := { w with lists := w.lists ++ [slot],
                          nodes := Tab.put w.nodes k { N with formed := N.formed.drop 1, made := N.made + 1, live := N.live + 1 } }
        seat (s.modGrid n fun g => { g with wg := some w }) N.made input (some t)
  | .node _ _, none => s

/-- A queue's offered team admitted, if a core of the window can hold it (R308, R311). -/
def State.admitFrom (s : State) (p q : Nat) : Option State :=
  match Tab.get? s.parts p, s.forward p q with
  | some P, some (n, g, _) =>
    match Tab.get? P.queues q with
    | some Q =>
      if Q.cmd = 1 ∨ Q.cmd = 3 then none else
      match g.offer with
      | some o => (s.placeTeam P (packetNeed (g.offerPacket o) g.tenant)).map (s.admitOffer P p n g o)
      | none => none
    | none => none
  | _, _ => none

/-! ## CORE_SCRUB (R316) and what the compactor moves (R315) -/

/-- A core scrubbed (R316): its shape table, duplicate filter and waystation cache are empty. Registers, tiles,
scratchpad, barriers and convergence registers went with the teams that held them, and start at zero (R20) (DEDUCED,
log 55). -/
def Core.scrub (k : Core) : Core := { k with tag := none, shapes := [], filter := [], way := [] }

/-- Whether a team of another tenant tag waits to be admitted in a partition that has a core: one of a grid, or a saved
one that a restore makes again. -/
def State.wantsScrub (s : State) (core : Nat) (tag : BitVec 16) : Bool :=
  let has (p : Nat) : Bool := match Tab.get? s.parts p with
    | some P => P.cfg.cores.contains core
    | none => false
  s.grids.any (fun g => g.2.unadmitted && g.2.tenant != tag && has g.2.part) ||
  s.parts.any (fun (P : Nat × Part) => P.2.cfg.cores.contains core && P.2.queues.any (fun Q => Q.2.restore.any (fun r =>
    match Tab.get? s.grids r.2 with
    | some g => g.tenant != tag
    | none => false)))

/-- CORE_SCRUB (R316): an empty core before it serves another tenant tag. -/
def execCoreScrub (core : Nat) (s : State) : Out :=
  .next (match Tab.get? s.cores core with
    | some k =>
      match k.tag with
      | some tag => if s.teamsOn core = [] ∧ s.wantsScrub core tag = true then s.modCore core Core.scrub else s
      | none => s
    | none => s)

/-- Whether the compactor may move a team's groups (R315): all at a run boundary, no step started, not being saved. -/
def Team.movable (T : Team) : Bool :=
  T.steps == [] && T.groups.all (fun G => G.2.runMask == 0 && !G.2.stopping && !G.2.saved)

/-- Blocks of the sizes given moved to the lowest places beside those that stay; as they were if that fails. -/
def moveBlocks (used : List (Nat × Nat)) (total : Nat) (bs : List (Nat × Nat)) : List (Nat × Nat) :=
  (buddyAll used total (bs.map (·.2))).getD bs

/-- One team's groups and scratchpad moved to the lowest free places of their quarters and core. -/
def State.compactTeam (s : State) (core t : Nat) : State :=
  match Tab.get? s.teams t with
  | none => s
  | some T =>
    if T.pcore ≠ core ∨ T.movable = false then s else
    let others := (s.teams.filter (fun e => e.1 != t && e.2.pcore == core)).map (·.2)
    let s := T.groups.foldl (fun s e =>
      let mine := match Tab.get? s.teams t with
        | some T => (T.groups.filter (fun h => h.1 != e.1)).map (fun G => (G.2.quarter, G.2.regBlocks, G.2.zBlocks))
        | none => []
      let here := (seatsOf others ++ mine).filter (fun x => x.1 == e.2.quarter)
      s.modGroup t e.1 fun G =>
        { G with regBlocks := moveBlocks (here.flatMap (·.2.1)) 256 G.regBlocks,
                 zBlocks := moveBlocks (here.flatMap (·.2.2)) 64 G.zBlocks }) s
    s.modTeam t fun T =>
      if T.block.2 = 0 then T
      else { T with block := (moveBlocks (others.map (·.block)) 128 [T.block]).headD T.block }

/-! ## TEAM_END (R39, R262, R264, R319, R323) -/

/-- WG.DONE (R264): every port of the team is closed, and the bunks it has not emitted return to the hostel. -/
def State.closePorts (s : State) (t : Nat) : State :=
  match Tab.get? s.teams t with
  | none => s
  | some T =>
    match T.wg with
    | none => s
    | some w =>
      let back := w.pool ++ w.held.map (·.1)
      let s := s.modTeam t fun T => { T with wg := some { w with done := true, pool := [], held := [], left := [] } }
      s.modGrid T.grid fun g =>
        match g.wg with
        | some graph => { g with wg := some { graph with free := graph.free ++ back } }
        | none => g

/-- A node team's bunks and input list return to the hostel, and its node counts it no more (R319, R320). -/
def State.endNode (s : State) (g : Nat) (w : WgTeam) : State :=
  s.modGrid g fun G =>
    match G.wg with
    | some graph =>
      ({ G with wg := some { graph with
          free := graph.free ++ w.consumed,
          lists := graph.lists.filter (fun i => w.node == 0 || listAddr graph i != w.input),
          nodes := Tab.modify graph.nodes w.node (fun n => { n with live := n.live - 1 }) } } : Grid).settleGraph
    | none => G

/-- Whether a team may end: every group has ended and no engine operation of it is in flight (R39, R262). -/
def State.teamOver (s : State) (t : Nat) (T : Team) : Bool :=
  T.groups.all (fun G => G.2.ended) && s.ops.all (fun o => o.2.team != t)

/-- The queue of a team's grid. -/
def State.queueOf (s : State) (T : Team) : Option (Nat × Nat) :=
  (Tab.get? s.grids T.grid).map (fun g => (g.part, g.queue))

/-- The key of a core freed when no team of its holder's queue is left there (R323). -/
def State.settleKey (s : State) (core : Nat) : State :=
  let held := (s.keyOf core).holder.toNat
  if (s.teamsOn core).any (fun T => (s.queueOf T).map (·.2) == some held) then s
  else s.modCore core fun k => if k.key.held then { k with key := k.key.free } else k

/-- A team's shape handles are free. -/
def Core.dropShapes (k : Core) (t : Nat) : Core := { k with shapes := k.shapes.filter (fun e => e.2.team != t) }

/-- A team ends (R39): its stores are performed, it performs WG.DONE, and everything it held is free. -/
def State.endTeam (s : State) (t : Nat) (T : Team) : State :=
  let s := (s.drainTeam t).closePorts t
  let s := match T.wg with
    | some w => s.endNode T.grid w
    | none => s
  let s := { s with teams := Tab.drop s.teams t }
  let s := s.modCore T.pcore (·.dropShapes t)
  let s := s.modGrid T.grid fun g => ({ g with liveTeams := g.liveTeams - 1 } : Grid).settleGraph
  s.settleKey T.pcore

/-- TEAM_END (R262). -/
def execTeamEnd (team : Nat) (s : State) : Out :=
  .next (match Tab.get? s.teams team with
    | some T => if s.teamOver team T then s.endTeam team T else s
    | none => s)

/-! ## GRID_RETIRE (R39, R307, R310, R133) -/

/-- Whether all teams of a grid have ended: none is left to admit, unless the grid is aborted. -/
def Grid.teamsOver (g : Grid) : Bool := g.liveTeams == 0 && !g.unadmitted

/-- Whether accepted triangles of a grid are unfinished (R133). -/
def State.trianglesOf (s : State) (g : Nat) : Bool := s.cores.any (fun k => k.2.raster.any (fun t => t.grid == g))

/-- Whether a grid can retire now (R39). -/
def State.gridOver (s : State) (n : Nat) (g : Grid) : Bool :=
  g.teamsOver && g.liveKids == 0 && !s.trianglesOf n && g.wait == .none

/-- STATUS of the completion record (R307). -/
def Grid.status (g : Grid) : Nat := if g.aborted then 2 else if g.stopped then 1 else 0

/-- The completion record (R307). -/
def completionRecord (stamp : Nat) (g : Grid) : List Byte :=
  toBytes 8 stamp ++ toBytes 4 (packetGrid g.packet) ++ toBytes 4 g.status

/-- One added to the word at CNTADDR (R307), as an atomic at system scope; at another device by its Steward (R380). -/
def State.addCounter (s : State) : List Place → State
  | .phys a :: _ => if remotePa a then s else s.writePhys a (toBytes 4 (s.physValue a 4 + 1))
  | .enc a :: _ => s.spoilUnit a
  | _ => s

/-- The counter add of a grid's retirement (R307, R407). -/
def counterAdd (s : State) (key : Nat) (sp : Space) (va : Nat) : UnitGot Unit :=
  (unitPlaces s .none sp .atomic va 4).bind fun s ps =>
    unitAccess s conciergeSource key .atomic .store va ps (fun ch => .atomic (bitsOf ch.1 0 33) false 0 true 1 0) fun s =>
      ((s.addCounter ps).dropReplies key, ())

/-- The grids of a queue. -/
def State.gridsOf (s : State) (p q : Nat) : List (Nat × Grid) :=
  s.grids.filter (fun g => g.2.part == p && g.2.queue == q)

/-- An abort of a queue (CMD 3) is over when none of its grids is left (R356, R363). -/
def State.settleAbort (s : State) (p q : Nat) : State :=
  if s.gridsOf p q = [] then
    s.modQueue p q fun Q => if Q.cmd = 3 then { Q with cmd := 0, rstat := 0 } else Q
  else s

/-- What is left of a grid's retirement once its record and its counter are behind it (R307, R310): RETIRED moves
on, a child's slot is free and its parent counts it no more. A launch of the raster unit is no child grid of a
program: it takes no slot and does not count in RETIRED (log 26). -/
def State.finishRetire (s : State) (n : Nat) (g : Grid) : State :=
  let s := { s with grids := Tab.drop s.grids n }
  let s := if g.shadesFor.isSome then s
    else s.modQueue g.part g.queue fun Q => { Q with retired := Q.retired + 1 }
  match g.parent with
  | some m =>
    let s := if g.shadesFor.isSome then s else s.modPart g.part fun P => { P with kids := P.kids - 1 }
    (s.modGrid m fun G => { G with liveKids := G.liveKids - 1 }).settleAbort g.part g.queue
  | none => s.settleAbort g.part g.queue

/-- The retirement of a grid (R307): the record, then the counter, then RETIRED. -/
def State.retireGrid (s : State) (n : Nat) (g : Grid) : State :=
  let crec := if g.shadesFor.isSome then 0 else pkRecord g.packet
  let cnt := if g.shadesFor.isSome then 0 else pkCounter g.packet
  let counter (s : State) : State :=
    if cnt = 0 ∨ g.counterDone = true then s.finishRetire n g else
    match counterAdd s n g.space cnt with
    | .wait s => s
    | .fault s va _ f => s.gridFault n g.space va .store f .counter
    | .val s () => s.finishRetire n g
  if crec = 0 ∨ g.recordDone = true then counter s else
  match unitWrite s .none conciergeSource n g.space crec (completionRecord s.time g) with
  | .wait s => s
  | .fault s va k f => s.gridFault n g.space va k f .record
  | .val s () => counter (s.modGrid n fun g => { g with recordDone := true })

/-- GRID_RETIRE (R39): what its lanes have appended is in the rings first (R389). -/
def execGridRetire (grid : Nat) (s : State) : Out :=
  .next (match Tab.get? s.grids grid with
    | some g => if s.gridOver grid g then (s.placeAll g.part).retireGrid grid g else s
    | none => s)

/-! ## Room-key registers (R322, R323) -/

/-- The physical core of a %core of a partition. -/
def State.physCore (s : State) (part core : Nat) : Option Nat :=
  match Tab.get? s.parts part with
  | some P => P.cfg.cores[core]?
  | none => none

/-- A function applied to the room key of a %core. -/
def State.modKey (s : State) (part core : Nat) (f : RoomKey → RoomKey) : State :=
  match s.physCore part core with
  | some c => s.modCore c fun k => { k with key := f k.key }
  | none => s

/-- ROOM_KEY_HELD_CLEAR (R323). -/
def execRoomKeyHeldClear (part core : Nat) (s : State) : Out :=
  .next (s.modKey part core fun k => if k.held then k.free else k)

/-- Every matrix step that waits on a core, tried (R323). -/
def State.tryCoreSteps (s : State) (core : Nat) : State :=
  (s.teams.filter (fun t => t.2.pcore == core)).foldl
    (fun s t => (List.range 8).foldl (fun s n => s.tryStep t.1 n) s) s

/-- ROOM_KEY_ENABLE (R322, R323): clearing EN frees the key and admits every held step. -/
def execRoomKeyEnable (part core : Nat) (en : Bool) (s : State) : Out :=
  let s := s.modKey part core fun k => if en then { k with en := true } else { k.free with en := false }
  .next (match s.physCore part core with
    | some c => if en then s else s.tryCoreSteps c
    | none => s)

/-! ## WG.RESERVE, WG.EMIT and WG.DONE (R264) -/

/-- The bunks that a team's reservation has for a port. -/
def WgTeam.has (w : WgTeam) (p : Nat) : Nat := (Tab.get? w.left p).getD 0

/-- The node of a team's graph. -/
def State.nodeOf (s : State) (T : Team) (w : WgTeam) : Option WgNode := (s.node? T.grid w.node).map (·.2)

/-- Whether a port of a node is declared (R318). -/
def WgNode.declared (n : WgNode) (p : Nat) : Bool := match n.ports[p]? with
  | some t => t.2 != 0
  | none => false

/-- One lane's WG.RESERVE (R264). -/
def reserveLane (c : Ctx) (d : Opd) (p : Nat) (s : State) (l : Nat) : LaneRes :=
  let T := s.teamOf c
  match T.wg with
  | none => .trap s causeWgFault 4
  | some w =>
    match s.nodeOf T w with
    | none => .trap s causeWgFault 4
    | some n =>
      if w.done then .trap s causeWgFault 5
      else if n.declared p = false then .trap s causeWgFault 3
      else match w.pool with
        | b :: pool =>
          if w.has p = 0 then .trap s causeWgFault 1 else
          let s := s.modTeam c.t fun T => { T with wg := some { w with
            pool := pool, left := Tab.put w.left p (w.has p - 1), held := w.held ++ [(b, p)] } }
          .done (s.modLane c.t c.g l fun L => L.setVs d.num (valueWords b 2))
        | [] => .trap s causeWgFault 1

/-- A work-graph word (R264): no effect in helper lanes (R132); the uniform q1 is invalid after it. -/
def wgWord (i : Instr) (e : Bool) (lane : Ctx → State → Nat → LaneRes) (s : State) : Out :=
  word i (fun _ => true) (fun c =>
    let quiet (l : Nat) : Bool := (c.grp.lane l).helper
    let r := runLanes (fun s l => if quiet l then .done s else lane c s l) c.lanes (Ran.init s)
    let r := { r with s := r.s.modGroup c.t c.g (·.latchU none) }
    finish s c e r (fun _ => c.pc + 4)) s

/-- WG.RESERVE (R264). -/
def execWgReserve (e : Bool) (d x : Opd) (s : State) : Out :=
  wgWord (.wgReserve e d x) e (fun c s l => reserveLane c d (c.grp.uniVal x).toNat s l) s

/-- One lane's WG.EMIT (R264): a release, so the group's stores are performed first. -/
def emitLane (c : Ctx) (x : Opd) (s : State) (l : Nat) : LaneRes :=
  let T := s.teamOf c
  let b := c.grp.pairVal (c.grp.lane l) x
  match T.wg with
  | none => .trap s causeWgFault 4
  | some w =>
    match s.nodeOf T w with
    | none => .trap s causeWgFault 4
    | some n =>
      if w.done then .trap s causeWgFault 5 else
      match w.held.find? (fun h => h.1 == b) with
      | none => .trap s causeWgFault 2
      | some (_, p) =>
        let s := s.drainGroup c.t c.g
        let s := s.modTeam c.t fun T => { T with wg := some { w with held := w.held.filter (fun h => h.1 != b) } }
        .done (s.modNode T.grid (n.ports.getD p (0, 0)).1 fun m => { m with pending := m.pending ++ [⟨b, s.cycles⟩] })

/-- WG.EMIT (R264). -/
def execWgEmit (e : Bool) (x : Opd) (s : State) : Out :=
  wgWord (.wgEmit e x) e (fun c s l => emitLane c x s l) s

/-- WG.DONE (R264). -/
def execWgDone (e : Bool) (s : State) : Out :=
  wgWord (.wgDone e) e (fun c s _ =>
    match (s.teamOf c).wg with
    | none => .trap s causeWgFault 4
    | some _ => .done (s.closePorts c.t)) s

/-! ## Aborting a grid (R336, R363) -/

/-- Every group of a team asked to stop at its next run boundary, or no longer asked. -/
def Team.askStop (T : Team) (on : Bool) : Team :=
  { T with groups := T.groups.map (fun G => (G.1, { G.2 with stopping := on, saved := false })) }

/-- The accepted triangles and waiting shading teams of an aborted grid dropped (log 26). -/
def Core.dropGrid (k : Core) (g : Nat) : Core :=
  { k with raster := k.raster.filter (fun t => t.grid != g), jobs := k.jobs.filter (fun j => j.grid != g) }

/-- A grid aborted: no further team of it is admitted, none that a restore has still to make again is made, its groups stop at their next run boundaries, and its
engine operations stop with ERR 4 (DEDUCED, log 54). -/
def State.abortGrid (s : State) (g : Nat) : State :=
  match Tab.get? s.grids g with
  | none => s
  | some gr =>
    let waiting := match s.queue? gr.part gr.queue with
      | some Q => (Q.restore.filter (fun r => r.2 == g)).length
      | none => 0
    let s := s.modQueue gr.part gr.queue fun Q =>
      let rest := Q.restore.filter (fun r => r.2 != g)
      { Q with restore := rest, area := if rest = [] then [] else Q.area }
    let s := s.modGrid g fun G => { G with aborted := true, wait := .none, liveTeams := G.liveTeams - waiting }
    let teams := s.teams.map (fun (e : Nat × Team) => if e.2.grid = g then (e.1, e.2.askStop true) else e)
    let ops := s.ops.map (fun (e : Nat × EngineOp) => if e.2.grid = g then (e.1, { e.2 with aborted := true }) else e)
    let s : State := { s with teams := teams, ops := ops }
    { s with cores := s.cores.map (fun (e : Nat × Core) => (e.1, e.2.dropGrid g)) }

/-- A group of an aborted grid ends (R363); what it stored before stays. -/
def State.endGroup (s : State) (t g : Nat) : State :=
  (s.drainGroup t g).modGroup t g fun G =>
    { G.endLanes G.liveLanes with ended := true, handlers := [], trapLevel := 0, runMask := 0, remote := [], began := [] }

end Sys2Proof.Machine
end

