-- ==== Sys2Proof/Machine/Raster.lean ====
section
/-!
DEFINITION. The raster unit: RAST.TRI, RAST.RATE, coverage, depth, coarse pixels and shading teams
(12_geometry_instructions.md R249 to R252; 05_facet_streams_and_rays.md R128 to R133).
-/
namespace Sys2Proof.Machine

/-! ## Render states (R249) -/

def rsShade (r : Nat) : Nat := bitsOf r 448 64
def rsColor (r : Nat) : Nat := bitsOf r 384 64
def rsDepth (r : Nat) : Nat := bitsOf r 320 64
def rsRates (r : Nat) : Nat := bitsOf r 256 64
/-- x0, y0, x1 and y1 of the scissor. -/
def rsScissor (r j : Nat) : Nat := bitsOf r (192 + 16 * j) 16
/-- x and y of the viewport's top-left pixel. -/
def rsView (r j : Nat) : Nat := bitsOf r (160 + 16 * j) 16
def rsWidth (r : Nat) : Nat := bitsOf r 128 16 + 1
def rsHeight (r : Nat) : Nat := bitsOf r 144 16 + 1
def rsDfunc (r : Nat) : Nat := bitsOf r 12 4
def rsDwrite (r : Nat) : Bool := bitsOf r 11 1 == 1
def rsCull (r : Nat) : Nat := bitsOf r 9 2
def rsSamples (r : Nat) : Nat := 2 ^ bitsOf r 0 2

/-- Rate tiles in a row of the target. -/
def rsTilesX (r : Nat) : Nat := (rsWidth r + 15) / 16

/-- Rate tiles of the target. -/
def rsTiles (r : Nat) : Nat := rsTilesX r * ((rsHeight r + 15) / 16)

/-- Whether a render state passes R249 (SAMP has two bits here, the reserved bits above them zero). -/
def renderOk (r : Nat) : Bool :=
  bitsOf r 16 112 == 0 && bitsOf r 2 7 == 0 && rsDfunc r ≤ 7 && rsCull r != 3

/-- The render state at an address, read by the lowest active lane. -/
def readRender (s : State) (c : Ctx) (a : Nat) : Except LaneRes (State × Nat) :=
  if a % 64 ≠ 0 ∨ globalAddr a = false then .error (.trap s causeIllegal 0) else
  match readLane s s c (c.lanes.headD 0) a 64 with
  | .stop r => .error r
  | .val s bs => if renderOk (leValue bs) then .ok (s, leValue bs) else .error (.trap s causeIllegal 0)

/-! ## RAST.RATE (R250) -/

/-- One lane's RAST.RATE: the rate code stored as one byte of the rate map. -/
def rateLane (c : Ctx) (r : Nat) (y : Opd) (s : State) (l : Nat) : LaneRes :=
  let index := (c.grp.blockVal (c.grp.lane l) y 0).toNat
  let code := (c.grp.blockVal (c.grp.lane l) y 1).toNat
  if 6 < code ∨ rsTiles r ≤ index then .trap s causeIllegal 0
  else .of (writeLane s c l ((rsRates r + index) % 2 ^ 64) [BitVec.ofNat 8 code])

/-- RAST.RATE (R250). -/
def execRastRate (e : Bool) (x y : Opd) (s : State) : Out :=
  word (.rastRate e x y) (fun _ => true) (fun c =>
    match readRender s c (c.grp.sPair x.num) with
    | .error r => finish s c e (Ran.all c r) (fun _ => c.pc + 4)
    | .ok (s1, r) =>
      let ran := runLanes (rateLane c r y) c.lanes (Ran.init (s1.modGroup c.t c.g (·.openEntry)))
      finish s c e { ran with s := ran.s.modGroup c.t c.g (fun G => G.closeEntry.latchU none) } (fun _ => c.pc + 4)) s

/-! ## Triangles (R129, R251) -/

/-- A coordinate snapped to 1/256 pixel (R129), when it is finite and within 2^20 pixels (R251). -/
def snap (w : Word) : Option Int :=
  match f32.value w.toNat with
  | .fin neg m e =>
    let v := (roundInt .rne neg m (e + 8)).1
    if v.natAbs ≤ 2 ^ 28 then some v else none
  | _ => none

/-- A point in 1/256 pixel. -/
abbrev Pt := Int × Int

/-- Twice the signed area of u, v, p: positive when p is to the right of u → v as seen on the screen, y down. -/
def edge (u v p : Pt) : Int := (v.1 - u.1) * (p.2 - u.2) - (v.2 - u.2) * (p.1 - u.1)

/-- A snapped triangle with its depths. -/
structure Tri where
  a : Pt
  b : Pt
  c : Pt
  z : List Dyadic
  deriving DecidableEq, Repr

/-- A of R251. -/
def Tri.area (t : Tri) : Int := edge t.a t.b t.c

/-- The triangle of ten registers; none where a coordinate drops it (R251). -/
def triOf (ws : List Word) : Option Tri := do
  let at_ (j : Nat) : Word := ws.getD j 0
  let ax ← snap (at_ 0)
  let ay ← snap (at_ 1)
  let bx ← snap (at_ 3)
  let by_ ← snap (at_ 4)
  let cx ← snap (at_ 6)
  let cy ← snap (at_ 7)
  let zs := [2, 5, 8].map (fun j => f32.value (at_ j).toNat)
  if zs.all (fun z => z matches .fin _ _ _) then
    some ⟨(ax, ay), (bx, by_), (cx, cy), zs.map FVal.dyadic⟩
  else none

/-- Whether a triangle is accepted under a render state (R251): not of zero area, and not culled. -/
def Tri.accepted (t : Tri) (r : Nat) : Bool :=
  t.area != 0 && !(rsCull r == 1 && decide (0 < t.area)) && !(rsCull r == 2 && decide (t.area < 0))

/-- The render state and the registers of a lane's triangle, accepted by the raster unit of a core. -/
def acceptLane (c : Ctx) (r a : Nat) (y : Opd) (s : State) (l : Nat) : State :=
  let L := c.grp.lane l
  let ws := (List.range 10).map (c.grp.blockVal L y)
  match triOf ws with
  | none => s
  | some t =>
    if L.helper || !t.accepted r then s else
    let tri : RastTri := { seq := s.fresh, grid := c.team.grid, team := c.t, state := BitVec.ofNat 512 r, stateAddr := a,
                           verts := ws, token := none }
    let s := s.modCore c.team.pcore fun k => { k with raster := k.raster ++ [tri] }
    { s with fresh := s.fresh + 1 }

/-- RAST.TRI (R251): the group's earlier stores come first, then the lanes' triangles in ascending order. -/
def execRastTri (e : Bool) (x y : Opd) (s : State) : Out :=
  uniWord (.rastTri e x y) e (fun _ => true) (fun c =>
    let a := c.grp.sPair x.num
    .of do
      let (s, r) ← readRender s c a
      let s := c.lanes.foldl (acceptLane c r a y) (s.drainGroup c.t c.g)
      pure (s.modGroup c.t c.g (·.latchU none))) s

/-! ## Coverage (R129, R249) -/

/-- The places of a pixel's samples, in sixteenths of a pixel (R249). -/
def samplePlaces (n : Nat) : List (Nat × Nat) :=
  match n with
  | 1 => [(8, 8)]
  | 2 => [(4, 4), (12, 12)]
  | 4 => [(6, 2), (14, 6), (2, 10), (10, 14)]
  | _ => [(9, 5), (7, 11), (13, 9), (5, 3), (3, 13), (1, 7), (11, 15), (15, 1)]

/-- A sample: pixel and number. -/
structure Smp where
  x : Nat
  y : Nat
  i : Nat
  deriving DecidableEq, Repr

/-- Where a sample lies, in 1/256 pixel. -/
def Smp.point (p : Smp) (n : Nat) : Pt :=
  let o := (samplePlaces n).getD p.i (8, 8)
  ((256 * p.x + 16 * o.1 : Nat), (256 * p.y + 16 * o.2 : Nat))

/-- Whether a point is inside one edge of a triangle whose area has the sign of σ, or on it when it is a top or a
left edge (R129). -/
def insideEdge (sg : Int) (u v p : Pt) : Bool :=
  let e := sg * edge u v p
  let dx := sg * (v.1 - u.1)
  let dy := sg * (v.2 - u.2)
  decide (0 < e) || (e == 0 && (decide (dy < 0) || (dy == 0 && decide (0 < dx))))

/-- Whether a triangle covers a point (R129). -/
def Tri.covers (t : Tri) (p : Pt) : Bool :=
  let sg := t.area.sign
  insideEdge sg t.a t.b p && insideEdge sg t.b t.c p && insideEdge sg t.c t.a p

/-- The numbers lo, …, hi − 1. -/
def numbers (lo hi : Int) : List Nat := (List.range (hi - lo).toNat).map (fun (i : Nat) => (lo + (i : Int)).toNat)

/-- Pixels along one axis that a triangle can reach within the target and the scissor. -/
def axisPixels (vs : List Int) (size s0 s1 : Nat) : List Nat :=
  let lo := vs.foldl min (2 ^ 28 : Int)
  let hi := vs.foldl max (-(2 ^ 28) : Int)
  numbers (max (max (lo / 256) 0) s0) (min (min (hi / 256 + 1) size) s1)

/-- The samples that a triangle covers, row by row (R129). -/
def coveredSamples (r : Nat) (t : Tri) : List Smp :=
  let n := rsSamples r
  let ys := axisPixels [t.a.2, t.b.2, t.c.2] (rsHeight r) (rsScissor r 1) (rsScissor r 3)
  let xs := axisPixels [t.a.1, t.b.1, t.c.1] (rsWidth r) (rsScissor r 0) (rsScissor r 2)
  ys.flatMap (fun y => xs.flatMap (fun x =>
    ((List.range n).map (fun i => (⟨x, y, i⟩ : Smp))).filter (fun p => t.covers (p.point n))))

/-- A weight of a point as a quotient over |A|: of b, or of c (R252). -/
def Tri.weight (t : Tri) (ofC : Bool) (p : Pt) : Int :=
  t.area.sign * (if ofC then edge t.a t.b p else edge t.c t.a p)

/-- The depth at a point: the plane through the vertices, exact and rounded once (R129). -/
def Tri.depth (t : Tri) (p : Pt) : Word :=
  let w := [t.area.sign * edge t.b t.c p, t.weight false p, t.weight true p]
  let sum := (t.z.zip w).foldl (fun (d : Dyadic) e => d.add (e.1.mul ⟨e.2, 0⟩)) ⟨0, 0⟩
  BitVec.ofNat 32 (roundQuot f32 .rne sum.m t.area.natAbs sum.e).1

/-- The address of a sample in a buffer laid out as the target (R249). -/
def sampleAddr (r base : Nat) (p : Smp) : Nat :=
  (base + ((p.y * rsWidth r + p.x) * rsSamples r + p.i) * 4) % 2 ^ 64

/-- Whether a depth passes against the one stored (R249, R251): a NaN passes only under not equal and always. -/
def depthPasses (f : Nat) (new old : Word) : Bool :=
  let a := f32.value new.toNat
  let b := f32.value old.toNat
  let nan := (a matches .nan _) || (b matches .nan _)
  match f with
  | 0 => false
  | 1 => !nan && a.compare b == .lt
  | 2 => !nan && a.compare b != .gt
  | 3 => !nan && a.compare b == .eq
  | 4 => !nan && a.compare b == .gt
  | 5 => !nan && a.compare b != .lt
  | 6 => nan || a.compare b != .eq
  | _ => true

/-! ## Coarse pixels (R130, R131) -/

/-- The coarse pixel of a rate code (R130). -/
def rateSize (code : Nat) : Nat × Nat :=
  match code with
  | 0 => (1, 1)
  | 1 => (1, 2)
  | 2 => (2, 1)
  | 3 => (2, 2)
  | 4 => (2, 4)
  | 5 => (4, 2)
  | _ => (4, 4)

/-- A part's name: its rate tile and its cell of the coarse grid. -/
structure PartKey where
  tx : Nat
  ty : Nat
  cx : Int
  cy : Int
  deriving DecidableEq, Repr

/-- The rate tile of a sample. -/
def Smp.tile (p : Smp) : Nat × Nat := (p.x / 16, p.y / 16)

/-- The rate code of a tile among those read. -/
def rateOf (rates : List ((Nat × Nat) × Nat)) (t : Nat × Nat) : Nat :=
  ((rates.find? (fun e => e.1 == t)).map (·.2)).getD 0

/-- The part that a sample belongs to (R131). -/
def Smp.part (p : Smp) (r : Nat) (rates : List ((Nat × Nat) × Nat)) : PartKey :=
  let (w, h) := rateSize (rateOf rates p.tile)
  ⟨p.tile.1, p.tile.2, ((p.x : Int) - rsView r 0) / w, ((p.y : Int) - rsView r 1) / h⟩

/-- A rectangle of pixels: x0, y0 and the exclusive x1, y1. -/
structure Rect where
  x0 : Int
  y0 : Int
  x1 : Int
  y1 : Int
  deriving DecidableEq, Repr

/-- Whether a rectangle holds a pixel. -/
def Rect.filled (a : Rect) : Bool := decide (a.x0 < a.x1) && decide (a.y0 < a.y1)

/-- What two rectangles share. -/
def Rect.meet (a b : Rect) : Rect := ⟨max a.x0 b.x0, max a.y0 b.y0, min a.x1 b.x1, min a.y1 b.y1⟩

/-- A part's rectangle (R131): its cell within its rate tile, the target and the scissor. A part that only fills a
quad may hold no pixel. -/
def PartKey.rect (k : PartKey) (r : Nat) (size : Nat × Nat) : Rect :=
  let x : Int := rsView r 0 + k.cx * size.1
  let y : Int := rsView r 1 + k.cy * size.2
  let cell : Rect := ⟨x, y, x + size.1, y + size.2⟩
  let tile : Rect := ⟨16 * k.tx, 16 * k.ty, 16 * k.tx + 16, 16 * k.ty + 16⟩
  let clip : Rect := ⟨rsScissor r 0, rsScissor r 1, min (rsWidth r) (rsScissor r 2), min (rsHeight r) (rsScissor r 3)⟩
  (cell.meet tile).meet clip

/-- The bit of a sample in its part's coverage (R252). -/
def coverBit (a : Rect) (n : Nat) (p : Smp) : Nat :=
  ((((p.y : Int) - a.y0) * (a.x1 - a.x0) + ((p.x : Int) - a.x0)).toNat) * n + p.i

/-- The weights of b and c at a part's centre (R252). -/
def centreWeights (t : Tri) (a : Rect) : List Word :=
  let p : Pt := (128 * (a.x0 + a.x1), 128 * (a.y0 + a.y1))
  [false, true].map (fun ofC => BitVec.ofNat 32 (roundQuot f32 .rne (t.weight ofC p) t.area.natAbs 0).1)

/-- The weights of b and c at the centroid of some points (R252): the means of theirs. -/
def centroidWeights (t : Tri) (ps : List Pt) : List Word :=
  [false, true].map (fun ofC =>
    BitVec.ofNat 32 (roundQuot f32 .rne ((ps.map (t.weight ofC)).foldl (· + ·) 0) (t.area.natAbs * ps.length) 0).1)

/-- A shading lane of a part (R252): v0 to v10 and its colour addresses. A lane without a passing sample is a helper,
whose centroid is a free value; so are the place, size and centre of a part without a pixel (DESIGN CHOICE, log 26). -/
def shadeLane (r : Nat) (t : Tri) (seq : Nat) (tag : Word) (rates : List ((Nat × Nat) × Nat)) (pass : List Smp)
    (k : PartKey) (place : Nat) : ShadeInit :=
  let code := rateOf rates (k.tx, k.ty)
  let a := k.rect r (rateSize code)
  let mine := pass.filter (fun p => p.part r rates == k)
  let n := rsSamples r
  let helper := mine == []
  let free := Config.helperReg seq place
  let cover := mine.foldl (fun v p => v ||| 2 ^ coverBit a n p) 0
  let v1 : Word := if a.filled then BitVec.ofInt 32 (a.x0 % 65536 + 65536 * (a.y0 % 65536)) else free 1
  let size : Word := if a.filled then BitVec.ofInt 32 ((a.x1 - a.x0 - 1) % 4 + 4 * ((a.y1 - a.y0 - 1) % 4)) else free 2 &&& 15
  let v2 : Word := size + BitVec.ofNat 32 (16 * code + if helper then 128 else 0)
  { regs := [tag, v1, v2] ++ valueWords cover 4 ++ (if a.filled then centreWeights t a else [free 7, free 8]) ++
      (if helper then [free 9, free 10] else centroidWeights t (mine.map (·.point n))),
    helper := helper, samples := mine.map (sampleAddr r (rsColor r)) }

/-- The parts of a quad (R132): two cells by two, left to right and top to bottom. -/
def quadParts (k : PartKey) : List PartKey :=
  [(0, 0), (1, 0), (0, 1), (1, 1)].map (fun d => { k with cx := 2 * (k.cx / 2) + d.1, cy := 2 * (k.cy / 2) + d.2 })

/-- A part's quad, by its first cell. -/
def PartKey.quad (k : PartKey) : PartKey := { k with cx := 2 * (k.cx / 2), cy := 2 * (k.cy / 2) }

/-- The shading lanes of a triangle's passing samples, quad by quad (R132). -/
def shadeLanes (r : Nat) (t : Tri) (seq : Nat) (tag : Word) (rates : List ((Nat × Nat) × Nat)) (pass : List Smp) :
    List ShadeInit :=
  ((pass.map (fun p => (p.part r rates).quad)).eraseDups.flatMap quadParts).zipIdx.map
    (fun e => shadeLane r t seq tag rates pass e.1 e.2)

/-- A lane that fills a group or a team beyond the last quad: a helper, which covers nothing and has no part, so that
v1, the size and rate of v2, and v7 to v10 are free values (DESIGN CHOICE, log 26). -/
def fillLane (seq : Nat) (tag : Word) (place : Nat) : ShadeInit :=
  let free := Config.helperReg seq place
  ⟨[tag, free 1, (free 2 &&& 127) + 128, 0, 0, 0, 0, free 7, free 8, free 9, free 10], true, []⟩

/-- The lanes with those that fill the last team. -/
def filledLanes (size seq : Nat) (tag : Word) (lanes : List ShadeInit) : List ShadeInit :=
  lanes ++ (List.range ((size - lanes.length % size) % size)).map (fun j => fillLane seq tag (lanes.length + j))

/-- The lanes cut into teams of a size. -/
def teamsOf (size : Nat) : Nat → List ShadeInit → List (List ShadeInit)
  | 0, _ => []
  | fuel + 1, ls => if ls = [] then [] else ls.take size :: teamsOf size fuel (ls.drop size)

/-! ## RASTER_TRIANGLE (R128, R132, R251) -/

/-- What the unit finds for the covered samples of a triangle: those that pass, and the depths to write, by virtual
address and place. -/
def testSamples (core key : Nat) (sp : Space) (r : Nat) (t : Tri) :
    State → List Smp → UnitGot (List Smp × List (Nat × Place × Byte))
  | s, [] => .val s ([], [])
  | s, p :: ps =>
    let va := sampleAddr r (rsDepth r) p
    let new := t.depth (p.point (rsSamples r))
    let old (s : State) : UnitGot (List Byte) :=
      if rsDfunc r = 0 ∨ rsDfunc r = 7 then .val s [] else unitRead s (.core core) core key sp va 4
    (old s).bind fun s bs =>
      if depthPasses (rsDfunc r) new (BitVec.ofNat 32 (leValue bs)) = false then testSamples core key sp r t s ps
      else
        (if rsDwrite r then unitPlaces s (.core core) sp .store va 4 else .val s []).bind fun s at_ =>
          (testSamples core key sp r t s ps).bind fun s rest =>
            .val s (p :: rest.1, (at_.zip (toBytes 4 new.toNat)).zipIdx.map (fun e => (va + e.2, e.1)) ++ rest.2)

/-- The rate codes of some tiles, read from the rate map. -/
def readRates (core key : Nat) (sp : Space) (r : Nat) :
    State → List (Nat × Nat) → UnitGot (List ((Nat × Nat) × Nat))
  | s, [] => .val s []
  | s, t :: ts =>
    (unitRead s (.core core) core key sp ((rsRates r + t.2 * rsTilesX r + t.1) % 2 ^ 64) 1).bind fun s bs =>
      let b := leValue bs
      let code := if b ≤ 6 then b else Config.reservedRate b % 7
      (readRates core key sp r s ts).bind fun s rest => .val s ((t, code) :: rest)

/-- The whole of a triangle's accesses, in the order of R251: rate map, depths, and the shading packet if any
sample passes. -/
def examine (s : State) (core : Nat) (sp : Space) (k : RastTri) (t : Tri) :
    UnitGot (List Smp × List (Nat × Place × Byte) × List ((Nat × Nat) × Nat) × BitVec 1024) :=
  let r := k.state.toNat
  let covered := coveredSamples r t
  (readRates core k.seq sp r s (covered.map Smp.tile).eraseDups).bind fun s rates =>
    (testSamples core k.seq sp r t s covered).bind fun s got =>
      if got.1 = [] then .val s ([], got.2, rates, 0)
      else (unitRead s (.core core) core k.seq sp (rsShade r) 128).bind fun s bs =>
        .val s (got.1, got.2, rates, BitVec.ofNat 1024 (leValue bs))

/-- A shading launch's packet with the number of its teams (log 26). -/
def withTeams (p : BitVec 1024) (n : Nat) : BitVec 1024 := nodePacket p + BitVec.ofNat 1024 ((n - 1) * 2 ^ 160)

/-- A shading launch of a triangle (R132): a grid on behalf of the one that issued it, with its teams waiting. -/
def State.launchShading (s : State) (core : Nat) (g : Nat) (G : Grid) (seq : Nat) (p : BitVec 1024) (tag : Word)
    (lanes : List ShadeInit) : State :=
  let teams := teamsOf (32 * pkGroups p) lanes.length (filledLanes (32 * pkGroups p) seq tag lanes)
  let grid : Grid := { childGrid G g (withTeams p teams.length) with depth := G.depth, shadesFor := some g }
  let n := s.fresh
  let s := { s with grids := Tab.put s.grids n grid, fresh := n + 1 }
  let s := s.modGrid g fun G => { G with liveKids := G.liveKids + 1 }
  s.modCore core fun k => { k with jobs := k.jobs ++ teams.map (fun ls => ⟨n, seq, ls⟩) }

/-- Whether a shading packet can be launched: it passes R170 and declares 16 registers or more (R249). -/
def shadePacketOk (p : BitVec 1024) : Bool := packetStatus (nodePacket p) == 0 && 16 ≤ pkRegs p

/-- The oldest accepted triangle of a core done with. -/
def State.popTriangle (s : State) (core key : Nat) : State :=
  (s.dropReplies key).modCore core fun k => { k with raster := k.raster.drop 1 }

/-- A triangle that waits on a token for an address. -/
def State.parkTriangle (s : State) (core : Nat) (k : RastTri) (sp : Space) (va : Nat) (kind : AccKind) (f : XFail) : State :=
  let (s, tok) := raiseFault s sp va kind f core 0
  s.modCore core fun K => { K with raster := K.raster.map (fun x => if x.seq = k.seq then { x with token := tok } else x) }

/-- The writes of a key that failed forgotten, to be asked for again. -/
def State.dropFailed (s : State) (key : Nat) : State :=
  { s with remotes := s.remotes.filter (fun r => !(r.lane == key && r.kind == .write && (r.answer.map (·.1)) == some true)) }

/-- One accepted triangle carried out (R251): nothing of it happens while one of its pages does not translate, and
depths of another device are confirmed before it is done with (R102, R133, R380). -/
def State.rasterTriangle (s : State) (core : Nat) (k : RastTri) : State :=
  match Tab.get? s.grids k.grid, triOf k.verts with
  | some g, some t =>
    match examine s core g.space k t with
    | .wait s => s
    | .fault s va kind f => (s.dropReplies k.seq).parkTriangle core k g.space va kind f
    | .val s (pass, ws, rates, pk) =>
      let bs := ws.map (·.2)
      match remoteState s.remotes .write k.seq (bs.map (·.1)) with
      | .ask chunks => s.askUnit core k.seq .write chunks (fun ch => .write (bitsOf ch.1 0 33) (runBytes bs ch.1))
      | .waiting => s
      | .failed pa =>
        let va := ((ws.find? (fun e => e.2.1 == .phys pa)).map (·.1)).getD 0
        (s.dropFailed k.seq).parkTriangle core k g.space va .store remoteFail
      | .ready =>
        let s := (s.performBytes 0 bs).popTriangle core k.seq
        let tag := k.verts.getD 9 0
        if pass = [] ∨ shadePacketOk pk = false then s
        else s.launchShading core k.grid g k.seq pk tag (shadeLanes k.state.toNat t k.seq tag rates pass)
  | _, _ => s.popTriangle core k.seq

/-- The %core of a physical core in a partition. -/
def State.virtCore (s : State) (part pcore : Nat) : Nat :=
  match Tab.get? s.parts part with
  | some P => P.cfg.cores.idxOf pcore
  | none => 0

/-- A group with its lanes as the raster unit starts them (R252). -/
def Group.shaded (G : Group) (ls : List ShadeInit) : Group :=
  { G with lanes := G.lanes.map (fun e =>
      match ls[e.1]? with
      | some i => (e.1, { e.2.setVs 0 i.regs with helper := i.helper })
      | none => e) }

/-- The oldest shading team of a core dispatched, if the core can hold it (R132, R313). -/
def State.dispatchShading (s : State) (core : Nat) (j : ShadeJob) : Option State :=
  match Tab.get? s.grids j.grid with
  | none => none
  | some g =>
    (s.fits core (Config.rotation s.fresh) (packetNeed g.packet g.tenant)).map fun at_ =>
      let T := newTeam j.grid g.next g.part (s.virtCore g.part core) core g.packet (pkParam g.packet) at_.1 at_.2 none
      let T := { T with
        groups := T.groups.map (fun e => (e.1, e.2.shaded ((j.lanes.drop (32 * e.1)).take 32))),
        shade := (j.lanes.zipIdx.filter (fun e => !e.1.helper)).map (fun e => (e.2, ⟨j.seq, e.1.samples⟩)),
        shadeFor := g.shadesFor }
      let s := s.seatTeam T g.tenant
      let s := s.modGrid j.grid fun g => { g with next := g.next + 1 }
      s.modCore core fun k => { k with jobs := k.jobs.drop 1 }

/-- RASTER_TRIANGLE (R251): a shading team that waits is dispatched when it fits; else the oldest accepted triangle is
carried out, unless it waits on a token. -/
def execRasterTriangle (core : Nat) (s : State) : Out :=
  .next (match Tab.get? s.cores core with
    | none => s
    | some k =>
      let next (s : State) : State :=
        match k.raster with
        | t :: _ => if t.token.isSome then s else s.rasterTriangle core t
        | [] => s
      match k.jobs with
      | j :: _ => (s.dispatchShading core j).getD (next s)
      | [] => next s)

/-- HARDWARE_PREFETCH (R77): no architected effect. -/
def execHardwarePrefetch (_core : Nat) (_addr : BitVec 64) (s : State) : Out := .next s

end Sys2Proof.Machine
end

