-- ==== Sys2Proof/Machine/Faults.lean ====
section
/-!
DEFINITION. Fault and error rings, RESUME, invalidations, guestbook and filter clears, page migration
(23_translation_and_residency.md R330 to R346; 26_partitions_and_fleet.md R370, R377).
-/
namespace Sys2Proof.Machine

/-! ## Record rings (R333, R377) -/

/-- Bytes written by a unit of the device at a physical address (R407): never translated, and never a fault. -/
def State.deviceWrite (s : State) (pa : Nat) (bs : List Byte) : State :=
  s.performBytes 0 (bs.zipIdx.map (fun e => (.phys (pa + e.2), e.1)))

/-- The ring with its oldest waiting record written and PRODUCE published. -/
def Ring.advance (r : Ring) : Ring := { r with produce := r.produce + 1, waiting := r.waiting.drop 1 }

/-- The address of the next record of a ring. -/
def Ring.nextAddr (r : Ring) : Nat := r.base.toNat + 32 * (r.produce.toNat % 2 ^ r.log.toNat)

/-- FAULT_RECORD_WRITE (R333): a waiting record is written, PRODUCE published and the fault interrupt raised. -/
def execFaultRecordWrite (part : Nat) (s : State) : Out :=
  .next (match Tab.get? s.parts part with
    | none => s
    | some P =>
      match P.fault.waiting with
      | [] => s
      | r :: _ =>
        if P.fault.hasRoom = false then s else
        (s.deviceWrite P.fault.nextAddr (toBytes 32 r.toNat)).modPart part fun P =>
          ({ P with fault := P.fault.advance } : Part).interrupt 0)

/-- ERROR_RECORD_WRITE (R377): a waiting record is written and vector 17 raised; with no room, a record of class 0 is
dropped and counted, and any other waits (DESIGN CHOICE, log 52). -/
def execErrorRecordWrite (part : Nat) (s : State) : Out :=
  .next (match Tab.get? s.parts part with
    | none => s
    | some P =>
      match P.error.waiting with
      | [] => s
      | r :: _ =>
        if P.error.hasRoom then
          (s.deviceWrite P.error.nextAddr (toBytes 32 r.toNat)).modPart part fun P =>
            ({ P with error := P.error.advance } : Part).interrupt 17
        else
          -- the first record of class 0 among those that wait goes; the others keep waiting
          match P.error.waiting.find? correctedClass with
          | some c => s.modPart part fun P =>
              { P with error := { P.error with waiting := P.error.waiting.erase c }, cedrop := countDrop P.cedrop }
          | none => s)

/-! ## RESUME (R335, R336) -/

/-- The access kind of a code (R334). -/
def AccKind.ofCode : Nat → AccKind
  | 0 => .load
  | 1 => .store
  | 2 => .atomic
  | 3 => .fetch
  | 4 => .engineRead
  | _ => .engineWrite

/-- Whether a lane waits on a token. -/
def Lane.waitsOn (L : Lane) (t : Nat) : Bool := L.live && L.hold == .parked t

/-- The lane let go from a token: it executes its word again (R30). -/
def Lane.release (L : Lane) (t : Nat) : Lane := if L.hold == .parked t then { L with hold := .run } else L

/-- A group with its lanes let go from a token; what they access again comes after the answer (R336). -/
def Group.release (G : Group) (t : Nat) : Group :=
  let G := if G.lanes.any (fun L => L.2.waitsOn t) then G.clearEarly else G
  { G with lanes := G.lanes.map (fun (l : Nat × Lane) => (l.1, l.2.release t)) }

/-- A team with its lanes let go from a token. -/
def Team.release (T : Team) (t : Nat) : Team :=
  { T with groups := T.groups.map (fun (e : Nat × Group) => (e.1, e.2.release t)) }

/-- Whether the Concierge waits on a token. -/
def CWait.on (w : CWait) (t : Nat) : Bool :=
  match w with
  | .token n _ => n == t
  | .none => false

/-- A wait on a token is over. -/
def CWait.release (w : CWait) (t : Nat) : CWait := if w.on t then .none else w

/-- A lane that waits without a token takes one, if it can (R335). -/
def State.serveLane (s : State) (t g l : Nat) : State :=
  match Tab.get? s.teams t with
  | none => s
  | some T =>
    match Tab.get? T.groups g, Tab.get? s.grids T.grid with
    | some G, some gr =>
      match (G.lane l).hold with
      | .parkedFree va kind cause level lod =>
        match raiseFault s gr.space va (.ofCode kind) ⟨cause, level, lod⟩ T.pcore 0 with
        | (s, some i) => s.modLane t g l fun L => { L with hold := .parked i }
        | (s, none) => s
      | _ => s
    | _, _ => s

/-- Every lane that waits without a token, served in order. -/
def State.serveFree (s : State) : State :=
  s.teams.foldl (fun s (t : Nat × Team) => t.2.groups.foldl (fun s (g : Nat × Group) =>
    (List.range 32).foldl (fun s l => s.serveLane t.1 g.1 l) s) s) s

/-- A token's waiters let go: lanes, engine operations, raster units and the Concierge; the token is free. -/
def State.freeToken (s : State) (t : Nat) : State :=
  let s : State := { s with tokens := Tab.drop s.tokens t }
  let s : State := { s with teams := s.teams.map (fun (e : Nat × Team) => (e.1, e.2.release t)) }
  let s : State := { s with ops := s.ops.map (fun (e : Nat × EngineOp) =>
    (e.1, if e.2.token = some t then { e.2 with token := none } else e.2)) }
  let s : State := { s with cores := s.cores.map (fun (e : Nat × Core) => (e.1, { e.2 with
    raster := e.2.raster.map (fun k => if k.token = some t then { k with token := none } else k) })) }
  let s : State := { s with grids := s.grids.map (fun (e : Nat × Grid) => (e.1, { e.2 with wait := e.2.wait.release t })) }
  { s with parts := s.parts.map (fun (e : Nat × Part) => (e.1, { e.2 with
    queues := e.2.queues.map (fun (q : Nat × Queue) => (q.1, { q.2 with wait := q.2.wait.release t })) })) }

/-- Whether a token is outstanding in a partition (R336). -/
def State.ownToken (s : State) (p t : Nat) : Bool :=
  match Tab.get? s.tokens t with
  | some k => k.part == p
  | none => false

/-- RESUME_RETRY (R336). -/
def execResumeRetry (part : Nat) (token : BitVec 16) (s : State) : Out :=
  .next (if s.ownToken part token.toNat then (s.freeToken token.toNat).serveFree else s)

/-- The grids with a lane among a token's waiters. -/
def State.waitingGrids (s : State) (t : Nat) : List Nat :=
  ((s.teams.filter (fun (e : Nat × Team) =>
    e.2.groups.any (fun G => G.2.lanes.any (fun L => L.2.waitsOn t)))).map (fun e => e.2.grid)).eraseDups

/-- What an abort does to a grid that the Concierge waits for (R407; DEDUCED, log 54). -/
def State.abortWait (s : State) (g : Nat) (w : CWait) : State :=
  match w with
  | .token _ .record => s.modGrid g fun G => { G with recordDone := true }
  | .token _ .counter => s.modGrid g fun G => { G with counterDone := true }
  | .token _ .hostel => s.abortGrid g
  | .token _ .graph => s.abortGrid g
  | .token _ .dependence => s
  | .none => s

/-- RESUME_ABORT (R336, R407): grids with waiting lanes are aborted, waiting engine operations stop, a raster unit's
waiting triangle is dropped, and the Concierge goes on as its access allows. -/
def execResumeAbort (part : Nat) (token : BitVec 16) (s : State) : Out :=
  .next (
    let t := token.toNat
    if s.ownToken part t = false then s else
    let grids := s.waitingGrids t
    let waits := s.grids.filter (fun (e : Nat × Grid) => e.2.wait.on t)
    let queues := s.parts.flatMap (fun (e : Nat × Part) =>
      (e.2.queues.filter (fun (q : Nat × Queue) => q.2.wait.on t)).map (fun q => (e.1, q.1)))
    let s : State := { s with ops := s.ops.map (fun (e : Nat × EngineOp) =>
      (e.1, if e.2.token = some t then { e.2 with aborted := true } else e.2)) }
    let s : State := { s with cores := s.cores.map (fun (e : Nat × Core) => (e.1, { e.2 with
      raster := e.2.raster.filter (fun k => k.token != some t) })) }
    let s := s.freeToken t
    let s := grids.foldl State.abortGrid s
    let s := waits.foldl (fun s e => s.abortWait e.1 e.2.wait) s
    let s := queues.foldl (fun s q => s.refusePacket q.1 q.2 5) s
    s.serveFree)

/-! ## Invalidations (R331, R332) -/

/-- The state with a function applied to a partition's invalidation register. -/
def State.modInval (s : State) (p : Nat) (f : Inval → Inval) : State := s.modPart p fun P => { P with inval := f P.inval }

/-- GO written with a SCOPE (R331): ignored while an invalidation is in progress. -/
def Inval.start (r : Inval) (scope : BitVec 2) : Inval :=
  if r.done then { r with scope := scope, done := false, job := some (scope, r.asid, r.npages, r.va) }
  else { r with scope := scope }

/-- INVALIDATE_RANGE (R331). -/
def execInvalidateRange (part : Nat) (s : State) : Out := .next (s.modInval part (·.start 0))
/-- INVALIDATE_ASID (R331). -/
def execInvalidateAsid (part : Nat) (s : State) : Out := .next (s.modInval part (·.start 1))
/-- INVALIDATE_PARTITION (R331). -/
def execInvalidatePartition (part : Nat) (s : State) : Out := .next (s.modInval part (·.start 2))

/-- Whether a cached translation or non-leaf entry lies in an invalidation's scope (R331). -/
def TlbEntry.inScope (e : TlbEntry) (part : Nat) (scope : BitVec 2) (asid : BitVec 16) (npages : Word) (va : Word64) :
    Bool :=
  let first := va.toNat / 4096 * 4096
  let count := if npages = 0 then 1 else npages.toNat
  e.part == part &&
  match scope.toNat with
  | 0 => (e.global || e.asid == asid) && overlaps (e.vpn * leafSize e.level) (leafSize e.level) first (4096 * count)
  | 1 => !e.global && e.asid == asid
  | _ => true

/-- Every store that has issued, performed, and no load before this moment kept for later ones: what an invalidation
waits for (R332). -/
def State.drainAll (s : State) : State :=
  let s := (s.teams.map (·.1)).foldl State.drainTeam s
  { s with teams := s.teams.map (fun (e : Nat × Team) =>
      (e.1, { e.2 with groups := e.2.groups.map (fun (g : Nat × Group) => (g.1, g.2.clearEarly)) })) }

/-- Whether every request to another device has its answer (R332, R380). -/
def State.flowsIdle (s : State) : Bool := s.flowsOut.all (fun f => f.unanswered == [])

/-- INVALIDATION_DONE (R332): no cache holds an entry of the scope, and every access that used one is performed, those to
other devices among them (DEDUCED, log 63). -/
def execInvalidationDone (part : Nat) (s : State) : Out :=
  .next (match Tab.get? s.parts part with
    | none => s
    | some P =>
      match P.inval.job with
      | none => s
      | some (scope, asid, npages, va) =>
        if s.flowsIdle = false then s else
        let keep (l : List TlbEntry) := l.filter (fun e => !(e.inScope part scope asid npages va))
        let s := s.drainAll
        let s : State := { s with cores := s.cores.map (fun (e : Nat × Core) =>
          (e.1, { e.2 with tlb := keep e.2.tlb, walks := keep e.2.walks })) }
        let s : State := { s with dies := s.dies.map (fun (e : Nat × Die) =>
          (e.1, { e.2 with tlb := keep e.2.tlb, walks := keep e.2.walks })) }
        s.modInval part fun r => { r with done := true, job := none })

/-! ## Guestbook and filter registers (R340, R341) -/

/-- GUESTBOOK_OVF_CLEAR (R340). -/
def execGuestbookOvfClear (part ring : Nat) (s : State) : Out :=
  .next (s.modPart part fun P => { P with rings := Tab.modify P.rings ring (fun r => { r with ovf := false }) })

/-- FILTER_CLEAR (R341). -/
def execFilterClear (part : Nat) (s : State) : Out := .next (s.modPart part fun P => { P with fclr := true })

/-- FILTER_CLEAR_DONE (R341): the duplicate filter of every core of the partition is empty. -/
def execFilterClearDone (part : Nat) (s : State) : Out :=
  .next (match Tab.get? s.parts part with
    | none => s
    | some P =>
      if P.fclr = false then s else
      let s := P.cfg.cores.foldl (fun s c => s.modCore c fun k => { k with filter := [] }) s
      s.modPart part fun P => { P with fclr := false })

/-! ## Migration slots (R343) -/

/-- The bytes of a slot's SIZE. -/
def migBytes (size : Nat) : Nat := if size = 0 then 2 ^ 12 else if size = 1 then 2 ^ 21 else 2 ^ 30

/-- Whether a start is refused (R343). -/
def State.migRefused (s : State) (p : Nat) (m : MigSlot) : Bool :=
  let n := migBytes m.size.toNat
  let src := m.src.toNat
  let dst := m.dst.toNat
  m.size == 3 || src % n != 0 || dst % n != 0 || src == dst || !s.ownRange p src n || !s.ownRange p dst n

/-- The state with a function applied to a migration slot. -/
def State.modSlot (s : State) (p i : Nat) (f : MigSlot → MigSlot) : State :=
  s.modPart p fun P => { P with mig := Tab.modify P.mig i f }

/-- MIGRATION_START (R343). -/
def execMigrationStart (part slot : Nat) (s : State) : Out :=
  .next (match Tab.get? s.parts part with
    | none => s
    | some P =>
      match Tab.get? P.mig slot with
      | none => s
      | some m =>
        if m.state = 1 then s
        else if s.migRefused part m then s.modSlot part slot fun m => { m with state := 3 }
        else s.modSlot part slot fun m =>
          { m with state := 1, job := some (m.src.toNat, m.dst.toNat, m.size.toNat, m.zsrc, m.zdst) })

/-- A store with the contents of one range copied to another that does not meet it. -/
def Store.copy {w : Nat} (m : Store w) (src dst n : Nat) : Store w :=
  let out : Store w := m.filter (fun e => !(dst ≤ e.1 && e.1 < dst + n))
  m.foldl (fun o e => if src ≤ e.1 && e.1 < src + n then Store.set o (dst + (e.1 - src)) e.2 else o) out

/-- One 4 KiB frame of a copy re-encoded (R343, R345): a frame read under another encoding than its own gives
unspecified bytes. -/
def State.recode (s : State) (src dst : Nat) (zs zd : Bool) : State :=
  let code (z : Bool) : BitVec 2 := zCode (if z then 1 else 0)
  let held := Store.get s.enc (src / 4096)
  let s : State := { s with enc := Store.set s.enc (dst / 4096) (code zd) }
  if held = 0 ∨ held = code zs then s
  else s.writePhys dst ((List.range 4096).map (fun i => Config.encodedByte (dst + i) s.steps))

/-- The copy of a slot (R343): bytes, poison and encoding, whole and at one moment (DESIGN CHOICE, log 73). -/
def State.migrate (s : State) (src dst n : Nat) (zs zd : Bool) : State :=
  let s : State := { s with mem := Store.copy s.mem src dst n, poison := Store.copy s.poison (src / 32) (dst / 32) (n / 32) }
  (List.range (n / 4096)).foldl (fun s i => s.recode (src + 4096 * i) (dst + 4096 * i) zs zd) s

/-- MIGRATION_DONE (R343). -/
def execMigrationDone (part slot : Nat) (s : State) : Out :=
  .next (match Tab.get? s.parts part with
    | none => s
    | some P =>
      match Tab.get? P.mig slot with
      | none => s
      | some m =>
        match m.job with
        | none => s
        | some (src, dst, size, zs, zd) =>
          (s.migrate src dst (migBytes size) zs zd).modSlot part slot fun m => { m with state := 2, job := none })

end Sys2Proof.Machine
end

