-- ==== Sys2Proof/Machine/Context.lean ====
section
/-!
DEFINITION. Context save, restore and abort of a queue, and team admission, which serves restored teams first
(24_traps_and_preemption.md R356 to R363; 22_queues_and_dispatch.md R308; 04_ordering.md R110).
-/
namespace Sys2Proof.Machine

/-! ## CONTEXT_SAVE and GROUP_PREEMPT_STOP (R22, R357) -/

/-- Whether n bytes at CBASE can be used (R407). -/
def State.areaUsable (s : State) (p : Nat) (Q : Queue) (n : Nat) : Bool :=
  Q.cbase.toNat % 4096 == 0 && s.ownRange p Q.cbase.toNat n

/-- A command begun on a queue's context register (R356), with CBASE and CSIZE as they stand. -/
def Queue.begin (Q : Queue) (cmd : BitVec 2) : Queue :=
  { Q with rstat := 1, cmd := cmd, areaBase := Q.cbase.toNat, areaSize := Q.csize.toNat }

/-- The numbers of a queue's grids that are saved, in order: those of the raster unit's launches are not. -/
def State.savedGrids (s : State) (p q : Nat) : List Nat :=
  ((s.gridsOf p q).filter (fun g => g.2.shadesFor.isNone)).map (·.1)

/-- The teams of some grids. -/
def State.teamsOfGrids (s : State) (gs : List Nat) : List (Nat × Team) := s.teams.filter (fun t => gs.contains t.2.grid)

/-- Every group of some teams asked to stop, or let go. -/
def State.askTeams (s : State) (ts : List Nat) (on : Bool) : State := ts.foldl (fun s t => s.modTeam t (·.askStop on)) s

/-- CONTEXT_SAVE (R357): CMD 1, ignored where the CSIZE bytes at CBASE are not all the partition's or the pool's (R407;
DEDUCED, log 48). The queue's grids admit no further team, and every team of them is asked to stop. -/
def execContextSave (part queue : Nat) (s : State) : Out :=
  .next (match s.queue? part queue with
    | none => s
    | some Q =>
      if Q.rstat = 1 ∨ s.areaUsable part Q (max Q.csize.toNat 1) = false then s else
      let s := s.modQueue part queue (·.begin 1)
      s.askTeams ((s.teamsOfGrids (s.savedGrids part queue)).map (·.1)) true)

/-- GROUP_PREEMPT_STOP (R22): a group asked to stop stops at a run boundary; a group of an aborted grid ends there (R363). -/
def execGroupPreemptStop (team group : Nat) (s : State) : Out :=
  .next (match Tab.get? s.teams team with
    | none => s
    | some T =>
      match Tab.get? T.groups group, Tab.get? s.grids T.grid with
      | some G, some g =>
        if !G.stopping || G.runMask != 0 || G.ended then s
        else if g.aborted then s.endGroup team group
        else s.modGroup team group fun G => { G with saved := true }
      | _, _ => s)

/-! ## The context area (R358 to R360) -/

/-- n zero bytes. -/
def zeros (n : Nat) : List Byte := List.replicate n 0

/-- The size of a team block (R358). -/
def blockSize (groups regs tiles limit : Nat) : Nat := 0x1A00 + groups * (1024 + 128 * regs + 8192 * tiles) + limit

/-- A barrier's word (R216). -/
def barrierWord (b : Barrier) : Nat := b.arrived.toNat + b.count.toNat * 2 ^ 32 + b.gen.toNat * 2 ^ 40

/-- A convergence register's value (R220). -/
def convValue (r : Conv) : Nat :=
  (if r.complete then 1 else 0) + r.mask.toNat * 2 ^ 8 + r.quartet.toNat * 2 ^ 12 + (if r.fixed then 2 ^ 15 else 0)
    + r.gen.toNat * 2 ^ 16 + r.signed.toNat * 2 ^ 32

/-- HOLD of a lane (R360). -/
def Lane.holdCode (L : Lane) : Nat :=
  match L.hold with
  | .run => 0
  | .wait _ => 1
  | .barrier _ _ => 1
  | .parked _ => 2
  | .parkedFree _ _ _ _ _ => 2
  | .matrix _ _ => 3

/-- A lane record (R360). -/
def laneRecord (G : Group) (l : Nat) : Nat :=
  let L := G.lane l
  L.meet.toNat + G.fragLane l * 2 ^ 12 + (if L.live then 2 ^ 32 else 0) + L.holdCode * 2 ^ 33 + L.status.toNat * 2 ^ 36
    + L.rpt.toNat * 2 ^ 42 + L.pc.toNat * 2 ^ 64

/-- A group block (R359). -/
def groupBlock (T : Team) (G : Group) : List Byte :=
  (List.range 60).flatMap (fun r => toBytes 4 (G.sreg r).toNat) ++
  (List.range 12).flatMap (fun j => toBytes 4 (Store.get G.k j).toNat) ++
  (List.range 8).flatMap (fun j => toBytes 4 (Store.get G.f j).toNat) ++
  toBytes 4 G.trapLevel.toNat ++ toBytes 4 G.trapCause.toNat ++ toBytes 4 G.trapInfo.toNat ++ zeros 4 ++
  toBytes 8 G.trapPc.toNat ++ zeros 40 ++
  (List.range 32).flatMap (fun l => toBytes 16 (laneRecord G l)) ++ zeros 128 ++
  (List.range T.regs).flatMap (fun r => (List.range 32).flatMap (fun l => toBytes 4 ((G.lane l).vreg r).toNat)) ++
  (List.range (1024 * T.ztiles)).flatMap (fun i => toBytes 8 (Store.get G.z i).toNat)

/-- The sealed shape records of a team, by handle (R256). -/
def State.teamShapes (s : State) (t : Nat) (T : Team) : Tab (BitVec 768) :=
  ((s.shapesOf T.pcore).filter (fun e => e.2.team == t && !e.2.dropped)).map (fun e => (e.1, e.2.record))

/-- A team block (R359). -/
def teamBlock (gridIndex : Nat) (shapes : Tab (BitVec 768)) (T : Team) : List Byte :=
  [gridIndex, T.index, T.core, T.cluster, T.ngroup, T.regs, T.ztiles, T.limit].flatMap (toBytes 4) ++
  toBytes 8 T.handler.toNat ++ toBytes 8 (shapes.foldl (fun m e => m + 2 ^ e.1) 0) ++ zeros 16 ++
  (List.range 17).flatMap (fun b => toBytes 8 (barrierWord (T.barrier b))) ++ zeros 56 ++
  (List.range 8).flatMap (fun c => toBytes 32 (convValue (T.convReg c))) ++
  (List.range 64).flatMap (fun h => match Tab.get? shapes h with
    | some r => toBytes 96 r.toNat
    | none => zeros 96) ++
  T.groups.flatMap (fun G => groupBlock T G.2) ++ Store.getRange T.scratch 0 T.limit

/-- A grid record (R358); the parent is named by its place among the records. -/
def gridRecord (gs : List Nat) (g : Grid) : List Byte :=
  toBytes 128 g.packet.toNat ++ toBytes 4 g.depth ++
  toBytes 4 (match g.parent with
    | some m => gs.idxOf m
    | none => 0xFFFFFFFF) ++
  toBytes 4 g.next ++ toBytes 4 g.liveTeams ++ toBytes 4 g.liveKids ++ zeros 108

/-- The area's header (R358). -/
def areaHeader (ngrid nteam ncore : Nat) (tenant : BitVec 16) : List Byte :=
  toBytes 32 (0xC7A5 + 2 ^ 16 + ngrid * 2 ^ 32 + nteam * 2 ^ 64 + ncore * 2 ^ 96 + tenant.toNat * 2 ^ 144) ++ zeros 224

/-- The saved teams in the order of their blocks: grid by grid, in %team order. -/
def State.saveOrder (s : State) (gs : List Nat) : List (Nat × Team) :=
  gs.flatMap (fun g => (List.mergeSort (s.teams.filter (fun t => t.2.grid == g)) (fun a b => a.2.index ≤ b.2.index)))

/-- The whole context area of a queue. TENANT is the first grid's tag, 0 where there is none (DESIGN CHOICE, log 27). -/
def State.contextArea (s : State) (ncore : Nat) (gs : List Nat) : List Byte :=
  let recs := gs.filterMap (fun n => (Tab.get? s.grids n))
  let ts := s.saveOrder gs
  areaHeader gs.length ts.length ncore ((recs.head?.map (·.tenant)).getD 0) ++ recs.flatMap (gridRecord gs) ++
  ts.flatMap (fun t => teamBlock (gs.idxOf t.2.grid) (s.teamShapes t.1 t.2) t.2)

/-- The bytes that a save needs (R358). -/
def State.areaNeed (s : State) (gs : List Nat) : Nat :=
  (s.teamsOfGrids gs).foldl (fun n t => n + blockSize t.2.ngroup t.2.regs t.2.ztiles t.2.limit) (256 + 256 * gs.length)

/-- Whether a save has nothing left to wait for (R110, R357): every group has stopped or ended, no engine operation
is in flight, the raster units have finished the grids' triangles, and no grid is aborted or part-way through its
retirement. -/
def State.saveReady (s : State) (p q : Nat) (gs : List Nat) : Bool :=
  (s.teamsOfGrids gs).all (fun t => t.2.groups.all (fun G => G.2.saved || G.2.ended) && s.ops.all (fun o => o.2.team != t.1)) &&
  (s.gridsOf p q).all (fun g => g.2.shadesFor.isNone && !g.2.aborted && !g.2.recordDone && !s.trianglesOf g.1)

/-- The work that a save completes first (R110, R234). -/
def State.finishTeams (s : State) (ts : List Nat) : State :=
  ts.foldl (fun s t => ((List.range 8).foldl (fun s n => s.completeStep t n) s).drainTeam t) s

/-- A saved team's resources freed (R357): as at its end, but its grid still counts it. -/
def State.freeSaved (s : State) (t : Nat × Team) : State :=
  (({ s with teams := Tab.drop s.teams t.1 } : State).modCore t.2.pcore (·.dropShapes t.1)).settleKey t.2.pcore

/-- The offset in the area of the first of some teams' blocks, and of those after it (R358). -/
def blockPlaces : Nat → List Team → Tab Team
  | _, [] => []
  | off, T :: Ts => (off, T) :: blockPlaces (off + blockSize T.ngroup T.regs T.ztiles T.limit) Ts

/-- What a save leaves beside its area. -/
def State.shelve (s : State) (area : List Byte) (gs : List Nat) : State :=
  let x : Shelf := ⟨area, gs.filterMap (fun n => Tab.get? s.grids n),
    blockPlaces (256 + 256 * gs.length) ((s.saveOrder gs).map (·.2))⟩
  { s with shelf := s.shelf.filter (fun y => y.area != area) ++ [x] }

/-- CONTEXT_SAVE_DONE (R357): the area is written and everything freed, or RSTAT 2 and the teams go on. -/
def execContextSaveDone (part queue : Nat) (s : State) : Out :=
  .next (match s.queue? part queue, Tab.get? s.parts part with
    | some Q, some P =>
      let gs := s.savedGrids part queue
      if Q.cmd ≠ 1 ∨ s.saveReady part queue gs = false then s else
      let ts := (s.teamsOfGrids gs).map (·.1)
      let s := (s.finishTeams ts).placeAll part
      let need := s.areaNeed gs
      if Q.areaSize < need then
        (s.askTeams ts false).modQueue part queue fun Q =>
          { Q with need := BitVec.ofNat 64 need, rstat := 2, cmd := 0 }
      else
        let area := s.contextArea P.cfg.cores.length gs
        let s := (s.deviceWrite Q.areaBase area).shelve area gs
        let kids := (gs.filter (fun n => match Tab.get? s.grids n with
          | some g => g.parent.isSome
          | none => false)).length
        let s := (s.teamsOfGrids gs).foldl State.freeSaved s
        let s : State := { s with grids := gs.foldl Tab.drop s.grids }
        let s := s.modPart part fun P => { P with kids := P.kids - kids }
        s.modQueue part queue fun Q =>
          { Q with need := BitVec.ofNat 64 need, nteam := BitVec.ofNat 32 ts.length,
                   ngrid := BitVec.ofNat 32 gs.length, rstat := 0, cmd := 0 }
    | _, _ => s)

/-! ## CONTEXT_RESTORE (R361) -/

/-- Whether n bytes of physical memory are all zero. -/
def State.zeroAt (s : State) (pa n : Nat) : Bool := (s.bytes pa n).all (· == 0)

/-- A 32-bit word of physical memory. -/
def State.word32 (s : State) (pa : Nat) : Nat := s.physValue pa 4

/-- A team block's header, once its sizes are known to lie in their ranges. -/
structure BlockHead where
  at_ : Nat
  grid : Nat
  index : Nat
  core : Nat
  cluster : Nat
  groups : Nat
  regs : Nat
  tiles : Nat
  limit : Nat
  shapes : Nat
  deriving DecidableEq, Repr

/-- The header of the block at an address (R359). -/
def State.blockHead (s : State) (pa : Nat) : BlockHead :=
  let w (j : Nat) : Nat := s.word32 (pa + 4 * j)
  ⟨pa, w 0, w 1, w 2, w 3, w 4, w 5, w 6, w 7, s.physValue (pa + 0x28) 8⟩

/-- A block's size. -/
def BlockHead.size (h : BlockHead) : Nat := blockSize h.groups h.regs h.tiles h.limit

/-- Where group g's block lies. -/
def BlockHead.groupAt (h : BlockHead) (g : Nat) : Nat := h.at_ + 0x1A00 + g * (1024 + 128 * h.regs + 8192 * h.tiles)

/-- Whether a block's sizes can be those of a team (R13, R17, R225, R68). -/
def BlockHead.sizesOk (h : BlockHead) : Bool :=
  1 ≤ h.groups && h.groups ≤ 32 && h.regs % 8 == 0 && 8 ≤ h.regs && h.regs ≤ 192 && h.tiles ≤ 64 && h.limit ≤ 524288 && h.limit % 4096 == 0

/-- The headers of n blocks from an address on; none when one's sizes are out of range, or it lies outside the memory that
the partition may use (R407). -/
def State.blockHeads (s : State) (p : Nat) : Nat → Nat → Option (List BlockHead)
  | 0, _ => some []
  | n + 1, pa =>
    let h := s.blockHead pa
    if s.ownRange p pa 0x1A00 && h.sizesOk && s.ownRange p pa h.size then (s.blockHeads p n (pa + h.size)).map (h :: ·) else none

/-- FRAG of lane l of the group block at an address. -/
def State.fragAt (s : State) (pa l : Nat) : Nat := bitsOf (s.physValue (pa + 0x180 + 16 * l) 16) 12 5

/-- Whether a group block is valid (R361): zero fields, %traplevel, HOLD and FRAG, and MEMB and k0–k11 as one state
(R205; DEDUCED, log 27). -/
def State.groupBlockOk (s : State) (pa regs tiles : Nat) : Bool :=
  s.word32 (pa + 0x140) ≤ 2 && s.zeroAt (pa + 0x14C) 4 && s.zeroAt (pa + 0x158) 40 && s.zeroAt (pa + 0x380) 128 &&
  s.word32 (pa + 0x144) < 256 &&
  (List.range 32).all (fun l => (List.range 12).all (fun j =>
    (s.physValue (pa + 0x180 + 16 * l) 16).testBit j == (s.word32 (pa + 0xF0 + 4 * j)).testBit l)) &&
  (List.range 32).all (fun l =>
    let r := s.physValue (pa + 0x180 + 16 * l) 16
    bitsOf r 48 16 == 0 && bitsOf r 17 15 == 0 && bitsOf r 33 3 ≤ 3 && s.fragAt pa (bitsOf r 12 5) == bitsOf r 12 5) &&
  (List.range (1024 * tiles)).all (fun i => s.byte (pa + 0x400 + 128 * regs + 8 * i + 7) == 0)

/-- Whether a team block is valid: its place among the grids, its sizes against the packet's (those of a plain
grid), its zero fields and its groups. -/
def State.blockOk (s : State) (ncore : Nat) (packets : List (BitVec 1024)) (h : BlockHead) : Bool :=
  match packets[h.grid]? with
  | none => false
  | some p =>
    (pkGraph p != 0 || (h.groups == pkGroups p && h.regs == pkRegs p && h.tiles == pkTiles p && h.limit == pkLimit p &&
      h.index < pkTeams p)) &&
    h.core < ncore && h.cluster == h.core / 8 && s.zeroAt (h.at_ + 0x30) 16 && s.zeroAt (h.at_ + 0xC8) 56 &&
    (List.range 17).all (fun b =>
      let v := s.physValue (h.at_ + 0x40 + 8 * b) 8
      bitsOf v 48 16 == 0 && bitsOf v 38 2 == 0 && bitsOf v 32 6 ≤ (if b = teamBarrier then 0 else 32)) &&
    (List.range 8).all (fun c =>
      let v := s.physValue (h.at_ + 0x100 + 32 * c) 32
      bitsOf v 160 96 == 0 && bitsOf v 24 8 == 0 && bitsOf v 1 7 == 0) &&
    (List.range 64).all (fun k => h.shapes.testBit k || s.zeroAt (h.at_ + 0x200 + 96 * k) 96) &&
    (List.range h.groups).all (fun g => s.groupBlockOk (h.groupAt g) h.regs h.tiles)

/-- A grid record of an area (R358). -/
structure GridRec where
  packet : BitVec 1024
  depth : Nat
  parent : Nat
  next : Nat
  live : Nat
  kids : Nat
  deriving DecidableEq, Repr

/-- Record i of the area at a base. -/
def State.gridRec (s : State) (base i : Nat) : GridRec :=
  let pa := base + 256 + 256 * i
  ⟨BitVec.ofNat 1024 (s.physValue pa 128), s.word32 (pa + 128), s.word32 (pa + 132), s.word32 (pa + 136),
    s.word32 (pa + 140), s.word32 (pa + 144)⟩

/-- No parent. -/
def noParent : Nat := 0xFFFFFFFF

/-- Whether record i is valid beside the others and the blocks. -/
def GridRec.ok (r : GridRec) (i : Nat) (all : List GridRec) (heads : List BlockHead) : Bool :=
  packetStatus r.packet == 0 && r.depth ≤ 10 && r.next ≤ pkTeams r.packet &&
  (r.parent == noParent || (r.parent < all.length && r.parent != i)) &&
  r.live == (heads.filter (fun h => h.grid == i)).length && r.kids == (all.filter (fun k => k.parent == i)).length

/-- What an area holds, if it is valid (R361); one that does not lie whole in the memory that the partition may use has a
range wrong (R407; DEDUCED, log 48). -/
def State.readArea (s : State) (p base : Nat) : Option (List GridRec × List BlockHead) :=
  let h := s.physValue base 256
  let ngrid := bitsOf h 32 32
  if bitsOf h 0 16 ≠ 0xC7A5 ∨ bitsOf h 16 16 ≠ 1 ∨ bitsOf h 128 16 ≠ 0 ∨ bitsOf h 160 1888 ≠ 0 ∨
      s.ownRange p base (256 + 256 * ngrid) = false then none else
  let recs := (List.range ngrid).map (s.gridRec base)
  match s.blockHeads p (bitsOf h 64 32) (base + 256 + 256 * ngrid) with
  | none => none
  | some heads =>
    if (List.range ngrid).all (fun i => s.zeroAt (base + 256 + 256 * i + 148) 108) &&
        recs.zipIdx.all (fun r => r.1.ok r.2 recs heads) && heads.all (s.blockOk (bitsOf h 96 32) (recs.map (·.packet)))
    then some (recs, heads) else none

/-- What the device has left of a save beside the area at an address, while its bytes are those that the save wrote. -/
def State.shelfAt (s : State) (base : Nat) : Option Shelf :=
  s.shelf.reverse.find? (fun x => s.bytes base x.area.length == x.area)

/-- A grid made again from its record (R361), with what the device has left of it. Without that, its dependence was met
if a team of it has been admitted, no group of it has stopped, and its work graph is still to be read (log 27). -/
def restoredGrid (p q : Nat) (Q : Queue) (tenant : BitVec 16) (first n : Nat) (r : GridRec) (was : Option Grid) : Grid :=
  { packet := r.packet, depth := r.depth, parent := if r.parent = noParent then none else some (first + r.parent),
    part := p, queue := q, tenant := tenant, asid := Q.rootAsid, root := Q.rootPpn, order := n, next := r.next,
    liveTeams := r.live, liveKids := r.kids,
    depOk := pkDepAddr r.packet == 0 || 0 < r.next || (was.map (·.depOk)).getD false,
    stopped := (was.map (·.stopped)).getD false, aborted := false, recordDone := false, counterDone := false,
    wg := was.bind (·.wg), shadesFor := none, wait := .none }

/-- CONTEXT_RESTORE (R361): CMD 2. -/
def execContextRestore (part queue : Nat) (s : State) : Out :=
  .next (match s.queue? part queue, Tab.get? s.parts part with
    | some Q, some P =>
      if Q.rstat = 1 ∨ s.areaUsable part Q 256 = false then s else
      let refuse (code : BitVec 4) : State := s.modQueue part queue fun Q => { Q with rstat := code }
      if Q.en ∨ s.gridsOf part queue ≠ [] then refuse 6 else
      let base := Q.cbase.toNat
      match s.readArea part base with
      | none => refuse 4
      | some (recs, heads) =>
        let h := s.physValue base 256
        let kids := (recs.filter (fun r => r.parent != noParent)).length
        if P.cfg.cores.length < bitsOf h 96 32 then refuse 3
        else if childSlots < P.kids + kids then refuse 5
        else
          let first := s.fresh
          let tenant := BitVec.ofNat 16 (bitsOf h 144 16)
          let was (i : Nat) : Option Grid := (s.shelfAt base).bind fun x => x.grids[i]?
          let grids := recs.zipIdx.foldl
            (fun gs r => Tab.put gs (first + r.2) (restoredGrid part queue Q tenant first (first + r.2) r.1 (was r.2))) s.grids
          let s : State := { s with grids := grids, fresh := first + recs.length }
          let s := s.modPart part fun P => { P with kids := P.kids + kids }
          let need := heads.foldl (fun n h => n + h.size) (256 + 256 * recs.length)
          s.modQueue part queue fun Q =>
            { Q.begin 2 with
              restore := heads.map (fun h => (h.at_, first + h.grid)), area := if heads = [] then [] else s.bytes base need,
              need := BitVec.ofNat 64 need,
              nteam := BitVec.ofNat 32 heads.length, ngrid := BitVec.ofNat 32 recs.length }
    | _, _ => s)

/-! ## A saved team made again (R360 to R362) -/

/-- The rendezvous at which a lane arrived, by the word at its program counter; a lane whose word cannot be read
arrives again at it, which counts nothing twice (R214, R216). -/
def State.arrivedHold (s : State) (sp : Space) (pc : Nat) : Hold :=
  match translate s .none sp pc .fetch with
  | .fail _ => .run
  | .ok s pa _ _ =>
    if remotePa pa then .run else
    match decodeWord (BitVec.ofNat 32 (s.physValue pa 4)) with
    | .ok (.wait k) => .wait k.toNat
    | .ok .bar => .barrier teamBarrier 0
    | .ok (.barn b c) => .barrier b.toNat c.toNat
    | _ => .run

/-- A lane from its record (R360): 2 executes its word again, 3 binds again. -/
def State.restoredLane (s : State) (sp : Space) (pa regs l : Nat) (levels : List (BitVec 32)) : Lane :=
  let r := s.physValue (pa + 0x180 + 16 * l) 16
  let pc := bitsOf r 64 64
  let hold := bitsOf r 33 3
  { live := bitsOf r 32 1 == 1, pc := BitVec.ofNat 64 pc, meet := BitVec.ofNat 12 r, status := BitVec.ofNat 6 (bitsOf r 36 6),
    rpt := BitVec.ofNat 6 (bitsOf r 42 6), frag := ⟨bitsOf r 12 5, []⟩,
    hold := if hold = 1 then s.arrivedHold sp pc else .run, halt := false, stalled := false, arrive := false, inRun := none,
    level := (levels.filter (fun m => m.getLsbD l)).length, helper := false, q := Latches.invalid,
    v := (List.range regs).foldl (fun v j => Store.set v j (BitVec.ofNat 32 (s.word32 (pa + 0x400 + 128 * j + 4 * l)))) [] }

/-- A handler instance from its frame in the scratchpad (R351): level i counted from 1. The fragment of a lane at
entry is the one its lanes outside the handler are in now, when there are any; else a name of its own; f0–f7 at entry are
those of the block (log 27). -/
def restoredHandler (scratch : Store 8) (f : Store 32) (frame i : Nat) (now : Nat → Option FragKey) : Handler :=
  let off := frame - windowBase
  let rep (l : Nat) : Nat := (Store.get scratch (off + 0x1C0 + l)).toNat % 32
  let enter := BitVec.ofNat 32 (leValue (Store.getRange scratch (off + 0x1B0) 4))
  { enter := enter, frame := BitVec.ofNat 64 frame, f := f,
    masks := (List.range 12).foldl (fun m j =>
      Store.set m j (BitVec.ofNat 32 (leValue (Store.getRange scratch (off + 0x180 + 4 * j) 4)))) [],
    runs := (List.range 32).map (fun l => (BitVec.ofNat 64 (leValue (Store.getRange scratch (off + 8 * l) 8)), none)),
    keys := (List.range 32).map (fun l =>
      match (List.range 32).find? (fun m => !enter.getLsbD m && rep m == rep l && (now m).isSome) with
      | some m => (now m).getD ⟨0, []⟩
      | none => ⟨32 * i + rep l, []⟩) }

/-- A group from its block (R359). -/
def State.restoredGroup (s : State) (sp : Space) (pa regs tiles : Nat) (scratch : Store 8) (handler : Word64) (seat : Seat) :
    Group :=
  let sregs : Store 32 := (List.range 60).foldl (fun m r => Store.set m r (BitVec.ofNat 32 (s.word32 (pa + 4 * r)))) []
  let f : Store 32 := (List.range 8).foldl (fun m j => Store.set m j (BitVec.ofNat 32 (s.word32 (pa + 0x120 + 4 * j)))) []
  let level := s.word32 (pa + 0x140)
  let fp := (Store.get sregs 58).toNat + 2 ^ 32 * (Store.get sregs 59).toNat
  let frames := (List.range level).map (fun i => (i + 1, fp + 1024 * (level - 1 - i)))
  let enters := frames.map (fun f => BitVec.ofNat 32 (leValue (Store.getRange scratch (f.2 - windowBase + 0x1B0) 4)))
  let lanes := (List.range 32).map (fun l => (l, s.restoredLane sp pa regs l enters))
  let now (m : Nat) : Option FragKey := match Tab.get? lanes m with
    | some L => if L.live then some L.frag else none
    | none => none
  { Group.start 0 sregs handler seat with
    lanes := lanes,
    k := (List.range 12).foldl (fun m j => Store.set m j (BitVec.ofNat 32 (s.word32 (pa + 0xF0 + 4 * j)))) [],
    f := f,
    z := (List.range (1024 * tiles)).foldl (fun m i =>
      Store.set m i (BitVec.ofNat 56 (s.physValue (pa + 0x400 + 128 * regs + 8 * i) 7))) [],
    handlers := frames.map (fun x => restoredHandler scratch f x.2 x.1 now), trapLevel := BitVec.ofNat 2 level,
    trapCause := BitVec.ofNat 8 (s.word32 (pa + 0x144)), trapInfo := BitVec.ofNat 32 (s.word32 (pa + 0x148)),
    trapPc := BitVec.ofNat 64 (s.physValue (pa + 0x150) 8), nextBase := 128,
    ended := lanes.all (fun L => !L.2.live) }

/-- A lane with what the device has left of it: its fragment's ancestry, where it arrived, a check of R137 still to be
made, and its place in its run (R362). -/
def Lane.recall (L was : Lane) : Lane :=
  { L with frag := was.frag, arrive := was.arrive, inRun := was.inRun, level := was.level,
           hold := match was.hold with
             | .wait k => .wait k
             | .barrier b n => .barrier b n
             | .run => .run
             | .matrix _ _ => .run
             | .parked _ => .run
             | .parkedFree _ _ _ _ _ => .run }

/-- A group with what the device has left of it: also its handlers' entries and its view of %handler. -/
def Group.recall (G was : Group) : Group :=
  { G with lanes := G.lanes.map (fun e => (e.1, e.2.recall (was.lane e.1))), handlers := was.handlers, handler := was.handler,
           heldHandler := was.heldHandler, nextBase := was.nextBase }

/-- A team with what the device has left of it (R362). -/
def Team.recall (T : Team) : Option Team → Team
  | none => T
  | some was => { T with
      groups := T.groups.map (fun e => (e.1, match Tab.get? was.groups e.1 with
        | some G => e.2.recall G
        | none => e.2)),
      wg := was.wg }

/-- A team from its block (R359, R362), on the core and seats it is given. -/
def State.restoredTeam (s : State) (g : Grid) (gridNo : Nat) (h : BlockHead) (pcore : Nat) (seats : List Seat)
    (block : Nat × Nat) : Team :=
  let handler := BitVec.ofNat 64 (s.physValue (h.at_ + 0x20) 8)
  let scratch := Store.setRange [] 0 (s.bytes (h.at_ + h.size - h.limit) h.limit)
  { grid := gridNo, index := h.index, part := g.part, core := h.core, cluster := h.cluster, pcore := pcore,
    ngroup := h.groups, regs := h.regs, ztiles := h.tiles, limit := h.limit, scratch := scratch, buffer := [], late := [], handler := handler,
    groups := seats.zipIdx.map (fun e =>
      (e.2, s.restoredGroup g.space (h.groupAt e.2) h.regs h.tiles scratch handler e.1)),
    barriers := (List.range 17).map (fun b =>
      let v := s.physValue (h.at_ + 0x40 + 8 * b) 8
      (b, ⟨BitVec.ofNat 8 (bitsOf v 40 8), BitVec.ofNat 6 (bitsOf v 32 6), BitVec.ofNat 32 v⟩)),
    conv := (List.range 8).map (fun c =>
      let v := s.physValue (h.at_ + 0x100 + 32 * c) 32
      (c, ⟨BitVec.ofNat 128 (bitsOf v 32 128), BitVec.ofNat 8 (bitsOf v 16 8), bitsOf v 15 1 == 1,
        BitVec.ofNat 3 (bitsOf v 12 3), BitVec.ofNat 4 (bitsOf v 8 4), bitsOf v 0 1 == 1⟩)),
    steps := [],
    wg := g.wg.map (fun _ => { node := 0, left := [], pool := [], held := [], consumed := [], input := 0, done := false }),
    shade := [], shadeFor := none, block := block }

/-- The handles of a SHAPES mask. -/
def handlesOf (m : Nat) : List Nat := (List.range 64).filter (fun h => m.testBit h)

/-- The state in which a queue's context area reads as its restore found it (R361): what is written there since counts for
nothing. -/
def State.asRestored (s : State) (Q : Queue) : State := s.writePhys Q.areaBase Q.area

/-- A queue's next saved team admitted, if a core of the window can hold it with its shape handles (R361). -/
def State.admitSaved (s : State) (p q : Nat) : Option State :=
  match Tab.get? s.parts p, s.queue? p q with
  | some P, some Q =>
    match Q.restore with
    | [] => none
    | (off, n) :: rest =>
      match Tab.get? s.grids n with
      | none => none
      | some g =>
        if g.wantsGraph then none else
        let v := s.asRestored Q
        let h := v.blockHead off
        let need : Need := ⟨h.groups, h.regs, h.tiles, h.limit, g.tenant, handlesOf h.shapes⟩
        (s.placeTeam P need).map fun at_ =>
          let pcore := P.cfg.cores.getD at_.1 0
          let was := (v.shelfAt Q.areaBase).bind fun x => Tab.get? x.teams (off - Q.areaBase)
          let T := (v.restoredTeam g n h pcore at_.2.1 at_.2.2).recall was
          let t := s.fresh
          let s : State := { s with teams := Tab.put s.teams t T, fresh := t + 1 }
          let s := s.modCore pcore fun k => { k with
            tag := some g.tenant,
            shapes := need.shapes.foldl (fun m i =>
              Tab.put m i ⟨t, BitVec.ofNat 768 (v.physValue (off + 0x200 + 96 * i) 96), false⟩) k.shapes }
          let s := s.modPart p fun P => { P with placed := P.placed + 1, lastQueue := q }
          s.modQueue p q fun Q => { Q with restore := rest, area := if rest = [] then [] else Q.area }
  | _, _ => none

/-- CONTEXT_RESTORE_DONE (R361): every saved team has been admitted. -/
def execContextRestoreDone (part queue : Nat) (s : State) : Out :=
  .next (s.modQueue part queue fun Q => if Q.cmd = 2 ∧ Q.restore = [] then { Q with rstat := 0, cmd := 0 } else Q)

/-- QUEUE_ABORT (R363): CMD 3. -/
def execQueueAbort (part queue : Nat) (s : State) : Out :=
  .next (match s.queue? part queue with
    | none => s
    | some Q =>
      if Q.rstat = 1 then s else
      let s := s.modQueue part queue fun Q => { Q with rstat := 1, cmd := 3 }
      (((s.gridsOf part queue).map (·.1)).foldl State.abortGrid s).settleAbort part queue)

/-! ## TEAM_ADMIT (R308 to R313) -/

/-- Whether a queue has a restored team or a child grid to admit (R310, R361). -/
def State.goesAhead (s : State) (p q : Nat) : Bool :=
  match s.queue? p q with
  | some Q => Q.restore != [] || (s.childHead p q).isSome
  | none => false

/-- What a queue has admitted next: a saved team first, then what it puts forward. -/
def State.admitNext (s : State) (p q : Nat) : Option State :=
  match s.queue? p q with
  | some Q => if Q.restore ≠ [] then s.admitSaved p q else s.admitFrom p q
  | none => none

/-- The work graph of a restored grid read (R361, R407): a descriptor that is no longer valid, or whose read an answer
aborts, aborts the grid. Its node 0 has the teams that the grid counts. -/
def State.readGridGraph (s : State) (n : Nat) (g : Grid) : State :=
  match readGraph s n g.space g.packet with
  | .wait s => s
  | .fault s va k f => s.gridFault n g.space va k f .graph
  | .val s none => (s.dropReplies n).abortGrid n
  | .val s (some w) => (s.dropReplies n).modGrid n fun G =>
      { G with wg := some { w with nodes := Tab.modify w.nodes 0 (fun N => { N with made := g.next, live := g.liveTeams }) } }

/-- The grids of a partition whose work graphs are still to be read, each tried. -/
def State.readGraphs (s : State) (p : Nat) : State :=
  (s.grids.filter (fun g => g.2.part == p && g.2.wantsGraph && g.2.shadesFor.isNone && g.2.wait == .none)).foldl
    (fun s g => s.readGridGraph g.1 g.2) s

/-- TEAM_ADMIT (R308): the first queue in the serving order whose next team a core can hold has it admitted. -/
def execTeamAdmit (part : Nat) (s : State) : Out :=
  .next (match Tab.get? s.parts part with
    | none => s
    | some P =>
      if s.partUp part = false then s else
      let s := s.readGraphs part
      ((serveOrder P (s.goesAhead part)).findSome? (s.admitNext part)).getD s)

/-! ## COMPACTOR_MOVE (R315) -/

/-- What the next team of a queue needs (R308). -/
def State.nextNeed (s : State) (p q : Nat) : Option Need :=
  match s.queue? p q with
  | none => none
  | some Q =>
    match Q.restore with
    | (off, n) :: _ => (Tab.get? s.grids n).map fun g =>
        let h := (s.asRestored Q).blockHead off
        ⟨h.groups, h.regs, h.tiles, h.limit, g.tenant, handlesOf h.shapes⟩
    | [] => match s.forward p q with
      | some (_, g, _) => g.offer.map (fun o => packetNeed (g.offerPacket o) g.tenant)
      | none => none

/-- Whether the free granules and tiles of a core suffice for a team with a rotation, wherever they lie. -/
def granulesSuffice (ts : List Team) (n : Need) (rho : Nat) : Bool :=
  let sum (bs : List (Nat × Nat)) : Nat := bs.foldl (fun m b => m + b.2) 0
  (List.range 4).all (fun q =>
    let more := ((List.range n.groups).filter (fun g => (g + rho) % 4 == q)).length
    let here := (seatsOf ts).filter (fun x => x.1 == q)
    here.length + more ≤ 16 && sum (here.flatMap (·.2.1)) + more * (n.regs / 8) ≤ 256 &&
      sum (here.flatMap (·.2.2)) + more * n.tiles ≤ 64) &&
  sum (ts.map (·.block)) + scratchGranules n.scratch ≤ 128

/-- Whether a team that comes next fails admission on a core for want of contiguous blocks alone (R315). -/
def State.wantsCompaction (s : State) (core : Nat) : Bool :=
  s.parts.any (fun (P : Nat × Part) => P.2.window.any (fun i => P.2.cfg.cores.getD i 256 == core) &&
    (List.range 64).any (fun q => match s.nextNeed P.1 q, Tab.get? s.cores core with
      | some n, some k => !k.dead && (k.tag == none || k.tag == some n.tenant) &&
          n.shapes.all (fun h => (Tab.get? k.shapes h).isNone) && (s.fits core 0 n).isNone &&
          (List.range 4).any (granulesSuffice (s.teamsOn core) n)
      | _, _ => false))

/-- COMPACTOR_MOVE (R315): where a team fails admission for want of contiguous blocks, those of resident groups are
moved; no value changes, only where blocks lie. -/
def execCompactorMove (core : Nat) (s : State) : Out :=
  .next (if s.wantsCompaction core then (s.teams.map (·.1)).foldl (fun s t => s.compactTeam core t) s else s)

end Sys2Proof.Machine
end

