-- ==== Sys2Proof/Machine/Window.lean ====
section
/-!
DEFINITION. The control window: every register that system cores and the host reach, word by word
(22_queues_and_dispatch.md R303, R312, R322; 23_translation_and_residency.md R325, R331 to R343;
24_traps_and_preemption.md R356; 25_boot_host_security.md R369; 26_partitions_and_fleet.md R377, R383, R385).
A reserved field reads as zero and takes no write (R9).
-/
namespace Sys2Proof.Machine

/-! ## Registers as values -/

/-- A flag as a bit. -/
def bit (b : Bool) : Nat := if b then 1 else 0

/-- A queue's register block (R303). -/
def Queue.block (Q : Queue) : Nat :=
  Q.qbase.toNat + Q.qlog.toNat * 2 ^ 64 + bit Q.en * 2 ^ 71 + Q.prio.toNat * 2 ^ 76 + bit Q.err * 2 ^ 79
    + Q.tail.toNat * 2 ^ 192 + Q.head.toNat * 2 ^ 224 + Q.estat.toNat * 2 ^ 288 + Q.retired.toNat * 2 ^ 320
    + Q.leaseMax.toNat * 2 ^ 352

/-- A queue's context register (R356). -/
def Queue.context (Q : Queue) : Nat :=
  Q.rstat.toNat * 2 ^ 8 + Q.cbase.toNat * 2 ^ 256 + Q.csize.toNat * 2 ^ 320 + Q.ngrid.toNat * 2 ^ 384
    + Q.nteam.toNat * 2 ^ 416 + Q.need.toNat * 2 ^ 448

/-- A queue's translation root (R325). -/
def Queue.root (Q : Queue) : Nat := Q.rootPpn.toNat + Q.rootAsid.toNat * 2 ^ 44 + Q.rootMode.toNat * 2 ^ 60

/-- A fault or error ring's registers (R333, R377). -/
def Ring.block (r : Ring) : Nat :=
  r.base.toNat + r.log.toNat * 2 ^ 64 + bit r.en * 2 ^ 69 + r.produce.toNat * 2 ^ 128 + r.consume.toNat * 2 ^ 160

/-- A guestbook ring's registers (R340). -/
def GbRing.block (r : GbRing) : Nat :=
  r.base.toNat + r.cap.toNat * 2 ^ 64 + bit r.en * 2 ^ 69 + bit r.ovf * 2 ^ 70 + r.produce.toNat * 2 ^ 160
    + r.consume.toNat * 2 ^ 192 + r.ovfCount.toNat * 2 ^ 224

/-- The invalidation register (R331). -/
def Inval.block (r : Inval) : Nat :=
  bit r.done * 2 + r.scope.toNat * 4 + r.asid.toNat * 2 ^ 64 + r.npages.toNat * 2 ^ 96 + r.va.toNat * 2 ^ 128

/-- A migration slot (R343). -/
def MigSlot.block (m : MigSlot) : Nat :=
  m.src.toNat + m.dst.toNat * 2 ^ 64 + m.size.toNat * 2 ^ 128 + bit m.zsrc * 2 ^ 130 + bit m.zdst * 2 ^ 131
    + m.state.toNat * 2 ^ 132

/-- A room-key register (R322). -/
def RoomKey.block (k : RoomKey) : Nat := bit k.en + bit k.held * 2 ^ 8 + k.holder.toNat * 2 ^ 16 + k.remain.toNat * 2 ^ 32

/-- The inspection register (R385). -/
def Inspect.block (i : Inspect) : Nat := bit i.done * 2 + i.unit.toNat * 2 ^ 12 + i.index.toNat * 2 ^ 16 + i.stamp.toNat * 2 ^ 64

/-- The identity and quote registers (R369). -/
def State.identity (s : State) (p : Nat) (P : Part) : Nat :=
  s.boot.devnum.toNat + p * 2 ^ 22 + bit P.quoteBusy * 2 ^ 33 + bit P.noos * 2 ^ 34 + bit P.idFail * 2 ^ 35
    + P.quoteAddr.toNat * 2 ^ 64

/-- The Concierge configuration register (R312). -/
def Part.concierge (P : Part) : Nat := P.tw.toNat * 2 ^ 4 + P.dw.toNat * 2 ^ 8 + P.cfg.cores.length * 2 ^ 32

/-! ## The window's map -/

/-- What a word of the window belongs to: a register and the word within it. -/
inductive Reg where
  | identity
  | concierge
  | cores
  | queue (q : Nat)
  | key (core : Nat)
  | guest (r : Nat)
  | fault
  | resume
  | fclr
  | inval
  | mig (slot : Nat)
  | error
  | cedrop
  | root (q : Nat)
  | context (q : Nat)
  | body
  | inspect
  | page
  | other
  deriving DecidableEq, Repr

/-- The register at an offset, and the offset of the word within it. -/
def regAt (P : Part) (off : Nat) : Reg × Nat :=
  let within (base n : Nat) : Bool := base ≤ off && off < base + n
  if within 0 0x10 then (.identity, off)
  else if within 0x100 8 then (.concierge, off - 0x100)
  else if within 0x400 (2 * P.cfg.cores.length) then (.cores, off - 0x400)
  else if within 0x10000 0x1000 then (.queue ((off - 0x10000) / 64), off % 64)
  else if within 0x20000 (8 * P.cfg.cores.length) then (.key ((off - 0x20000) / 8), off % 8)
  else if within 0x30000 0x400 then (.guest ((off - 0x30000) / 64), off % 64)
  else if within 0x30400 0x40 then (.fault, off - 0x30400)
  else if within 0x30440 8 then (.resume, off - 0x30440)
  else if within 0x30460 4 then (.fclr, off - 0x30460)
  else if within 0x30480 0x20 then (.inval, off - 0x30480)
  else if within 0x30500 0x100 then (.mig ((off - 0x30500) / 32), off % 32)
  else if within 0x30600 0x40 then (.error, off - 0x30600)
  else if within 0x30640 4 then (.cedrop, off - 0x30640)
  else if within 0x31000 0x400 then (.root ((off - 0x31000) / 16), off % 16)
  else if within 0x40000 0x1000 then (.context ((off - 0x40000) / 64), off % 64)
  else if within 0x50000 0x10000 then (.body, off - 0x50000)
  else if within 0x80000 0x10 then (.inspect, off - 0x80000)
  else if within 0x81000 0x1000 then (.page, off - 0x81000)
  else (.other, off)

/-- A 32-bit word of the window as it reads (R9). An offset that no register of the spec takes reads as zero, or as a free
value in a partition that owns a media engine or a head, whose registers lie at places that the spec does not give (R375,
log 49). -/
def State.windowRead (s : State) (p off : Nat) : Word :=
  match Tab.get? s.parts p with
  | none => 0
  | some P =>
    let (r, o) := regAt P (off / 4 * 4)
    let word (v : Nat) : Word := BitVec.ofNat 32 (v / 2 ^ (8 * o))
    match r with
    | .identity => word (s.identity p P)
    | .concierge => word P.concierge
    | .cores => word ((P.cfg.cores.zipIdx).foldl (fun v c => v + c.1 * 2 ^ (16 * c.2)) 0)
    | .queue q => word (((Tab.get? P.queues q).map Queue.block).getD 0)
    | .key c => word (s.keyOf (P.cfg.cores.getD c 0)).block
    | .guest g => word (((Tab.get? P.rings g).map GbRing.block).getD 0)
    | .fault => word P.fault.block
    | .resume => 0
    | .fclr => word (bit P.fclr)
    | .inval => word P.inval.block
    | .mig m => word (((Tab.get? P.mig m).map MigSlot.block).getD 0)
    | .error => word P.error.block
    | .cedrop => P.cedrop
    | .root q => word (((Tab.get? P.queues q).map Queue.root).getD 0)
    | .context q => word (((Tab.get? P.queues q).map Queue.context).getD 0)
    | .body => BitVec.ofNat 32 (leValue (Store.getRange s.boot.body o 4))
    | .inspect => word P.inspect.block
    | .page => BitVec.ofNat 32 (leValue (Store.getRange P.inspect.page o 4))
    | .other => if P.cfg.encode = 0 ∧ P.cfg.heads = 0 then 0 else Config.windowWord p P.media (off / 4 * 4) s.steps

/-! ## Writes -/

/-- A 64-bit register with one of its words written. -/
def half (v : Word64) (hi : Bool) (w : Word) : Word64 :=
  if hi then w ++ v.extractLsb' 0 32 else v.extractLsb' 32 32 ++ w

/-- Whether a base address can be used by the device (R407): page aligned, in the partition's memory or the pool
(DEDUCED, log 48). -/
def State.baseOk (s : State) (p : Nat) (b : Word64) (n : Nat) : Bool := b.toNat % 4096 == 0 && s.ownRange p b.toNat n

/-- Word 2 of a queue's block (R303): QLOG, EN, PRIO and ERR. -/
def State.queueControl (s : State) (p : Nat) (w : Word) (Q : Queue) : Queue :=
  let log := if Q.en then Q.qlog else w.extractLsb' 0 5
  let ok := 4 ≤ log.toNat && log.toNat ≤ 16 && s.baseOk p Q.qbase (128 * 2 ^ log.toNat)
  { Q with qlog := log, en := w.getLsbD 7 && ok, prio := w.extractLsb' 12 3, err := Q.err && !w.getLsbD 15 }

/-- A write to a queue's block (R303). -/
def State.writeQueue (s : State) (p : Nat) (o : Nat) (w : Word) (Q : Queue) : Queue :=
  match o with
  | 0 => if Q.en then Q else { Q with qbase := half Q.qbase false w }
  | 4 => if Q.en then Q else { Q with qbase := half Q.qbase true w }
  | 8 => s.queueControl p w Q
  | 24 => { Q with tail := w }
  | 44 => { Q with leaseMax := w }
  | _ => Q

/-- A write to a fault or error ring (R333, R377): one that would leave EN = 1 with a base or capacity outside its
range does nothing to it (DESIGN CHOICE, log 48). -/
def State.writeRing (s : State) (p : Nat) (o : Nat) (w : Word) (r : Ring) : Ring :=
  let ok (r : Ring) : Bool := 6 ≤ r.log.toNat && r.log.toNat ≤ 16 && s.baseOk p r.base (32 * 2 ^ r.log.toNat)
  let keep (new : Ring) : Ring := if new.en && !ok new then r else new
  match o with
  | 0 => keep { r with base := half r.base false w }
  | 4 => keep { r with base := half r.base true w }
  | 8 =>
    let new : Ring := { r with log := w.extractLsb' 0 5, en := w.getLsbD 5 }
    if new.en && !ok new then { new with en := false } else new
  | 20 => { r with consume := w }
  | _ => r

/-- A write to a guestbook ring (R340). -/
def State.writeGuest (s : State) (p : Nat) (o : Nat) (w : Word) (r : GbRing) : GbRing :=
  match o with
  | 0 => if r.en then r else { r with base := half r.base false w }
  | 4 => if r.en then r else { r with base := half r.base true w }
  | 8 =>
    let cap := if r.en then r.cap else w.extractLsb' 0 5
    let ok := 6 ≤ cap.toNat && cap.toNat ≤ 24 && s.baseOk p r.base (16 * 2 ^ cap.toNat)
    { r with cap := cap, en := w.getLsbD 5 && ok, ovf := r.ovf && !w.getLsbD 6 }
  | 24 => { r with consume := w }
  | 28 => { r with ovfCount := w }
  | _ => r

/-- A write to a translation root (R325). -/
def Queue.writeRoot (Q : Queue) (o : Nat) (w : Word) : Queue :=
  let v : Word64 := BitVec.ofNat 64 Q.root
  let set (v : Word64) : Queue :=
    { Q with rootPpn := v.extractLsb' 0 44, rootAsid := v.extractLsb' 44 16, rootMode := v.extractLsb' 60 4 }
  match o with
  | 0 => set (half v false w)
  | 4 => set (half v true w)
  | _ => Q

/-- A write to CBASE or CSIZE (R356). -/
def Queue.writeArea (Q : Queue) (o : Nat) (w : Word) : Queue :=
  match o with
  | 32 => { Q with cbase := half Q.cbase false w }
  | 36 => { Q with cbase := half Q.cbase true w }
  | 40 => { Q with csize := half Q.csize false w }
  | 44 => { Q with csize := half Q.csize true w }
  | _ => Q

/-- A write to the invalidation register but for GO (R331). -/
def Inval.write (r : Inval) (o : Nat) (w : Word) : Inval :=
  match o with
  | 0 => { r with scope := w.extractLsb' 2 2 }
  | 8 => { r with asid := w.extractLsb' 0 16 }
  | 12 => { r with npages := w }
  | 16 => { r with va := half r.va false w }
  | 20 => { r with va := half r.va true w }
  | _ => r

/-- A write to a migration slot but for GO (R343). -/
def MigSlot.write (m : MigSlot) (o : Nat) (w : Word) : MigSlot :=
  match o with
  | 0 => { m with src := half m.src false w }
  | 4 => { m with src := half m.src true w }
  | 8 => { m with dst := half m.dst false w }
  | 12 => { m with dst := half m.dst true w }
  | 16 => { m with size := w.extractLsb' 0 2, zsrc := w.getLsbD 2, zdst := w.getLsbD 3 }
  | _ => m

/-- The state that an event's outcome holds. -/
def Out.state (o : Out) (s : State) : State :=
  match o with
  | .next s => s
  | .fault _ => s
  | .refused _ => s

/-- QUOTE_REQUEST's register (R369): a write of GO; ignored while a quote is being formed, or where QADDR cannot be
used. -/
def State.startQuote (s : State) (p : Nat) : State :=
  match Tab.get? s.parts p with
  | none => s
  | some P =>
    if P.quoteBusy ∨ s.baseOk p P.quoteAddr 17348 = false then s
    else s.modPart p fun P => { P with quoteBusy := true, quoteAt := P.quoteAddr.toNat }

/-- QUOTE_REQUEST (R369). -/
def execQuoteRequest (part : Nat) (s : State) : Out := .next (s.startQuote part)

/-- SNAPSHOT_REQUEST's register (R385): a write of GO; ignored while a snapshot is being taken, and for
a UNIT above 4. The selection stands as it is then. -/
def State.startSnapshot (s : State) (p : Nat) : State :=
  s.modPart p fun P => if P.inspect.done && P.inspect.unit.toNat ≤ 4 then { P with inspect := { P.inspect with
    done := false, job := some (P.inspect.unit.toNat, P.inspect.index.toNat) } } else P

/-- SNAPSHOT_REQUEST (R385). -/
def execSnapshotRequest (part : Nat) (s : State) : Out := .next (s.startSnapshot part)

/-- A write of a context register's first word (R356): CMD. -/
def State.command (s : State) (p q : Nat) (w : Word) : State :=
  match (w.extractLsb' 2 2).toNat with
  | 1 => Out.state (execContextSave p q s) s
  | 2 => Out.state (execContextRestore p q s) s
  | 3 => Out.state (execQueueAbort p q s) s
  | _ => s

/-- A write of the RESUME register (R336): an answer to a token, unless ACTION is 2 or 3. The reserved bits above it
are not looked at (DESIGN CHOICE, log 74). -/
def State.resume (s : State) (p : Nat) (w : Word) : State :=
  match (w.extractLsb' 16 2).toNat with
  | 0 => Out.state (execResumeRetry p (w.extractLsb' 0 16) s) s
  | 1 => Out.state (execResumeAbort p (w.extractLsb' 0 16) s) s
  | _ => s

/-- A room-key register's first word written (R322, R323). -/
def State.writeKey (s : State) (p c : Nat) (w : Word) : State :=
  let s := if w.getLsbD 8 then Out.state (execRoomKeyHeldClear p c s) s else s
  Out.state (execRoomKeyEnable p c (w.getLsbD 0) s) s

/-- GO of the invalidation register (R331): SCOPE 3 is ignored. -/
def Inval.go (r : Inval) (w : Word) : Inval :=
  if w.getLsbD 0 && w.extractLsb' 2 2 != 3 then r.start (w.extractLsb' 2 2) else r

/-- A 32-bit write to a word of the window. -/
def State.windowWrite (s : State) (p off : Nat) (w : Word) : State :=
  match Tab.get? s.parts p with
  | none => s
  | some P =>
    let (r, o) := regAt P (off / 4 * 4)
    match r with
    | .identity =>
      if o = 8 ∨ o = 12 then s.modPart p fun P => { P with quoteAddr := half P.quoteAddr (o == 12) w }
      else if o = 4 ∧ w.getLsbD 0 then s.startQuote p else s
    | .concierge =>
      if o = 0 then s.modPart p fun P => { P with tw := w.extractLsb' 4 4, dw := w.extractLsb' 8 4 } else s
    | .cores => s
    | .queue q => s.modQueue p q (s.writeQueue p o w)
    | .key c => if o = 0 then s.writeKey p c w else s
    | .guest g =>
      let closes := match Tab.get? P.rings g with
        | some r => r.en && !(s.writeGuest p o w r).en
        | none => false
      (if closes then s.placeAll p else s).modPart p fun P => { P with rings := Tab.modify P.rings g (s.writeGuest p o w) }
    | .fault => s.modPart p fun P => { P with fault := s.writeRing p o w P.fault }
    | .resume => if o = 0 then s.resume p w else s
    | .fclr => if w.getLsbD 0 then Out.state (execFilterClear p s) s else s
    | .inval => s.modInval p fun r => if o = 0 then (r.write o w).go w else r.write o w
    | .mig m =>
      let s := s.modSlot p m (·.write o w)
      if o = 16 ∧ w.getLsbD 6 then Out.state (execMigrationStart p m s) s else s
    | .error => s.modPart p fun P => { P with error := s.writeRing p o w P.error }
    | .cedrop => s.modPart p fun P => { P with cedrop := w }
    | .root q => s.modQueue p q (·.writeRoot o w)
    | .context q => if o = 0 then s.command p q w else s.modQueue p q (·.writeArea o w)
    | .body => s
    | .inspect =>
      if o = 0 then
        let s := s.modPart p fun P => { P with inspect := { P.inspect with
          unit := w.extractLsb' 12 4, index := w.extractLsb' 16 8 } }
        if w.getLsbD 0 then s.startSnapshot p else s
      else s
    | .page => s
    | .other =>
      if P.cfg.encode = 0 ∧ P.cfg.heads = 0 then s
      else s.modPart p fun P => { P with media := P.media ++ [(off / 4 * 4, w)] }

/-- REGISTER_WRITE (R9): a word written to the control window. -/
def execRegisterWrite (part off : Nat) (val : BitVec 32) (s : State) : Out := .next (s.windowWrite part off val)

end Sys2Proof.Machine
end

