-- ==== Sys2Proof/Machine/Boot.lean ====
section
/-!
DEFINITION. Boot, signed records, the configuration, identity and quotes, and the host ports
(25_boot_host_security.md R364 to R371; 26_partitions_and_fleet.md R372, R373).
-/
namespace Sys2Proof.Machine

/-! ## Records in the flash (R364, R365) -/

/-- A record as it lies in the flash. -/
structure Rec where
  addr : Nat
  header : Nat
  deriving DecidableEq, Repr

def Rec.length (r : Rec) : Nat := bitsOf r.header 96 32
def Rec.version (r : Rec) : Nat := bitsOf r.header 64 32
def Rec.keyId (r : Rec) : Nat := bitsOf r.header 56 8
def Rec.part (r : Rec) : Nat := bitsOf r.header 48 8
def Rec.kind (r : Rec) : Nat := bitsOf r.header 40 8

/-- Bytes of a signature SLH-DSA-SHA2-128s (R364). -/
def signBytes : Nat := 7856

/-- Whether a header is that of a record with its fields in their ranges (R364). -/
def Rec.shaped (r : Rec) : Bool :=
  bitsOf r.header 0 16 == 0x48F1 && bitsOf r.header 16 24 == 0 && bitsOf r.header 128 384 == 0 &&
  1 ≤ r.length && r.length ≤ 2 ^ 28 && 1 ≤ r.kind && r.kind ≤ 5 && r.keyId ≤ 15 &&
  (if r.kind = 5 then r.part ≤ 7 else r.part == 0)

/-- The records of a flash from an address on, one after another; an aligned address with no record's MAGIC is passed
over. -/
def recordsFrom (flash : Store 8) : Nat → Nat → List Rec
  | 0, _ => []
  | fuel + 1, a =>
    let r : Rec := ⟨a, leValue (Store.getRange flash a 64)⟩
    if bitsOf r.header 0 16 = 0x48F1 then
      r :: recordsFrom flash fuel ((a + 64 + r.length + signBytes + 4095) / 4096 * 4096)
    else recordsFrom flash fuel (a + 4096)

/-- Where the last written byte of a flash lies. -/
def flashEnd (flash : Store 8) : Nat := flash.foldl (fun m e => max m e.1) 0

/-- Every record of a flash. -/
def flashRecords (flash : Store 8) : List Rec := recordsFrom flash (flashEnd flash / 4096 + 1) 0

/-- A record's body, and its header and body together. -/
def Rec.body (r : Rec) (flash : Store 8) : List Byte := Store.getRange flash (r.addr + 64) r.length
def Rec.signed (r : Rec) (flash : Store 8) : List Byte := Store.getRange flash r.addr (64 + r.length)

/-- Whether a record's signature verifies under a public key (R364). -/
def Rec.verifies (r : Rec) (flash : Store 8) (key : List Byte) : Bool :=
  slhVerify key (r.signed flash) (Store.getRange flash (r.addr + 64 + r.length) signBytes)

/-- The record that is accepted among valid ones of one kind and partition (R365): the highest VERSION, at the lowest
address. -/
def best (rs : List Rec) : Option Rec :=
  rs.foldl (fun b r => match b with
    | none => some r
    | some x => if x.version < r.version then some r else b) none

/-! ## Configuration bodies (R372, R373) -/

/-- A field of a configuration body. -/
def cfgField (body : Store 8) (off n : Nat) : Nat := leValue (Store.getRange body off n)

/-- Partition entry p of a body. -/
def entryAt (p : Nat) : Nat := 0x280 + 128 * p
def cfgValid (b : Store 8) (p : Nat) : Bool := bitsOf (cfgField b (entryAt p + 0xC) 4) 0 1 == 1
def cfgSysCores (b : Store 8) (p : Nat) : Nat := cfgField b (entryAt p) 2
def cfgClUnits (b : Store 8) (p : Nat) : Nat := cfgField b (entryAt p + 2) 1
def cfgChGroups (b : Store 8) (p : Nat) : Nat := cfgField b (entryAt p + 3) 1
def cfgTierBase (b : Store 8) (p : Nat) : Nat := cfgField b (entryAt p + 0x10) 8
def cfgTierSize (b : Store 8) (p : Nat) : Nat := cfgField b (entryAt p + 0x18) 8
def cfgPoolBase (b : Store 8) : Nat := cfgField b 0x10 8
def cfgPoolSize (b : Store 8) : Nat := cfgField b 0x18 8
def cfgDisabled (b : Store 8) : Nat := cfgField b 4 4
def cfgRetired (b : Store 8) : Nat := cfgField b 0xC 4
def cfgExport (b : Store 8) (u : Nat) : Nat := cfgField b (0x20 + 8 * u) 8

/-- The valid partitions of a body. -/
def cfgParts (b : Store 8) : List Nat := (List.range 8).filter (cfgValid b)

/-- The enabled clusters of a partition, in ascending physical number (R373). -/
def cfgClusters (b : Store 8) (p : Nat) : List Nat :=
  (List.range 32).filter (fun c => (cfgClUnits b p).testBit (c / 4) && !(cfgDisabled b).testBit c)

/-- The physical core of each %core (R373, R383). -/
def cfgCores (b : Store 8) (p : Nat) : List Nat := (cfgClusters b p).flatMap (fun c => (List.range 8).map (8 * c + ·))

/-- What a body gives a partition. -/
def partCfg (b : Store 8) (p : Nat) : PartCfg :=
  { sysCores := BitVec.ofNat 16 (cfgSysCores b p), clUnits := BitVec.ofNat 8 (cfgClUnits b p),
    chGroups := BitVec.ofNat 8 (cfgChGroups b p), tierBase := cfgTierBase b p, tierSize := cfgTierSize b p,
    netPort := BitVec.ofNat 8 (cfgField b (entryAt p + 4) 1), nSpace := BitVec.ofNat 8 (cfgField b (entryAt p + 5) 1),
    encode := BitVec.ofNat 8 (cfgField b (entryAt p + 6) 1), heads := BitVec.ofNat 8 (cfgField b (entryAt p + 7) 1),
    cores := cfgCores b p }

/-- Whether no two masks of a list share a bit. -/
def masksDisjoint : List Nat → Bool
  | [] => true
  | m :: ms => ms.all (fun n => m &&& n == 0) && masksDisjoint ms

/-- Whether no two ranges of a list share a byte. -/
def rangesDisjoint : List (Nat × Nat) → Bool
  | [] => true
  | r :: rs => rs.all (fun q => !overlaps r.1 r.2 q.1 q.2) && rangesDisjoint rs

/-- Whether numbers of a list that are not 0xFF differ. -/
def numbersDisjoint : List Nat → Bool
  | [] => true
  | n :: ns => (n == 0xFF || !ns.contains n) && numbersDisjoint ns

/-- Whether n bytes from an offset of a body are zero. -/
def cfgZero (b : Store 8) (off n : Nat) : Bool := (Store.getRange b off n).all (· == 0)

/-- 2^30, the granule of the pool and of a second-tier range. -/
def gib : Nat := 2 ^ 30

/-- Whether a valid partition's entry is in range (R372, R373). -/
def entryOk (b : Store 8) (p : Nat) : Bool :=
  let at_ := entryAt p
  let f (o n : Nat) : Nat := cfgField b (at_ + o) n
  let port (v : Nat) : Bool := v ≤ 7 || v == 0xFF
  cfgSysCores b p != 0 && cfgClusters b p != [] && cfgChGroups b p != 0 && port (f 4 1) && port (f 5 1) &&
  f 8 1 ≤ 16 && 1 ≤ f 9 1 && f 9 1 ≤ 15 &&
  cfgTierBase b p % gib == 0 && cfgTierSize b p % gib == 0 && (cfgTierSize b p == 0 || 0x40000000000 ≤ cfgTierBase b p)

/-- Whether a retired page lies in some partition's memory or in the pool. -/
def retiredOk (b : Store 8) (i : Nat) : Bool :=
  let pa := cfgField b (0x1680 + 8 * i) 8
  (cfgPoolBase b ≤ pa && pa + 4096 ≤ cfgPoolBase b + cfgPoolSize b) || (cfgParts b).any (fun p => (partCfg b p).holds pa 4096)

/-- Whether a configuration body is valid (R372, R373; DEDUCED, log 56). -/
def cfgOk (b : Store 8) (length : Nat) : Bool :=
  let ps := cfgParts b
  let col (o n : Nat) : List Nat := ps.map (fun p => cfgField b (entryAt p + o) n)
  let pool := (cfgPoolBase b, cfgPoolSize b)
  let tiers := ps.map (fun p => (cfgTierBase b p, cfgTierSize b p))
  cfgRetired b ≤ 7000 && length == 0x1680 + 8 * cfgRetired b &&
  bitsOf (cfgField b 0 4) 22 10 == 0 && cfgZero b 0x60 32 && cfgZero b 0x260 32 &&
  (List.range 16).all (fun p => bitsOf (cfgField b 8 4) (2 * p) 2 != 3) &&
  (List.range 8).all (fun p => cfgZero b (entryAt p + 0x20) 96 && bitsOf (cfgField b (entryAt p + 0xC) 4) 1 31 == 0) &&
  ps.all (entryOk b) &&
  masksDisjoint (col 0 2) && masksDisjoint (col 2 1) && masksDisjoint (col 3 1) && masksDisjoint (col 6 1) &&
  masksDisjoint (col 7 1) && numbersDisjoint (col 4 1) && numbersDisjoint (col 5 1) &&
  (col 8 1).foldl (· + ·) 0 ≤ 16 && rangesDisjoint (pool :: tiers) &&
  cfgPoolBase b % gib == 0 && cfgPoolSize b % gib == 0 &&
  (List.range 8).all (fun u => cfgExport b u == 0 ||
    (cfgExport b u % gib == 0 && cfgPoolBase b ≤ cfgExport b u && cfgExport b u + gib ≤ cfgPoolBase b + cfgPoolSize b)) &&
  (List.range (cfgRetired b)).all (retiredOk b)

/-! ## Registers at boot -/

/-- A launch queue at boot (R303, R325, R356). -/
def Queue.reset : Queue :=
  { qbase := 0, qlog := 0, en := false, prio := 0, err := false, tail := 0, head := 0, estat := 0, retired := 0,
    leaseMax := 0x100, rootMode := 0, rootAsid := 0, rootPpn := 0, cbase := 0, csize := 0, need := 0, nteam := 0,
    ngrid := 0, rstat := 0, cmd := 0, areaBase := 0, areaSize := 0, restore := [], area := [], wait := .none }

/-- A fault or error ring at boot (R333, R377). -/
def Ring.reset : Ring := ⟨0, 0, false, 0, 0, []⟩

/-- A guestbook ring at boot (R340). -/
def GbRing.reset : GbRing := ⟨0, 0, false, false, 0, 0, 0, []⟩

/-- A partition at boot; `os` says whether its kind 5 record was accepted (R367 step 6; DESIGN CHOICE, logs 2 and 61). -/
def Part.start (cfg : PartCfg) (os idFail : Bool) : Part :=
  { cfg := cfg, noos := !os, idFail := idFail, running := os, halted := false, quoteBusy := false, quoteAddr := 0, quoteAt := 0,
    dw := 0, tw := 0, placed := 0, lastQueue := 63, queues := (List.range 64).map (fun q => (q, Queue.reset)),
    rings := (List.range 16).map (fun r => (r, GbRing.reset)), fault := Ring.reset, error := Ring.reset, cedrop := 0,
    fclr := false, inval := ⟨0, 0, 0, 0, true, none⟩,
    mig := (List.range 8).map (fun m => (m, ⟨0, 0, 0, false, false, 0, none⟩)),
    inspect := ⟨0, 0, 0, true, [], none⟩, media := [], kids := 0, msix := [], mcheck := 0 }

/-! ## POWER_ON_BOOT (R367) -/

/-- The accepted record as the boot keeps it. -/
def Rec.accepted (r : Rec) (flash : Store 8) : Accepted :=
  ⟨r.kind, r.part, r.addr, BitVec.ofNat 32 r.version,
    sha256 (r.signed flash ++ Store.getRange flash (r.addr + 64 + r.length) signBytes)⟩

/-- The Holain root key (KEYID 0). -/
def rootKeyBytes : List Byte := toBytes 32 Config.rootKey.toNat

/-- The device public key of a seed (R368). -/
def deviceKeyBytes (seed : BitVec 256) : List Byte := toBytes 32 (Config.deviceKey seed).toNat

/-- The valid records of a kind from 1 to 4 (R365): signed with KEYID 0; a configuration with a valid body. -/
def validKind (flash : Store 8) (kind : Nat) : List Rec :=
  (flashRecords flash).filter (fun r => r.shaped && r.kind == kind && r.keyId == 0 && r.verifies flash rootKeyBytes &&
    (kind != 2 || cfgOk (Store.setRange [] 0 (r.body flash)) r.length))

/-- The public key of a KEYID (R364, R372). -/
def keyOfId (body : Store 8) (k : Nat) : List Byte :=
  if k = 0 then rootKeyBytes else Store.getRange body (0x80 + 32 * (k - 1)) 32

/-- The valid kind 5 records of a partition (R365): any key that the configuration lists for it. -/
def validOs (flash body : Store 8) (p : Nat) : List Rec :=
  (flashRecords flash).filter (fun r => r.shaped && r.kind == 5 && r.part == p &&
    (cfgField body (entryAt p + 0xA) 2).testBit r.keyId && r.verifies flash (keyOfId body r.keyId))

/-- IDFAIL (R368): the reconstructed key is not the certificate's; where the certificate holds it is not given (log
28: its body begins with it). -/
def identityFails (flash : Store 8) (cert : Option Rec) (seed : BitVec 256) : Bool :=
  match cert with
  | some r => deviceKeyBytes seed != (r.body flash).take 32
  | none => true

/-- The part of the boot that follows the acceptance of the firmware, configuration and helper records (R367 steps 3
to 6). -/
def State.bootWith (s : State) (fw cf hp : Rec) : State :=
  let flash := s.boot.flash
  let body : Store 8 := Store.setRange [] 0 (cf.body flash)
  let seed := Config.identitySeed (hp.body flash)
  let cert := best (validKind flash 4)
  let idFail := identityFails flash cert seed
  let ps := cfgParts body
  let os (p : Nat) : Option Rec := best (validOs flash body p)
  { s with
    boot := { s.boot with
      phase := .running, devnum := BitVec.ofNat 22 (cfgField body 0 4),
      accepted := ([some fw, some cf, some hp, cert] ++ ps.map os).filterMap (fun r => r.map (·.accepted flash)),
      body := body, poolBase := cfgPoolBase body, poolSize := cfgPoolSize body,
      disabled := BitVec.ofNat 32 (cfgDisabled body), cxlRole := BitVec.ofNat 32 (cfgField body 8 4), seed := seed },
    parts := ps.map (fun p => (p, Part.start (partCfg body p) (os p).isSome idFail)),
    cores := (List.range 256).map (fun c => (c, Core.reset)),
    stewards := (List.range 32).map (fun c => (c, [])) }

/-- POWER_ON_BOOT (R367): the night clerk boots a module that is off, or stays in recovery. -/
def State.powerOn (s : State) : State :=
  match s.boot.phase with
  | .off =>
    let flash := s.boot.flash
    match best (validKind flash 1), best (validKind flash 2), best (validKind flash 3) with
    | some fw, some cf, some hp => s.bootWith fw cf hp
    | _, _, _ => { s with boot := { s.boot with phase := .recovery } }
  | .recovery => s
  | .running => s

/-- POWER_ON_BOOT (R367). -/
def execPowerOnBoot (s : State) : Out := .next s.powerOn

/-- A module that has lost everything but its flash: the state before a boot (R367, R376, R381). %time, which never
decreases (R382), goes on. -/
def State.powerOff (s : State) : State :=
  { State.reset with boot := { Boot.reset with flash := s.boot.flash }, time := s.time, steps := s.steps, sched := s.sched }

/-- PCIE_CONFIG_REQUEST (R367): answered with retry status until the partitions' systems start; in recovery,
partition 0's function answers. -/
def execPcieConfigRequest (part : Nat) (s : State) : Out :=
  .next { s with hostRetry := match s.boot.phase with
    | .off => true
    | .recovery => part != 0
    | .running => (Tab.get? s.parts part).isNone }

/-! ## Quotes (R369) -/

/-- VERSION and hash of the accepted record of a kind for a partition; zeros when there is none. -/
def measured (b : Boot) (kind part : Nat) : List Byte :=
  match b.accepted.find? (fun a => a.kind == kind && (kind != 5 || a.part == part)) with
  | some a => toBytes 4 a.version.toNat ++ a.hash
  | none => zeros 36

/-- A quote's bytes before its signature; DEVNUM and PART share their field as they do the register's word (DEDUCED, log 39). -/
def quoteBody (s : State) (p : Nat) (P : Part) (nonce : List Byte) : List Byte :=
  toBytes 2 0x48F2 ++ toBytes 2 (bit P.idFail) ++ toBytes 4 (s.boot.devnum.toNat + p * 2 ^ 22) ++ toBytes 8 s.time ++ nonce ++
  [1, 2, 3, 4, 5].flatMap (fun k => measured s.boot k p) ++ deviceKeyBytes s.boot.seed

/-- QUOTE_DONE (R369): the quote replaces the nonce at QADDR as it stood when GO was written, then BUSY clears. -/
def execQuoteDone (part : Nat) (s : State) : Out :=
  .next (match Tab.get? s.parts part with
    | none => s
    | some P =>
      if P.quoteBusy = false then s else
      let m := quoteBody s part P (s.bytes P.quoteAt 32)
      (s.deviceWrite P.quoteAt (m ++ toBytes 17088 (Config.deviceSign s.boot.seed m).toNat)).modPart part fun P => { P with quoteBusy := false })

/-! ## Host accesses (R370, R371) -/

/-- The physical address behind an offset of BAR2: the partition's memory ranges one after another (log 29). -/
def apertureAddr : List (Nat × Nat) → Nat → Option Nat
  | [], _ => none
  | (base, n) :: rs, off => if off < n then some (base + off) else apertureAddr rs (off - n)

/-- Where the bytes of a host access lie, those outside the aperture left out. -/
def hostPlaces (s : State) (P : Part) (off n : Nat) : List (Option Place) :=
  (List.range n).map (fun i => (apertureAddr P.cfg.ranges (off + i)).map (fun pa =>
    if Store.get s.enc (pa / 4096) = 2 then .enc pa else .phys pa))

/-- The whole words of a write to the control window (log 29: a part of a word writes nothing). -/
def windowWords (off : Nat) (data : List Byte) : List (Nat × Word) :=
  ((List.range (off + data.length)).filter (fun a => a % 4 == 0 && off ≤ a && a + 4 ≤ off + data.length)).map
    (fun a => (a, BitVec.ofNat 32 (leValue ((data.drop (a - off)).take 4))))

/-- Whether a host reaches the device by a port (R370): the PCIe port, or a CXL port that the configuration makes an
upstream one. -/
def State.portUp (s : State) (port : Nat) : Bool :=
  port == 0 || (port ≤ 4 && bitsOf s.boot.cxlRole.toNat (2 * (port - 1)) 2 == 1)

/-- The path of a posted write (R371): its PCIe function, or its CXL port. -/
def Posted.path (w : Posted) : Nat × Nat := if w.port = 0 then (0, w.part) else (w.port, 0)

/-- A posted write performed: on the control window (BAR0, or CXL.io), or on device memory (BAR2, or CXL.mem). -/
def State.hostApply (s : State) (w : Posted) : State :=
  match Tab.get? s.parts w.part with
  | none => s
  | some P =>
    if w.bar = 0 then (windowWords w.off w.data).foldl (fun s e => s.windowWrite w.part e.1 e.2) s
    else s.performBytes 0 (((hostPlaces s P w.off w.data.length).zip w.data).filterMap (fun e => e.1.map (·, e.2)))

/-- The posted writes that a condition on their places picks performed, oldest first. -/
def State.postWhere (s : State) (pick : Nat → Posted → Bool) : State :=
  let all := s.posted.zipIdx
  let s : State := { s with posted := (all.filter (fun e => !pick e.2 e.1)).map (·.1) }
  (all.filter (fun e => pick e.2 e.1)).foldl (fun s e => s.hostApply e.1) s

/-- A posted write performed, with the earlier ones of its path first (R371). -/
def State.postOne (s : State) (n : Nat) : State :=
  match s.posted[n]? with
  | some w => s.postWhere (fun i x => i ≤ n && x.path == w.path)
  | none => s

/-! ## The system cores' stores (R103, R304) -/

/-- The stores of the system cores that a condition on their places picks performed, oldest first. -/
def State.performWhere (s : State) (pick : Nat → SystemStore → Bool) : State :=
  let all := s.systems.zipIdx
  let s : State := { s with systems := (all.filter (fun e => !pick e.2 e.1)).map (·.1) }
  (all.filter (fun e => pick e.2 e.1)).foldl (fun s e => s.writePhys e.1.pa e.1.data) s

/-- One store of a system core performed, with the core's earlier stores to bytes of it first (RVWMO). -/
def State.performOne (s : State) (n : Nat) : State :=
  match s.systems[n]? with
  | some w => s.performWhere (fun i x =>
      i ≤ n && x.core == w.core && overlaps x.pa x.data.length w.pa w.data.length || i == n)
  | none => s

/-- What a system core of a running partition does in memory: a store to its partition's memory or the pool waits to be
performed, and a FENCE has the core's stores performed (R304). -/
def State.systemAct (s : State) (core : Nat) : SystemAct → State
  | .store pa data =>
    if s.boot.phase = .running ∧ s.parts.any (fun P => P.2.cfg.sysCores.getLsbD core && s.ownRange P.1 pa data.length) = true then
      { s with systems := s.systems ++ [⟨core, pa, data⟩] }
    else s
  | .fence => s.performWhere (fun _ x => x.core == core)

/-- Bytes that an encode engine writes to its partition's memory (R374, R375): the spec gives engines and heads no register and
an engine's output no place, so once software has written to their registers an engine may write any bytes of the
partition's memory (DESIGN CHOICE, log 49). -/
def State.encodeAt (s : State) (p pa len : Nat) : State :=
  match Tab.get? s.parts p with
  | none => s
  | some P =>
    if P.cfg.encode ≠ 0 ∧ P.media ≠ [] ∧ P.running = true ∧ P.cfg.holds pa len = true then
      s.writePhys pa ((List.range len).map (fun i => Config.mediaByte (pa + i) P.media s.steps))
    else s

/-- HOST_WRITE (R371): a posted write to the control window, or to device memory, which waits to be performed; in
recovery, a write to the flash. -/
def execHostWrite (path : HostPath) (bar off : Nat) (data : List (BitVec 8)) (s : State) : Out :=
  .next (match s.boot.phase with
    | .off => s
    | .recovery =>
      if path.port = 0 ∧ path.part = 0 then { s with boot := { s.boot with flash := Store.setRange s.boot.flash off data } } else s
    | .running =>
      if s.portUp path.port && (Tab.get? s.parts path.part).isSome then
        { s with posted := s.posted ++ [⟨path.port, path.part, bar, off, data⟩] }
      else s)

/-- A byte as the host reads it. -/
def State.hostByte (s : State) : Option Place → Byte
  | some (.phys a) => s.byte a
  | some (.enc a) => Config.encodedByte a s.steps
  | _ => 0

/-- HOST_READ (R371): the posted writes of its path are performed before it; its bytes are in hostReply. -/
def execHostRead (path : HostPath) (bar off len : Nat) (s : State) : Out :=
  .next (
    let s := s.postWhere (fun _ x => x.path == (if path.port = 0 then (0, path.part) else (path.port, 0)))
    match s.boot.phase, Tab.get? s.parts path.part with
    | .running, some P =>
      { s with hostReply :=
          if s.portUp path.port = false then []
          else if bar = 0 then
            (List.range len).map (fun i =>
              BitVec.ofNat 8 ((s.windowRead path.part (off + i)).toNat / 2 ^ (8 * ((off + i) % 4))))
          else (hostPlaces s P off len).map s.hostByte }
    | _, _ => { s with hostReply := [] })

end Sys2Proof.Machine
end

