-- ==== Sys2Proof/Machine/Fleet.lean ====
section
/-!
DEFINITION. Errors, links, flows to and from other devices, Stewards, the time bound, the inspection window, and
the remaining events (26_partitions_and_fleet.md R376 to R386; 01_execution_model.md R35; 22_queues_and_dispatch.md
R311).
-/
namespace Sys2Proof.Machine

/-! ## Whose a unit or an address is (R377) -/

/-- The partition that has a compute core. -/
def State.coreOwner (s : State) (core : Nat) : Option Nat :=
  (s.parts.find? (fun (e : Nat × Part) => e.2.cfg.cores.contains core)).map (·.1)

/-- The partition whose memory holds an address. -/
def State.memOwner (s : State) (pa : Nat) : Option Nat :=
  (s.parts.find? (fun (e : Nat × Part) => e.2.cfg.holds pa 1)).map (·.1)

/-- The partition that owns the unit of a source number (R374, R383); none for a shared unit. -/
def State.unitOwner (s : State) (source : Nat) : Option Nat :=
  let has (f : Nat → Part → Bool) : Option Nat := (s.parts.find? (fun (e : Nat × Part) => f e.1 e.2)).map (·.1)
  if source < 0x100 then s.coreOwner source
  else if 0x140 ≤ source ∧ source < 0x150 then has (fun _ P => P.cfg.sysCores.getLsbD (source - 0x140))
  else if 0x190 ≤ source ∧ source < 0x198 then has (fun _ P => P.cfg.encode.getLsbD (source - 0x190))
  else if 0x198 ≤ source ∧ source < 0x1A0 then has (fun _ P => P.cfg.heads.getLsbD (source - 0x198))
  else if 0x1A0 ≤ source ∧ source < 0x1A8 then has (fun _ P => P.cfg.chGroups.getLsbD (source - 0x1A0))
  else none

/-- The unit that holds an address: its channel group, or the second tier (R383), with its UNIT code (R377). -/
def memUnit (pa : Nat) : Nat × Nat :=
  if pa < 8 * (32 * gigabyte) then (0x1A0 + pa / (32 * gigabyte), 6) else (0x1B0, 7)

/-- An error record of the device, with no group named (R377). -/
def State.deviceRecord (s : State) (addr source unit action cls : Nat) : BitVec 256 :=
  errorRecord s.time addr 0 0 0 s.boot.devnum.toNat source 0 unit action cls

/-- A record of a memory error: to the partition that owns the memory, or to all when it is the pool's. -/
def State.memoryRecord (s : State) (pa action cls : Nat) : State :=
  let (source, unit) := memUnit pa
  s.pushError (if s.inPool pa 1 then none else s.memOwner pa) (s.deviceRecord pa source unit action cls)

/-! ## Errors (R376) -/

/-- CORRECTED_ERROR (R376): the data are corrected in place; only the record tells. One of memory goes to the partition that
owns the memory, or to all when it is the pool's (R377). -/
def execCorrectedError (unit source addr : Nat) (s : State) : Out :=
  let owner := if unit = 6 ∨ unit = 7 then (if s.inPool addr 1 then none else s.memOwner addr) else s.unitOwner source
  .next (s.pushError owner (s.deviceRecord addr source unit 1 0))

/-- An uncorrectable error in a poison-tracked page (R346, R376): the sector is poisoned, with its unit's other sectors
when the page is compressed. -/
def State.poisonPage (s : State) (pa : Nat) : State :=
  let sectors := if Store.get s.enc (pa / 4096) = 2 then (List.range 8).map (fun i => pa / 256 * 256 + 32 * i) else [pa]
  (sectors.foldl (fun s a => s.setPoison a true) s).memoryRecord pa 2 1

/-- The grids with a team on a core. -/
def State.gridsOn (s : State) (core : Nat) : List Nat := ((s.teamsOn core).map (·.grid)).eraseDups

/-- UNCONTAINED_CORE_ERROR (R376): every grid with a team on the core is aborted, and the core admits nothing until
the partition boots again (DEDUCED, log 53). -/
def execUncontainedCoreError (core unit : Nat) (s : State) : Out :=
  let s := (s.gridsOn core).foldl State.abortGrid s
  let s := s.modCore core fun k => { k with dead := true }
  .next (s.pushError (s.coreOwner core) (s.deviceRecord 0 core unit 3 2))

/-- A partition stopped (R376): its grids aborted, its system cores told. -/
def State.haltPart (s : State) (p : Nat) : State :=
  let s := (((s.grids.filter (fun g => g.2.part == p)).map (·.1))).foldl State.abortGrid s
  s.modPart p fun P => { P with halted := true, mcheck := P.mcheck + 1 }

/-- An uncorrectable error that is not contained (R376): the owner stops; every partition does when the memory is the
pool's. -/
def State.haltOwners (s : State) (pa : Nat) : State :=
  let ps := if s.inPool pa 1 then s.parts.map (·.1) else (s.memOwner pa).toList
  (ps.foldl State.haltPart s).memoryRecord pa 4 2

/-- An uncorrectable memory error (R346, R376): contained in a page with P = 1, uncontained in one with P = 0 and in the
pool; where no leaf has reached the frame, as the event that tells of it says (DESIGN CHOICE, log 65). -/
def State.memoryError (s : State) (pa : Nat) (contained : Bool) : State :=
  let p := Store.get s.prot (pa / 4096)
  if s.inPool pa 1 || p == 1 || (p == 0 && !contained) then s.haltOwners pa else s.poisonPage pa

/-- CONTAINED_ERROR (R346, R376). -/
def execContainedError (pa : Nat) (s : State) : Out := .next (s.memoryError pa true)

/-- UNCONTAINED_MEMORY_ERROR (R376). -/
def execUncontainedMemoryError (pa : Nat) (s : State) : Out := .next (s.memoryError pa false)

/-- LOCKSTEP_MISMATCH (R376): the module resets and boots again. -/
def execLockstepMismatch (s : State) : Out := .next s.powerOff.powerOn

/-- STANDBY_ENTRY (R381): all device state and every unanswered remote request is lost; the wake is a full boot. -/
def execStandbyEntry (s : State) : Out := .next s.powerOff

/-! ## Links (R379) -/

/-- The state with a function applied to a link. -/
def State.modLink (s : State) (l : Nat) (f : Link → Link) : State := { s with links := Tab.modify s.links l f }

/-- A record of a link, which every partition sees. -/
def State.linkRecord (s : State) (l action : Nat) : State := s.pushError none (s.deviceRecord 0 (0x160 + l) 8 action 0)

/-- FLIT_RECEIVE (R379): a good flit is acknowledged; the one expected moves the link on. A link that was training is
up again with its first good flit, at 8 lanes or at 4 when lanes have failed (DESIGN CHOICE, log 31). -/
def execFlitReceive (link : Nat) (flit : FlitIn) (s : State) : Out :=
  .next (if flit.good = false then s else
    s.modLink link fun k =>
      if k.state = 2 then k else
      let k : Link := if k.state = 1 then { k with state := 0, lanes := if Config.lanesFailed link s.steps then 4 else 8 } else k
      let k : Link := match flit.ack with
        | some a => { k with lastAck := a, retries := 0 }
        | none => k
      if flit.seq = k.nextRecv then { k with nextRecv := k.nextRecv + 1 } else k)

/-- FLIT_ACK_TIMEOUT (R379): the flit is sent again; after 16 failed retries the link trains again and discards what
is not acknowledged. -/
def execFlitAckTimeout (link : Nat) (s : State) : Out :=
  .next (match Tab.get? s.links link with
    | none => s
    | some k =>
      if k.state ≠ 0 then s
      else if k.retries < 16 then (s.modLink link fun k => { k with retries := k.retries + 1 }).linkRecord link 1
      else (s.modLink link fun k => { k with retries := 0, state := 1 }).linkRecord link 5)

/-! ## Flows that leave the device (R378, R380, R381) -/

/-- A reply put where it is waited for. -/
def RemoteReply.fill (r : RemoteReply) (source dest : Nat) (seq : BitVec 32) (a : Bool × ReplyBytes) : RemoteReply :=
  if r.flowSource = source ∧ r.flowDest = dest ∧ r.seq = seq ∧ r.answer = none then { r with answer := some a } else r

/-- A reply delivered to the lanes, engine operations and units that wait for it. -/
def State.deliver (s : State) (source dest : Nat) (seq : BitVec 32) (a : Bool × ReplyBytes) : State :=
  let fill (rs : List RemoteReply) : List RemoteReply := rs.map (fun r => r.fill source dest seq a)
  let s : State := { s with teams := s.teams.map (fun (e : Nat × Team) => (e.1, { e.2 with
    groups := e.2.groups.map (fun (g : Nat × Group) => (g.1, { g.2 with remote := fill g.2.remote })) })) }
  let s : State := { s with ops := s.ops.map (fun (e : Nat × EngineOp) => (e.1, { e.2 with remote := fill e.2.remote })) }
  { s with remotes := fill s.remotes }

/-- A flow's request answered: it is no longer unanswered. -/
def FlowOut.answered (f : FlowOut) (source dest : Nat) (seq : BitVec 32) : FlowOut :=
  if f.source = source ∧ f.dest = dest then { f with unanswered := f.unanswered.filter (fun u => u.seq != seq) } else f

/-- The unanswered request of a flow with a number. -/
def State.pendingReq (s : State) (source dest : Nat) (seq : BitVec 32) : Option FlowReq :=
  match s.flowsOut.find? (fun f => f.source == source && f.dest == dest) with
  | some f => f.unanswered.find? (fun u => u.seq == seq)
  | none => none

/-- A request over: with its reply, or failed. -/
def State.closeReq (s : State) (source dest : Nat) (seq : BitVec 32) (a : Bool × ReplyBytes) : State :=
  let s := s.deliver source dest seq a
  { s with flowsOut := s.flowsOut.map (fun f => f.answered source dest seq) }

/-- The bytes that a request's reply carries (R380); a write's is one byte that confirms it (log 41). -/
def replyLen : RemoteReq → Nat
  | .read _ len => len
  | .write _ _ => 1
  | .atomic _ wide _ _ _ _ => if wide then 8 else 4

/-- REMOTE_REPLY_RECEIVE (R380, R381): the requester has the reply; one with fewer bytes than the request asked for
says that the export unit is unused (R378); the marks of poisoned sectors come with the data (R346). -/
def execRemoteReplyReceive (source dev : Nat) (seq : BitVec 32) (data : ReplyBytes) (s : State) : Out :=
  .next (match s.pendingReq source dev seq with
    | none => s
    | some u => s.closeReq source dev seq (decide (data.bytes.length < replyLen u.req), data))

/-- REQUEST_REPLY_TIMEOUT (R380): the request is sent again, and fails when it has been sent 8 times. -/
def execRequestReplyTimeout (source dev : Nat) (seq : BitVec 32) (s : State) : Out :=
  .next (match s.pendingReq source dev seq with
    | none => s
    | some u =>
      if 8 ≤ u.tries then s.closeReq source dev seq (true, ⟨[], []⟩)
      else { s with flowsOut := s.flowsOut.map (fun f =>
        if f.source = source ∧ f.dest = dev then
          { f with unanswered := f.unanswered.map (fun u => if u.seq = seq then { u with tries := u.tries + 1 } else u) }
        else f) })

/-- Every request that leaves by a link failed (R379). -/
def State.failLink (s : State) (l : Nat) : State :=
  (s.flowsOut.filter (fun f => s.route f.dest == some l)).foldl (fun s f =>
    f.unanswered.foldl (fun s u => s.closeReq f.source f.dest u.seq (true, ⟨[], []⟩)) s) s

/-- LINK_TRAIN_TIMEOUT (R379): the link is down, and the requests routed through it fail. -/
def execLinkTrainTimeout (link : Nat) (s : State) : Out :=
  .next (match Tab.get? s.links link with
    | none => s
    | some k =>
      if k.state ≠ 1 then s
      else ((s.modLink link fun k => { k with state := 2 }).failLink link).linkRecord link 6)

/-! ## Requests from other devices (R378, R380) -/

/-- The physical address of an offset of the export window (R378): none in an unused unit. -/
def State.exportAddr (s : State) (off : Nat) : Option Nat :=
  let base := cfgExport s.boot.body (off / gib % 8)
  if base = 0 then none else some (base + off % gib)

/-- The places of n bytes of the export window. -/
def State.exportPlaces (s : State) (off n : Nat) : Option (List Place) :=
  (List.range n).mapM (fun i => (s.exportAddr (off + i)).map (fun pa =>
    if Store.get s.enc (pa / 4096) = 2 then Place.enc pa else Place.phys pa))

/-- Whether a place lies in a poisoned sector (R346). -/
def State.lostPlace (s : State) : Option Place → Bool
  | some (.phys a) => s.poisoned a
  | some (.enc a) => s.poisoned a
  | _ => false

/-- The replies that a Steward keeps for a source. -/
def State.keptFor (s : State) (cluster source : Nat) : List (BitVec 32 × BitVec 64) :=
  match Tab.get? s.stewards cluster with
  | some ks => match ks.find? (fun k => k.source == source) with
    | some k => k.replies
    | none => []
  | none => []

/-- One atomic applied by the Steward of an address for a source, once (R200, R380): a replayed one is answered with
the reply kept and applies nothing (DEDUCED, log 40). -/
def State.stewardApply (s : State) (source : Nat) (seq : BitVec 32) (pa : Nat) (wide : Bool) (fn : BitVec 3) (nat : Bool)
    (val new : BitVec 64) : State × BitVec 64 :=
  let cluster := s.stewardOf pa
  match (s.keptFor cluster source).find? (fun r => r.1 == seq) with
  | some r => (s, r.2)
  | none =>
    let n := if wide then 8 else 4
    let old := s.physValue pa n
    let v := atomNew n fn nat old (val.toNat % 2 ^ (8 * n)) (new.toNat % 2 ^ (8 * n))
    let s := if Store.get s.enc (pa / 4096) = 2 then s.spoilUnit pa else s.writePhys pa (toBytes n v)
    (s.keep cluster source seq (BitVec.ofNat 64 old), BitVec.ofNat 64 old)

/-- STEWARD_ATOMIC (R200): by the Steward of the address's cluster. -/
def execStewardAtomic (cluster source : Nat) (seq : BitVec 32) (pa : Nat) (wide : Bool) (fn : BitVec 3) (nat : Bool)
    (val new : BitVec 64) (s : State) : Out :=
  .next (if cluster = s.stewardOf pa ∧ remotePa pa = false ∧ pa % (if wide then 8 else 4) = 0 then
    (s.stewardApply source seq pa wide fn nat val new).1 else s)

/-- A reply of plain bytes. -/
def plainReply (bs : List Byte) : ReplyBytes := ⟨bs, []⟩

/-- A request of another device applied: the state and what the reply brings (no bytes for an unused unit). Poison goes
with the data (R346), and an atomic on a poisoned sector is not applied (R191; DEDUCED, log 41). -/
def State.applyRequest (s : State) (dev source : Nat) (seq : BitVec 32) : RemoteReq → State × ReplyBytes
  | .read off len =>
    match s.exportPlaces off len with
    | some ps => (s, ⟨ps.map (fun p => s.hostByte (some p)), (List.range len).filter (fun i => s.lostPlace ps[i]?)⟩)
    | none => (s, plainReply [])
  | .write off data =>
    match s.exportPlaces off data.length with
    | some ps =>
      -- one store instruction's or one engine operation's bytes (R75; DEDUCED, log 41)
      (if source < 0x104 then s.performEntry 0 ⟨ps.zip data⟩ else s.performBytes 0 (ps.zip data), plainReply [0])
    | none => (s, plainReply [])
  | .atomic off wide fn nat val new =>
    let n := if wide then 8 else 4
    match s.exportAddr off with
    | some pa =>
      if s.poisoned pa then (s, ⟨zeros n, [0]⟩) else
      let (s, old) := s.stewardApply (dev * 4096 + source) seq pa wide fn nat val new
      (s, plainReply (toBytes n old.toNat))
    | none => (s, plainReply [])

/-- A flow into this device. -/
def State.flowIn (s : State) (dev source : Nat) : FlowIn :=
  (s.flowsIn.find? (fun f => f.dev == dev && f.source == source)).getD ⟨dev, source, 0, []⟩

/-- REMOTE_REQUEST_RECEIVE (R380): only the next number of the flow is applied, and its reply kept; a higher one is
discarded, and an older one is answered with its kept reply. -/
def execRemoteRequestReceive (dev source : Nat) (seq : BitVec 32) (req : RemoteReq) (s : State) : Out :=
  .next (
    let f := s.flowIn dev source
    if seq ≠ f.expect ∨ s.boot.phase ≠ .running then s else
    let (s, reply) := s.applyRequest dev source seq req
    let f : FlowIn := { f with expect := f.expect + 1, kept := last256 (f.kept ++ [(seq, reply)]) }
    { s with flowsIn := s.flowsIn.filter (fun g => !(g.dev == dev && g.source == source)) ++ [f] })

/-! ## Time (R382) -/

/-- TIME_BOUND_LOST (R382). -/
def execTimeBoundLost (s : State) : Out :=
  .next (if s.timeBound then ({ s with timeBound := false } : State).pushError none (s.deviceRecord 0 0x1D1 13 0 0) else s)

/-- TIME_BOUND_REGAINED (R382). -/
def execTimeBoundRegained (s : State) : Out :=
  .next (if s.timeBound then s else ({ s with timeBound := true } : State).pushError none (s.deviceRecord 0 0x1D1 13 7 0))

/-! ## The inspection window (R385, R386) -/

/-- A map of blocks as a mask. -/
def blockMask (bs : List (Nat × Nat)) : Nat :=
  bs.foldl (fun m b => (List.range b.2).foldl (fun m i => m ||| 2 ^ (b.1 + i)) m) 0

/-- The blocks of a quarter that some groups hold. -/
def quarterBlocks (ts : List Team) (q : Nat) (f : Group → List (Nat × Nat)) : List (Nat × Nat) :=
  ts.flatMap (fun T => (T.groups.filter (fun G => G.2.quarter == q)).flatMap (fun G => f G.2))

/-- A range lock's 16 bytes (R386). -/
def lockBytes (k : Option RangeLock) : List Byte :=
  match k with
  | none => zeros 16
  | some k => toBytes 8 k.base ++ toBytes 8 (k.len % 2 ^ 40 + bit k.dst * 2 ^ 40 + 2 ^ 41 + k.room * 2 ^ 42)

/-- A resident team's 16 bytes (R386). -/
def State.residentBytes (s : State) (T : Option Team) : List Byte :=
  match T with
  | none => zeros 16
  | some T =>
    let (grid, queue) := match Tab.get? s.grids T.grid with
      | some g => (packetGrid g.packet, g.queue)
      | none => (0, 0)
    toBytes 4 grid ++ toBytes 4 T.index ++ toBytes 4 (queue + (T.ngroup - 1) * 2 ^ 8 + 2 ^ 31) ++ zeros 4

/-- A waystation cache entry's 16 bytes (R386). -/
def wayBytes (w : Option WayEntry) : List Byte :=
  match w with
  | none => zeros 16
  | some w => toBytes 8 w.addr ++ toBytes 8 (w.gen.toNat + 2 ^ 63)

/-- A core's page (R386; DESIGN CHOICE, log 50). -/
def State.corePage (s : State) (core : Nat) : List Byte :=
  match Tab.get? s.cores core with
  | none => []
  | some k =>
    let ts := s.teamsOn core
    (List.range 4).flatMap (fun q => toBytes 32 (blockMask (quarterBlocks ts q (·.regBlocks)))) ++
    (List.range 4).flatMap (fun q => toBytes 8 (blockMask (quarterBlocks ts q (·.zBlocks)))) ++
    toBytes 16 (blockMask (ts.map (·.block))) ++ toBytes 8 (k.shapes.foldl (fun m e => m + 2 ^ e.1) 0) ++
    toBytes 8 k.key.block ++ zeros 64 ++
    (List.range 32).flatMap (fun i => lockBytes (Tab.get? k.locks i)) ++
    (List.range 64).flatMap (fun i => s.residentBytes ts[i]?) ++
    (List.range 64).flatMap (fun i => wayBytes k.way[i]?)

/-- What waits on a token (R335). -/
def State.waiters (s : State) (t : Nat) : Nat :=
  s.teams.foldl (fun n (e : Nat × Team) => e.2.groups.foldl (fun n G => n + (G.2.lanes.filter (fun L => L.2.waitsOn t)).length) n) 0 +
  (s.ops.filter (fun (o : Nat × EngineOp) => o.2.token == some t)).length +
  s.cores.foldl (fun n (k : Nat × Core) => n + (k.2.raster.filter (fun x => x.token == some t)).length) 0 +
  (s.grids.filter (fun (g : Nat × Grid) => g.2.wait.on t)).length +
  s.parts.foldl (fun n (P : Nat × Part) => n + (P.2.queues.filter (fun Q => Q.2.wait.on t)).length) 0

/-- A room's job card and progress offset (R386): an operation whose data are known has consumed its source. -/
def roomContents (o : EngineOp) : List Nat :=
  [1, o.src, o.srcLen, o.dst, o.dstLen, o.bobj] ++ o.stages.map (·.toNat) ++ [if o.out.isSome then o.srcLen else 0]

/-- What R386 names for the page of a unit other than a core, in its order: a die's rooms and the occupancy of its
walk-ahead TLB; the sources and numbers that a Steward holds; a link's lane width, state, retries and last acknowledged
number; the keys and waiters of 16 tokens. -/
def State.pageContents (s : State) (unit index : Nat) : List Nat :=
  match unit with
  | 1 => match Tab.get? s.dies index with
    | some d => (List.range 16).flatMap (fun r => match (Tab.get? d.rooms r).bind (Tab.get? s.ops) with
        | some o => roomContents o
        | none => [0]) ++ [d.tlb.length]
    | none => []
  | 2 => ((Tab.get? s.stewards index).getD []).flatMap (fun k => k.source :: k.replies.map (·.1.toNat))
  | 3 => match Tab.get? s.links index with
    | some k => [k.lanes, k.state, k.retries, k.lastAck.toNat]
    | none => []
  | _ => (List.range 16).flatMap (fun i => match Tab.get? s.tokens (16 * index + i) with
    | some t => [1, t.part, t.asid.toNat, t.page, bit t.write, s.waiters (16 * index + i)]
    | none => [0])

/-- SNAPSHOT_DONE (R385): the page holds the state, at this moment, of the unit selected when GO was written. -/
def execSnapshotDone (part : Nat) (s : State) : Out :=
  .next (match Tab.get? s.parts part with
    | none => s
    | some P =>
      match P.inspect.job with
      | none => s
      | some (u, i) =>
        let page := if u = 0 then (match P.cfg.cores[i]? with
            | some c => s.corePage c
            | none => [])
          else (List.range 4096).map (Config.inspectByte u (s.pageContents u i))
        s.modPart part fun P => { P with inspect := { P.inspect with
          done := true, job := none, stamp := BitVec.ofNat 64 s.time, page := Store.setRange [] 0 page } })

/-! ## Droops and branches -/

/-- DROOP_EVENT (R311): counted toward the core's score for 2^16 cycles. -/
def execDroopEvent (core : Nat) (s : State) : Out :=
  .next (s.modCore core fun k => { k with droops := k.droops.filter (fun d => s.cycles < d + 2 ^ 16) ++ [s.cycles] })

/-- BRANCH_RESOLVE (R35, R294): the branch's outcome enters the predictor; its lanes have acted on it already. -/
def execBranchResolve (team group : Nat) (s : State) : Out := .next (s.modGroup team group Group.resolve)

end Sys2Proof.Machine
end

