-- ==== Sys2Proof/Machine/Ray.lean ====
section
/-!
DEFINITION. Box and triangle tests, the traversal stack and saved rays (12_geometry_instructions.md R244 to
R248; 05_facet_streams_and_rays.md R126, R127).
-/
namespace Sys2Proof.Machine

/-! ## Exact extended reals -/

/-- An extended real: n / d × 2^e with d positive, or an infinity. -/
inductive Ext where
  | low
  | high
  | quot (n : Int) (d : Nat) (e : Int)
  deriving DecidableEq, Repr

/-- The order of two extended reals. -/
def Ext.cmp : Ext → Ext → Ordering
  | .low, .low => .eq
  | .low, _ => .lt
  | _, .low => .gt
  | .high, .high => .eq
  | .high, _ => .gt
  | _, .high => .lt
  | .quot n1 d1 e1, .quot n2 d2 e2 => Dyadic.compare ⟨n1 * d2, e1⟩ ⟨n2 * d1, e2⟩

/-- The lesser and the greater of two extended reals. -/
def Ext.min (a b : Ext) : Ext := if a.cmp b == .gt then b else a
def Ext.max (a b : Ext) : Ext := if a.cmp b == .lt then b else a

/-- A float value as an extended real; a NaN has none. -/
def FVal.ext : FVal → Option Ext
  | .nan _ => none
  | .inf n => some (if n then .low else .high)
  | .fin n m e => some (.quot (if n then -(m : Int) else m) 1 e)

/-- An extended real rounded to .f32. -/
def Ext.round (mode : RMode) : Ext → Nat
  | .low => f32.signed true f32.inf
  | .high => f32.inf
  | .quot n d e => (roundQuot f32 mode n d e).1

/-- +∞. -/
def f32Inf : Word := BitVec.ofNat 32 f32.inf

/-! ## BOXT (R244, R245) -/

/-- (b − o) / d for a finite o and a finite d that is not zero; b may be infinite. -/
def slabEnd (b : Ext) (o d : Dyadic) : Ext :=
  match b with
  | .low => if d.m < 0 then .high else .low
  | .high => if d.m < 0 then .low else .high
  | .quot n _ e =>
    let x := (Dyadic.mk n e).add o.neg
    .quot (if d.m < 0 then -x.m else x.m) d.m.natAbs (x.e - d.e)

/-- The slab of one axis (R245), ends in increasing order; none when it is empty. -/
def slab (lo hi : Ext) (o d : FVal) : Option (Ext × Ext) :=
  match o, d with
  | .fin _ _ _, .fin _ m _ =>
    if m = 0 then
      match o.ext with
      | some x => if lo.cmp x != .gt && x.cmp hi != .gt then some (.low, .high) else none
      | none => none
    else
      let a := slabEnd lo o.dyadic d.dyadic
      let b := slabEnd hi o.dyadic d.dyadic
      some (a.min b, a.max b)
  | _, _ => none

/-- The entry of a ray into a box, when it hits (R245). `ray` holds eight values, `box` six. -/
def boxEntry (ray box : List FVal) : Option Ext :=
  let bad (v : FVal) : Bool := v matches .nan _
  let inf (v : FVal) : Bool := v matches .inf _
  if ray.any bad || box.any bad || (ray.take 6).any inf then none else
  let r (j : Nat) : FVal := ray.getD j (.fin false 0 0)
  let b (j : Nat) : Ext := ((box.getD j (.fin false 0 0)).ext).getD .low
  if (List.range 3).any (fun j => (b j).cmp (b (j + 3)) == .gt) then none else
  let start : Option (Ext × Ext) :=
    match (r 6).ext, (r 7).ext with
    | some a, some z => some (a, z)
    | _, _ => none
  let span := (List.range 3).foldl (fun (acc : Option (Ext × Ext)) j =>
    match acc, slab (b j) (b (j + 3)) (r j) (r (3 + j)) with
    | some (a, z), some (lo, hi) => some (a.max lo, z.min hi)
    | _, _ => none) start
  match span with
  | some (a, z) => if a.cmp z != .gt then some a else none
  | none => none

/-- Child k's bits of a node: its reference and its box (R244). -/
def nodeRef (node k : Nat) : Nat := bitsOf node (768 + 64 * k) 64
def nodeBox (node k : Nat) : List FVal := (List.range 6).map (fun j => f32.value (bitsOf node (192 * k + 32 * j) 32))

/-- A child put among others in order of entry, after those that are not later. -/
def insertHit (k : Nat) (e : Ext) : List (Nat × Ext) → List (Nat × Ext)
  | [] => [(k, e)]
  | (j, f) :: rest => if e.cmp f == .lt then (k, e) :: (j, f) :: rest else (j, f) :: insertHit k e rest

/-- The five result words of a node against a ray (R245). -/
def boxResults (ray : List FVal) (node : Nat) : List Word :=
  let res := (List.range 4).map (fun k => if nodeRef node k = 0 then none else boxEntry ray (nodeBox node k))
  let hits := res.zipIdx.foldl (fun hs e => match e.1 with
    | some x => insertHit e.2 x hs
    | none => hs) []
  let misses := (List.range 4).filter (fun k => (res.getD k none).isNone)
  let order := hits.map (·.1) ++ misses
  let mask := hits.foldl (fun m h => m + 2 ^ h.1) 0
  let w := order.zipIdx.foldl (fun w e => w + e.1 * 2 ^ (8 + 2 * e.2)) (mask + hits.length * 2 ^ 16)
  BitVec.ofNat 32 w :: res.map (fun r => match r with
    | some x => BitVec.ofNat 32 (x.round .rd)
    | none => f32Inf)

/-- The .f32 values of n registers of a block, for a lane. -/
def Group.floats (G : Group) (L : Lane) (x : Opd) (n : Nat) : List FVal :=
  (List.range n).map (fun j => f32.value (G.blockVal L x j).toNat)

/-- A lane's part of BOXT (R245). -/
def boxLane (c : Ctx) (d x y : Opd) (s : State) (l : Nat) : LaneRes := .of do
  let L := c.grp.lane l
  let a := c.grp.pairVal L y
  if a % 128 ≠ 0 then .error (.trap s causeIllegal 0)
  else
    let (s, node) ← readL s c l a 128
    pure (s.modLane c.t c.g l (·.setVs d.num (boxResults (c.grp.floats L x 8) node)))

/-- BOXT (R245). -/
def execBoxt (e : Bool) (d x y : Opd) (s : State) : Out :=
  geoRead (.boxt e d x y) e (fun c => boxLane c d x y) s

/-! ## TRIT (R246) -/

/-- A vector of exact values. -/
abbrev Vec3 := Dyadic × Dyadic × Dyadic

def Vec3.sub (a b : Vec3) : Vec3 := (a.1.add b.1.neg, a.2.1.add b.2.1.neg, a.2.2.add b.2.2.neg)
def Vec3.dot (a b : Vec3) : Dyadic := ((a.1.mul b.1).add (a.2.1.mul b.2.1)).add (a.2.2.mul b.2.2)
def Vec3.cross (a b : Vec3) : Vec3 :=
  ((a.2.1.mul b.2.2).add (a.2.2.mul b.2.1).neg, (a.2.2.mul b.1).add (a.1.mul b.2.2).neg,
    (a.1.mul b.2.1).add (a.2.1.mul b.1).neg)

/-- Three values of a list as a vector. -/
def vec3 (vs : List FVal) (j : Nat) : Vec3 :=
  let at_ (k : Nat) : Dyadic := (vs.getD (j + k) (.fin false 0 0)).dyadic
  (at_ 0, at_ 1, at_ 2)

/-- A quotient of exact values as an extended real. -/
def quotExt (n d : Dyadic) : Ext := .quot (if d.m < 0 then -n.m else n.m) d.m.natAbs (n.e - d.e)

/-- The four result words of a miss (R246). -/
def tritMiss : List Word := [f32Inf, 0, 0, 0]

/-- The four result words of a ray block against a triangle block (R246). -/
def tritResults (ray tri : List FVal) : List Word :=
  let special (v : FVal) : Bool := !(v matches .fin _ _ _)
  if (ray.take 6).any special || tri.any special then tritMiss else
  match ((ray.getD 6 (.nan false)).ext), ((ray.getD 7 (.nan false)).ext) with
  | some tmin, some tmax =>
    let o := vec3 ray 0
    let d := vec3 ray 3
    let a := vec3 tri 0
    let e1 := (vec3 tri 3).sub a
    let e2 := (vec3 tri 6).sub a
    let n := e1.cross e2
    let dn := d.dot n
    if dn.m = 0 then tritMiss else
    let r := o.sub a
    let t := quotExt ((a.sub o).dot n) dn
    let u := quotExt (d.dot (r.cross e2)) dn
    let v := quotExt (d.dot (e1.cross r)) dn
    let sum := quotExt ((d.dot (r.cross e2)).add (d.dot (e1.cross r))) dn
    let zero : Ext := .quot 0 1 0
    if u.cmp zero == .lt || v.cmp zero == .lt || sum.cmp (.quot 1 1 0) == .gt ||
        t.cmp tmin == .lt || t.cmp tmax == .gt then tritMiss
    else
      [t, u, v].map (fun x => BitVec.ofNat 32 (x.round .rne)) ++ [if 0 < dn.m then 3 else 1]
  | _, _ => tritMiss

/-- TRIT (R246): registers only. -/
def execTrit (e : Bool) (d x y : Opd) (s : State) : Out :=
  geoRead (.trit e d x y) e (fun c s l =>
    let L := c.grp.lane l
    .done (s.modLane c.t c.g l (·.setVs d.num (tritResults (c.grp.floats L x 8) (c.grp.floats L y 9))))) s

/-! ## The traversal stack (R247) -/

/-- A lane's part of a stack word with its base and capacity, after the checks that concern every active lane. -/
def stackLane (c : Ctx) (b : Opd) (f : Nat → Nat → State → Nat → LaneRes) (s : State) (l : Nat) : LaneRes :=
  let B := c.grp.sPair b.num
  let C := (c.grp.sreg (b.num + 2)).toNat
  if !inWindow B || B % 256 != 0 || C == 0 || 2048 < C then .trap s causeIllegal 0
  else if scratchBad B (256 * C) c.team.limit then .trap s causeScratchRange (scratchInfo B (256 * C) c.team.limit)
  else f B C s l

/-- The value and the depth that a stack operand holds for a lane. -/
def stackVal (L : Lane) (p : Opd) : Nat := (L.vreg p.num).toNat + 2 ^ 32 * (L.vreg (p.num + 1)).toNat
def stackDepth (L : Lane) (p : Opd) : Nat := (L.vreg (p.num + 2)).toNat

/-- STK.PUSH (R247): an empty child is not pushed. -/
def execStkPush (e : Bool) (p b : Opd) (s : State) : Out :=
  geoWord (.stkPush e p b) e (fun c => stackLane c b (fun B C s l =>
    let L := c.grp.lane l
    let n := stackDepth L p
    if stackVal L p = 0 then .done s
    else if C ≤ n then .trap s causeStackFull 1
    else .of do
      let s ← writeLane s c l (B + 256 * n + 8 * l) (toBytes 8 (stackVal L p))
      pure (s.modLane c.t c.g l (·.setV (p.num + 2) (BitVec.ofNat 32 (n + 1)))))) s

/-- STK.POP (R247): an empty stack gives 0. -/
def execStkPop (e : Bool) (p b : Opd) (s : State) : Out :=
  geoRead (.stkPop e p b) e (fun c => stackLane c b (fun B C s l =>
    let n := stackDepth (c.grp.lane l) p
    if C < n then .trap s causeStackFull 2
    else if n = 0 then .done (s.modLane c.t c.g l (·.setVs p.num [0, 0]))
    else .of do
      let (s, v) ← readL s c l (B + 256 * (n - 1) + 8 * l) 8
      pure (s.modLane c.t c.g l (·.setVs p.num (valueWords v 2 ++ [BitVec.ofNat 32 (n - 1)]))))) s

/-! ## Saved rays (R248) -/

/-- The address of a lane's ray record: its own pair, or 64 bytes for each lane from an s pair. -/
def rayAddr (G : Group) (L : Lane) (l : Nat) (a : Opd) : Nat :=
  match a with
  | .s _ => (G.pairVal L a + 64 * l) % 2 ^ 64
  | _ => G.pairVal L a

/-- RSAVE (R248). -/
def execRsave (e : Bool) (v a : Opd) (s : State) : Out :=
  geoWord (.rsave e v a) e (fun c s l =>
    let L := c.grp.lane l
    let at_ := rayAddr c.grp L l a
    if at_ % 16 ≠ 0 then .trap s causeIllegal 0
    else .of (writeLane s c l at_ ((List.range 16).flatMap (fun j => toBytes 4 (c.grp.blockVal L v j).toNat)))) s

/-- RLOAD (R248). -/
def execRload (e : Bool) (v a : Opd) (s : State) : Out :=
  geoRead (.rload e v a) e (fun c s l =>
    let at_ := rayAddr c.grp (c.grp.lane l) l a
    if at_ % 16 ≠ 0 then .trap s causeIllegal 0
    else .of do
      let (s, x) ← readL s c l at_ 64
      pure (s.modLane c.t c.g l (·.setVs v.num (valueWords x 16)))) s

end Sys2Proof.Machine
end

