-- ==== Sys2Proof/Machine/Dispatch.lean ====
section
/-!
DEFINITION. The meaning of every step: one arm per constructor of `Instr`, each a call of its own definition.
-/
namespace Sys2Proof.Machine

def exec (i : Instr) (s : State) : Host.Outcome State Fault Refusal :=
  match i with
  | .iadd e d x y => Sys2Proof.Machine.execIadd e d x y s
  | .isub e d x y => Sys2Proof.Machine.execIsub e d x y s
  | .imul e d x y => Sys2Proof.Machine.execImul e d x y s
  | .imulhI32 e d x y => Sys2Proof.Machine.execImulhI32 e d x y s
  | .imulhN32 e d x y => Sys2Proof.Machine.execImulhN32 e d x y s
  | .imac e d x y => Sys2Proof.Machine.execImac e d x y s
  | .iminI32 e d x y => Sys2Proof.Machine.execIminI32 e d x y s
  | .iminN32 e d x y => Sys2Proof.Machine.execIminN32 e d x y s
  | .imaxI32 e d x y => Sys2Proof.Machine.execImaxI32 e d x y s
  | .imaxN32 e d x y => Sys2Proof.Machine.execImaxN32 e d x y s
  | .and e d x y => Sys2Proof.Machine.execAnd e d x y s
  | .or e d x y => Sys2Proof.Machine.execOr e d x y s
  | .xor e d x y => Sys2Proof.Machine.execXor e d x y s
  | .andn e d x y => Sys2Proof.Machine.execAndn e d x y s
  | .shl e d x y => Sys2Proof.Machine.execShl e d x y s
  | .shr e d x y => Sys2Proof.Machine.execShr e d x y s
  | .sar e d x y => Sys2Proof.Machine.execSar e d x y s
  | .iaddImm e d x n => Sys2Proof.Machine.execIaddImm e d x n s
  | .shlImm e d x n => Sys2Proof.Machine.execShlImm e d x n s
  | .shrImm e d x n => Sys2Proof.Machine.execShrImm e d x n s
  | .sarImm e d x n => Sys2Proof.Machine.execSarImm e d x n s
  | .icmpEq e d x y => Sys2Proof.Machine.execIcmpEq e d x y s
  | .icmpNe e d x y => Sys2Proof.Machine.execIcmpNe e d x y s
  | .icmpLtI32 e d x y => Sys2Proof.Machine.execIcmpLtI32 e d x y s
  | .icmpLeI32 e d x y => Sys2Proof.Machine.execIcmpLeI32 e d x y s
  | .icmpLtN32 e d x y => Sys2Proof.Machine.execIcmpLtN32 e d x y s
  | .icmpLeN32 e d x y => Sys2Proof.Machine.execIcmpLeN32 e d x y s
  | .sel e d x y => Sys2Proof.Machine.execSel e d x y s
  | .lea e d x y => Sys2Proof.Machine.execLea e d x y s
  | .bfx e d x y => Sys2Proof.Machine.execBfx e d x y s
  | .bfi e d x y => Sys2Proof.Machine.execBfi e d x y s
  | .iabs e d x => Sys2Proof.Machine.execIabs e d x s
  | .clz e d x => Sys2Proof.Machine.execClz e d x s
  | .popc e d x => Sys2Proof.Machine.execPopc e d x s
  | .brev e d x => Sys2Proof.Machine.execBrev e d x s
  | .bint2 e d x => Sys2Proof.Machine.execBint2 e d x s
  | .bint3 e d x => Sys2Proof.Machine.execBint3 e d x s
  | .bdeint3 e d x => Sys2Proof.Machine.execBdeint3 e d x s
  | .laneid e d => Sys2Proof.Machine.execLaneid e d s
  | .frcp e d x => Sys2Proof.Machine.execFrcp e d x s
  | .frsq e d x => Sys2Proof.Machine.execFrsq e d x s
  | .fsqrt e d x => Sys2Proof.Machine.execFsqrt e d x s
  | .fexp2 e d x => Sys2Proof.Machine.execFexp2 e d x s
  | .flog2 e d x => Sys2Proof.Machine.execFlog2 e d x s
  | .fsin e d x => Sys2Proof.Machine.execFsin e d x s
  | .unpack2F16X2 e d x => Sys2Proof.Machine.execUnpack2F16X2 e d x s
  | .unpack2G16X2 e d x => Sys2Proof.Machine.execUnpack2G16X2 e d x s
  | .faddF32 e d x y => Sys2Proof.Machine.execFaddF32 e d x y s
  | .fsubF32 e d x y => Sys2Proof.Machine.execFsubF32 e d x y s
  | .fmulF32 e d x y => Sys2Proof.Machine.execFmulF32 e d x y s
  | .ffmaF32 e d x y => Sys2Proof.Machine.execFfmaF32 e d x y s
  | .fminF32 e d x y => Sys2Proof.Machine.execFminF32 e d x y s
  | .fmaxF32 e d x y => Sys2Proof.Machine.execFmaxF32 e d x y s
  | .faddPacked e d x f => Sys2Proof.Machine.execFaddPacked e d x f s
  | .fsubPacked e d x f => Sys2Proof.Machine.execFsubPacked e d x f s
  | .fmulPacked e d x f => Sys2Proof.Machine.execFmulPacked e d x f s
  | .ffmaPacked e d x f => Sys2Proof.Machine.execFfmaPacked e d x f s
  | .fminPacked e d x f => Sys2Proof.Machine.execFminPacked e d x f s
  | .fmaxPacked e d x f => Sys2Proof.Machine.execFmaxPacked e d x f s
  | .fcmpEq e d x y => Sys2Proof.Machine.execFcmpEq e d x y s
  | .fcmpLt e d x y => Sys2Proof.Machine.execFcmpLt e d x y s
  | .fcmpLe e d x y => Sys2Proof.Machine.execFcmpLe e d x y s
  | .fcmpUn e d x y => Sys2Proof.Machine.execFcmpUn e d x y s
  | .fcvtF16F32 e d x m => Sys2Proof.Machine.execFcvtF16F32 e d x m s
  | .fcvtG16F32 e d x m => Sys2Proof.Machine.execFcvtG16F32 e d x m s
  | .fcvtF32F16 e d x m => Sys2Proof.Machine.execFcvtF32F16 e d x m s
  | .fcvtF32G16 e d x m => Sys2Proof.Machine.execFcvtF32G16 e d x m s
  | .fcvtI32F32 e d x m => Sys2Proof.Machine.execFcvtI32F32 e d x m s
  | .fcvtN32F32 e d x m => Sys2Proof.Machine.execFcvtN32F32 e d x m s
  | .fcvtF32I32 e d x m => Sys2Proof.Machine.execFcvtF32I32 e d x m s
  | .fcvtF32N32 e d x m => Sys2Proof.Machine.execFcvtF32N32 e d x m s
  | .fcvtF32F32 e d x m => Sys2Proof.Machine.execFcvtF32F32 e d x m s
  | .fcvtQF32 e d x n m => Sys2Proof.Machine.execFcvtQF32 e d x n m s
  | .fcvtF32Q e d x n m => Sys2Proof.Machine.execFcvtF32Q e d x n m s
  | .pack2F16X2 e d x y => Sys2Proof.Machine.execPack2F16X2 e d x y s
  | .pack2G16X2 e d x y => Sys2Proof.Machine.execPack2G16X2 e d x y s
  | .shfl e d x y => Sys2Proof.Machine.execShfl e d x y s
  | .shflup e d x n => Sys2Proof.Machine.execShflup e d x n s
  | .shfldn e d x n => Sys2Proof.Machine.execShfldn e d x n s
  | .shflx e d x m => Sys2Proof.Machine.execShflx e d x m s
  | .scan e d x c => Sys2Proof.Machine.execScan e d x c s
  | .red e d x c => Sys2Proof.Machine.execRed e d x c s
  | .ballot e d x => Sys2Proof.Machine.execBallot e d x s
  | .voteAny e d x => Sys2Proof.Machine.execVoteAny e d x s
  | .voteAll e d x => Sys2Proof.Machine.execVoteAll e d x s
  | .ldB e d x o => Sys2Proof.Machine.execLdB e d x o s
  | .ldH e d x o => Sys2Proof.Machine.execLdH e d x o s
  | .ldW e d x o => Sys2Proof.Machine.execLdW e d x o s
  | .ldD e d x o => Sys2Proof.Machine.execLdD e d x o s
  | .ldO e d x o => Sys2Proof.Machine.execLdO e d x o s
  | .stB e d x o => Sys2Proof.Machine.execStB e d x o s
  | .stH e d x o => Sys2Proof.Machine.execStH e d x o s
  | .stW e d x o => Sys2Proof.Machine.execStW e d x o s
  | .stD e d x o => Sys2Proof.Machine.execStD e d x o s
  | .stO e d x o => Sys2Proof.Machine.execStO e d x o s
  | .ldl e d x t0 => Sys2Proof.Machine.execLdl e d x t0 s
  | .ldt e d x t w t0 => Sys2Proof.Machine.execLdt e d x t w t0 s
  | .atomW e d x n o r c => Sys2Proof.Machine.execAtomW e d x n o r c s
  | .atomD e d x n o r c => Sys2Proof.Machine.execAtomD e d x n o r c s
  | .brz h x o => Sys2Proof.Machine.execBrz h x o s
  | .brnz h x o => Sys2Proof.Machine.execBrnz h x o s
  | .exit e => Sys2Proof.Machine.execExit e s
  | .trap e n => Sys2Proof.Machine.execTrap e n s
  | .join e k => Sys2Proof.Machine.execJoin e k s
  | .wait k => Sys2Proof.Machine.execWait k s
  | .leave e k => Sys2Proof.Machine.execLeave e k s
  | .kread e d k => Sys2Proof.Machine.execKread e d k s
  | .kset e k x => Sys2Proof.Machine.execKset e k x s
  | .bar => Sys2Proof.Machine.execBar s
  | .barn b c => Sys2Proof.Machine.execBarn b c s
  | .sign n m => Sys2Proof.Machine.execSign n m s
  | .waitb x => Sys2Proof.Machine.execWaitb x s
  | .pollb e d x => Sys2Proof.Machine.execPollb e d x s
  | .prf e c x => Sys2Proof.Machine.execPrf e c x s
  | .fence e k t0 => Sys2Proof.Machine.execFence e k t0 s
  | .nop e => Sys2Proof.Machine.execNop e s
  | .yield e => Sys2Proof.Machine.execYield e s
  | .eret => Sys2Proof.Machine.execEret s
  | .bkpt e => Sys2Proof.Machine.execBkpt e s
  | .umov e d x => Sys2Proof.Machine.execUmov e d x s
  | .umovi e d n => Sys2Proof.Machine.execUmovi e d n s
  | .umovhi e d n => Sys2Proof.Machine.execUmovhi e d n s
  | .uadd e d x y => Sys2Proof.Machine.execUadd e d x y s
  | .usub e d x y => Sys2Proof.Machine.execUsub e d x y s
  | .umul e d x y => Sys2Proof.Machine.execUmul e d x y s
  | .uand e d x y => Sys2Proof.Machine.execUand e d x y s
  | .uor e d x y => Sys2Proof.Machine.execUor e d x y s
  | .uxor e d x y => Sys2Proof.Machine.execUxor e d x y s
  | .ushl e d x y => Sys2Proof.Machine.execUshl e d x y s
  | .ushr e d x y => Sys2Proof.Machine.execUshr e d x y s
  | .usar e d x y => Sys2Proof.Machine.execUsar e d x y s
  | .uminI32 e d x y => Sys2Proof.Machine.execUminI32 e d x y s
  | .uminN32 e d x y => Sys2Proof.Machine.execUminN32 e d x y s
  | .umaxI32 e d x y => Sys2Proof.Machine.execUmaxI32 e d x y s
  | .umaxN32 e d x y => Sys2Proof.Machine.execUmaxN32 e d x y s
  | .ucmpEq e d x y => Sys2Proof.Machine.execUcmpEq e d x y s
  | .ucmpNe e d x y => Sys2Proof.Machine.execUcmpNe e d x y s
  | .ucmpLtI32 e d x y => Sys2Proof.Machine.execUcmpLtI32 e d x y s
  | .ucmpLeI32 e d x y => Sys2Proof.Machine.execUcmpLeI32 e d x y s
  | .ucmpLtN32 e d x y => Sys2Proof.Machine.execUcmpLtN32 e d x y s
  | .ucmpLeN32 e d x y => Sys2Proof.Machine.execUcmpLeN32 e d x y s
  | .usel e d x y => Sys2Proof.Machine.execUsel e d x y s
  | .uldW e d x o => Sys2Proof.Machine.execUldW e d x o s
  | .uldD e d x o => Sys2Proof.Machine.execUldD e d x o s
  | .ustW e d x o => Sys2Proof.Machine.execUstW e d x o s
  | .ustD e d x o => Sys2Proof.Machine.execUstD e d x o s
  | .ujmp o => Sys2Proof.Machine.execUjmp o s
  | .ubrZ x o => Sys2Proof.Machine.execUbrZ x o s
  | .ubrNz x o => Sys2Proof.Machine.execUbrNz x o s
  | .ucall x o => Sys2Proof.Machine.execUcall x o s
  | .uret x => Sys2Proof.Machine.execUret x s
  | .ujr x => Sys2Proof.Machine.execUjr x s
  | .ureadlane e d x y => Sys2Proof.Machine.execUreadlane e d x y s
  | .ufirst e d => Sys2Proof.Machine.execUfirst e d s
  | .sysrd e d r => Sys2Proof.Machine.execSysrd e d r s
  | .syswr e d r => Sys2Proof.Machine.execSyswr e d r s
  | .sched e d x c => Sys2Proof.Machine.execSched e d x c s
  | .launch e d x => Sys2Proof.Machine.execLaunch e d x s
  | .fmtset e n x => Sys2Proof.Machine.execFmtset e n x s
  | .mma e z a b p c t0 t => Sys2Proof.Machine.execMma e z a b p c t0 t s
  | .mmaz e z a b p c t0 t => Sys2Proof.Machine.execMmaz e z a b p c t0 t s
  | .zclr e z => Sys2Proof.Machine.execZclr e z s
  | .zrd e d z b f m t0 n => Sys2Proof.Machine.execZrd e d z b f m t0 n s
  | .zwr e d z b => Sys2Proof.Machine.execZwr e d z b s
  | .facetOpen e d x => Sys2Proof.Machine.execFacetOpen e d x s
  | .facetNext e d x => Sys2Proof.Machine.execFacetNext e d x s
  | .facetMark e g x y => Sys2Proof.Machine.execFacetMark e g x y s
  | .meshBump e d x => Sys2Proof.Machine.execMeshBump e d x s
  | .boxt e d x y => Sys2Proof.Machine.execBoxt e d x y s
  | .trit e d x y => Sys2Proof.Machine.execTrit e d x y s
  | .stkPush e p b => Sys2Proof.Machine.execStkPush e p b s
  | .stkPop e p b => Sys2Proof.Machine.execStkPop e p b s
  | .rsave e v a => Sys2Proof.Machine.execRsave e v a s
  | .rload e v a => Sys2Proof.Machine.execRload e v a s
  | .rastTri e x y => Sys2Proof.Machine.execRastTri e x y s
  | .rastRate e x y => Sys2Proof.Machine.execRastRate e x y s
  | .shapeSeal e d x => Sys2Proof.Machine.execShapeSeal e d x s
  | .shapeDrop e x => Sys2Proof.Machine.execShapeDrop e x s
  | .kick e d x y => Sys2Proof.Machine.execKick e d x y s
  | .xform e d x => Sys2Proof.Machine.execXform e d x s
  | .leaseGet e d x => Sys2Proof.Machine.execLeaseGet e d x s
  | .leasePut e => Sys2Proof.Machine.execLeasePut e s
  | .wgReserve e d x => Sys2Proof.Machine.execWgReserve e d x s
  | .wgEmit e x => Sys2Proof.Machine.execWgEmit e x s
  | .wgDone e => Sys2Proof.Machine.execWgDone e s
  | .branchResolve team group => Sys2Proof.Machine.execBranchResolve team group s
  | .engineOpComplete op => Sys2Proof.Machine.execEngineOpComplete op s
  | .engineOpStop op => Sys2Proof.Machine.execEngineOpStop op s
  | .stewardAtomic cluster source seq pa wide fn nat val new => Sys2Proof.Machine.execStewardAtomic cluster source seq pa wide fn nat val new s
  | .quartetStepStart team cn => Sys2Proof.Machine.execQuartetStepStart team cn s
  | .quartetStepComplete team cn => Sys2Proof.Machine.execQuartetStepComplete team cn s
  | .rasterTriangle core => Sys2Proof.Machine.execRasterTriangle core s
  | .hardwarePrefetch core addr => Sys2Proof.Machine.execHardwarePrefetch core addr s
  | .queueTailWrite part queue val => Sys2Proof.Machine.execQueueTailWrite part queue val s
  | .queueErrClear part queue => Sys2Proof.Machine.execQueueErrClear part queue s
  | .packetTake part queue => Sys2Proof.Machine.execPacketTake part queue s
  | .dependencePoll grid => Sys2Proof.Machine.execDependencePoll grid s
  | .teamAdmit part => Sys2Proof.Machine.execTeamAdmit part s
  | .compactorMove core => Sys2Proof.Machine.execCompactorMove core s
  | .coreScrub core => Sys2Proof.Machine.execCoreScrub core s
  | .teamEnd team => Sys2Proof.Machine.execTeamEnd team s
  | .gridRetire grid => Sys2Proof.Machine.execGridRetire grid s
  | .wgNodeTeamForm grid node => Sys2Proof.Machine.execWgNodeTeamForm grid node s
  | .wgRecordTimeout grid node => Sys2Proof.Machine.execWgRecordTimeout grid node s
  | .roomKeyHeldClear part core => Sys2Proof.Machine.execRoomKeyHeldClear part core s
  | .roomKeyEnable part core en => Sys2Proof.Machine.execRoomKeyEnable part core en s
  | .faultRecordWrite part => Sys2Proof.Machine.execFaultRecordWrite part s
  | .resumeRetry part token => Sys2Proof.Machine.execResumeRetry part token s
  | .resumeAbort part token => Sys2Proof.Machine.execResumeAbort part token s
  | .invalidateRange part => Sys2Proof.Machine.execInvalidateRange part s
  | .invalidateAsid part => Sys2Proof.Machine.execInvalidateAsid part s
  | .invalidatePartition part => Sys2Proof.Machine.execInvalidatePartition part s
  | .invalidationDone part => Sys2Proof.Machine.execInvalidationDone part s
  | .guestbookOvfClear part ring => Sys2Proof.Machine.execGuestbookOvfClear part ring s
  | .filterClear part => Sys2Proof.Machine.execFilterClear part s
  | .filterClearDone part => Sys2Proof.Machine.execFilterClearDone part s
  | .migrationStart part slot => Sys2Proof.Machine.execMigrationStart part slot s
  | .migrationDone part slot => Sys2Proof.Machine.execMigrationDone part slot s
  | .contextSave part queue => Sys2Proof.Machine.execContextSave part queue s
  | .groupPreemptStop team group => Sys2Proof.Machine.execGroupPreemptStop team group s
  | .contextSaveDone part queue => Sys2Proof.Machine.execContextSaveDone part queue s
  | .contextRestore part queue => Sys2Proof.Machine.execContextRestore part queue s
  | .contextRestoreDone part queue => Sys2Proof.Machine.execContextRestoreDone part queue s
  | .queueAbort part queue => Sys2Proof.Machine.execQueueAbort part queue s
  | .registerWrite part off val => Sys2Proof.Machine.execRegisterWrite part off val s
  | .powerOnBoot => Sys2Proof.Machine.execPowerOnBoot s
  | .pcieConfigRequest part => Sys2Proof.Machine.execPcieConfigRequest part s
  | .quoteRequest part => Sys2Proof.Machine.execQuoteRequest part s
  | .quoteDone part => Sys2Proof.Machine.execQuoteDone part s
  | .hostWrite path bar off data => Sys2Proof.Machine.execHostWrite path bar off data s
  | .hostRead path bar off len => Sys2Proof.Machine.execHostRead path bar off len s
  | .correctedError unit source addr => Sys2Proof.Machine.execCorrectedError unit source addr s
  | .containedError pa => Sys2Proof.Machine.execContainedError pa s
  | .uncontainedCoreError core unit => Sys2Proof.Machine.execUncontainedCoreError core unit s
  | .uncontainedMemoryError pa => Sys2Proof.Machine.execUncontainedMemoryError pa s
  | .lockstepMismatch => Sys2Proof.Machine.execLockstepMismatch s
  | .errorRecordWrite part => Sys2Proof.Machine.execErrorRecordWrite part s
  | .flitReceive link flit => Sys2Proof.Machine.execFlitReceive link flit s
  | .flitAckTimeout link => Sys2Proof.Machine.execFlitAckTimeout link s
  | .linkTrainTimeout link => Sys2Proof.Machine.execLinkTrainTimeout link s
  | .remoteRequestReceive dev source seq req => Sys2Proof.Machine.execRemoteRequestReceive dev source seq req s
  | .remoteReplyReceive source dev seq data => Sys2Proof.Machine.execRemoteReplyReceive source dev seq data s
  | .requestReplyTimeout source dev seq => Sys2Proof.Machine.execRequestReplyTimeout source dev seq s
  | .timeBoundLost => Sys2Proof.Machine.execTimeBoundLost s
  | .timeBoundRegained => Sys2Proof.Machine.execTimeBoundRegained s
  | .snapshotRequest part => Sys2Proof.Machine.execSnapshotRequest part s
  | .snapshotDone part => Sys2Proof.Machine.execSnapshotDone part s
  | .standbyEntry => Sys2Proof.Machine.execStandbyEntry s
  | .droopEvent core => Sys2Proof.Machine.execDroopEvent core s

end Sys2Proof.Machine
end

