-- ==== Sys2Proof/Machine/Late.lean ====
section
/-!
DEFINITION. Loads and relaxed atomics that are performed after later accesses of their team (04_ordering.md R96, R99: at die
scope and wider accesses of different sectors are free). The plan tells a group to put off its next one; the lane goes on, and
its result is in its registers before anything can look there (log 6).
-/
namespace Sys2Proof.Machine

/-- A plain load or store, or an atomic with no order beyond its team: what it moves, between which registers and which
addresses. -/
structure MemWord where
  kind : ReqKind
  e : Bool
  /-- The data register or block, and the address pair with the offset in bytes. -/
  d : Opd
  x : Opd
  off : Int
  n : Nat
  /-- For an atomic (R199): its function, and whether it takes its operands as unsigned. -/
  fn : BitVec 3
  nat : Bool
  deriving DecidableEq, Repr

/-- A load or store with an offset in units of its size (R193). -/
def MemWord.plain (kind : ReqKind) (e : Bool) (d x : Opd) (o : BitVec 8) (n : Nat) : MemWord :=
  ⟨kind, e, d, x, o.toInt * n, n, 0, false⟩

/-- The words that the free order of R99 is about: an atomic whose order covers the die's scope is none of them. -/
def memWordOf : Instr → Option MemWord
  | .ldB e d x o => some (.plain .read e d x o 1)
  | .ldH e d x o => some (.plain .read e d x o 2)
  | .ldW e d x o => some (.plain .read e d x o 4)
  | .ldD e d x o => some (.plain .read e d x o 8)
  | .ldO e d x o => some (.plain .read e d x o 16)
  | .stB e d x o => some (.plain .write e d x o 1)
  | .stH e d x o => some (.plain .write e d x o 2)
  | .stW e d x o => some (.plain .write e d x o 4)
  | .stD e d x o => some (.plain .write e d x o 8)
  | .stO e d x o => some (.plain .write e d x o 16)
  | .atomW e d x n fn r k => if r = 0 ∨ coversDie k = false then
      some ⟨.atomic, e, d, Opd.ofCode (2 * x.toNat), 0, 4, fn, n == 1#1⟩ else none
  | .atomD e d x n fn r k => if r = 0 ∨ coversDie k = false then
      some ⟨.atomic, e, d, Opd.ofCode (2 * x.toNat), 0, 8, fn, n == 1#1⟩ else none
  | _ => none

/-- The address of a lane's access. -/
def MemWord.address (m : MemWord) (G : Group) (L : Lane) : Nat := addOffset (G.pairVal L m.x) m.off

/-- The v registers from an operand on. -/
def blockRegs (x : Opd) (n : Nat) : List Nat :=
  match x with
  | .v r => (List.range n).map (r.val + ·)
  | .s _ => []
  | .q _ => []

/-- The v registers that a lane's part of the word reads or writes. -/
def MemWord.regs (m : MemWord) : List Nat :=
  blockRegs m.x 2 ++ blockRegs m.d (if m.kind = .atomic then m.n / 2 else max 1 (m.n / 4))

/-- The v registers that a put-off access is still to write. -/
def Late.regs (x : Late) : List Nat := blockRegs x.dst (max 1 (x.places.length / 4))

/-- A place's sector within its page: the same in virtual and physical addresses. -/
def Place.pageSector : Place → Option Nat
  | .phys a => some (a / 32 % 128)
  | .enc a => some (a / 32 % 128)
  | .scratch _ => none

/-- The sectors within their pages that n bytes at a virtual address touch. -/
def pageSectors (a n : Nat) : List Nat := (List.range n).map (fun i => (a + i) / 32 % 128)

/-! ## Performing what was put off -/

/-- A latch given its word where the latch holds one; the first is number 0 (R143). -/
def Latches.fill (q : Latches) (n : Nat) (w : Option Word) : Latches :=
  match n with
  | 0 => if q.q1.isSome then { q with q1 := w } else q
  | 1 => if q.q2.isSome then { q with q2 := w } else q
  | 2 => if q.q3.isSome then { q with q3 := w } else q
  | 3 => if q.q4.isSome then { q with q4 := w } else q
  | _ => q

/-- A put-off access's result in its lane's registers, and in its latch if that is still in the run. -/
def Lane.fill (L : Lane) (x : Late) (ws : List Word) : Lane :=
  let L := match x.dst with
    | .v r => L.setVs r.val ws
    | _ => L
  { L with q := L.q.fill x.age ws.head? }

/-- One put-off access of a team performed now: what the load returns, or the atomic's exchange (R199, R200). -/
def State.answer (s : State) (t : Nat) (x : Late) : State :=
  match Tab.get? s.teams t with
  | none => s
  | some T =>
    let old := leValue (x.places.map (s.teamByte T))
    let n := x.places.length
    let s := match x.atomic, x.places with
      | some (fn, nat, val, new), .phys pa :: _ =>
        ((s.performBytes t (pairPlaces x.places n (atomNew n fn nat old val new))).dropEarly t (sectorsOf x.places)).keepOwn
          T.pcore pa old
      | _, _ => s
    s.modGroup t x.group fun G =>
      let G := (G.dropEarly (sectorsOf x.places)).dropPieces (piecesOf x.places)
      { G with lanes := Tab.modify G.lanes x.lane (·.fill x (valueWords old (max 1 (n / 4)))) }

/-- Every put-off access of a team performed, in the order of issue. -/
def State.answerLate (s : State) (t : Nat) : State :=
  match Tab.get? s.teams t with
  | none => s
  | some T => (T.late.foldl (fun s x => s.answer t x) s).modTeam t fun T => { T with late := [] }

/-- Every put-off access of every team performed: before an event of the table. -/
def State.answerAll (s : State) : State :=
  (s.teams.filter (fun T => T.2.late != [])).foldl (fun s T => s.answerLate T.1) s

/-! ## Words that pass what was put off, and putting a word's accesses off -/

/-- Whether a word of a team can act before a put-off access does: it is a plain access itself, reads no latch, has no register
of the access and touches no sector of it. -/
def MemWord.passes (m : MemWord) (c : Ctx) (x : Late) : Bool :=
  (x.group != c.g || m.regs.all (fun r => !x.regs.contains r)) &&
  c.lanes.all (fun l =>
    let a := m.address c.grp (c.grp.lane l)
    inWindow a || (pageSectors a m.n).all (fun n => !(x.places.filterMap Place.pageSector).contains n))

/-- A word of a lane counted against the put-off accesses of its run. -/
def Late.older (c : Ctx) (x : Late) : Late :=
  if x.group = c.g ∧ c.lanes.contains x.lane = true then { x with age := x.age + 1 } else x

/-- What a word that is about to execute does to the accesses of its team that are put off: it passes them all, or they are
performed first. -/
def State.beforeWord (s : State) (c : Ctx) (i : Option Instr) : State :=
  if c.team.late = [] then s else
  match i.bind memWordOf, i.map Instr.latches with
  | some m, some [] =>
    if c.team.late.all (m.passes c) then s.modTeam c.t fun T => { T with late := T.late.map (Late.older c) }
    else s.answerLate c.t
  | _, _ => s.answerLate c.t

/-- Whether a lane's access can be put off at its places: all in this device's memory, held in the plain way, and with no
store of the team on its way there. -/
def State.canWait (s : State) (c : Ctx) (ps : List Place) : Bool :=
  let T := s.teamOf c
  let waiting := T.buffer.flatMap (·.bytes) ++ T.groups.flatMap (fun G => G.2.fifo.flatMap (·.bytes))
  let ss := sectorsOf ps
  ps.all (fun p => match p with
    | .phys a => !remotePa a
    | .scratch _ => false
    | .enc _ => false) && waiting.all (fun b => !(sectorsOf [b.1]).any ss.contains)

/-- The lanes' accesses of a word put off, lane after lane: their walks are made and their checks pass (R191). -/
def putOffLanes (c : Ctx) (m : MemWord) : List Nat → State → Option (State × List Late)
  | [], s => some (s, [])
  | l :: ls, s =>
    let L := c.grp.lane l
    let a := m.address c.grp L
    if m.kind = .atomic ∧ (L.helper = true ∨ a % m.n ≠ 0) then none else
    match laneAccess s c a m.n m.kind.access with
    | .ok u ps _ =>
      if u.canWait c ps = false then none else
      let (val, new) := atomOperands c.grp L m.d m.n
      let x : Late := ⟨c.g, l, m.d, ps, if m.kind = .atomic then some (m.fn, m.nat, val, new) else none, 0⟩
      (putOffLanes c m ls u).map fun r => (r.1, x :: r.2)
    | .trap _ _ _ => none
    | .park _ _ _ => none

/-- A word of the issuing fragment with its accesses put off, if it is one that can be: its lanes go on, and their latch is
still to be given its word. -/
def State.putOff (s : State) (c : Ctx) (i : Instr) : Option State :=
  match memWordOf i, i.latches, c.verdict i true with
  | some m, [], .go =>
    if m.kind = .write ∨ c.begunWord.isSome = true then none else
    (putOffLanes c m c.lanes (if m.kind = .atomic then s.drainFifo c.t c.g else s)).map fun r =>
      let s := (r.1.dropEarly c.t (sectorsOf (r.2.flatMap (·.places)))).modTeam c.t fun T => { T with late := T.late ++ r.2 }
      let s := s.modGroup c.t c.g fun G => { G.mapLanes c.lanes (fun _ L => L.latch (some 0)) with lazy := false }
      finish s c m.e { Ran.init s with done := c.lanes } (fun _ => c.pc + 4)
  | _, _, _ => none

/-- A group told to put off its next word's accesses. -/
def State.makeLazy (s : State) (t g : Nat) : State := s.modGroup t g fun G => { G with lazy := true }

end Sys2Proof.Machine
end

