-- ==== Sys2Proof/Machine/Turns.lean ====
section
/-!
DEFINITION. Whose turn it is: the issue of a word, the performing of a store, an event; the model's own arbiter
(01_execution_model.md R22, R27, R28, R30; log 4); and a machine set up so that a given instruction is its next one.
-/
namespace Sys2Proof.Machine

/-- The time that a step takes (R164, R382; how much is free). -/
def State.tick (s : State) : State :=
  { s with time := s.time + Config.timeTick s.steps, cycles := s.cycles + Config.cycleTick s.steps, steps := s.steps + 1 }

/-! ## Turns -/

/-- The state with the issue slot given to a lane's fragment, or to none. -/
def State.setCur (s : State) (cur : Option (Nat × Nat × Nat)) : State := { s with sched := { s.sched with cur := cur } }

/-- A word that has been fetched for the fragment that holds the issue slot: it is decoded and executed; a word that
is no instruction is no hold point of R29 and traps ILLEGAL at once, whatever its major and SET (R149; DEDUCED, log
22). -/
def State.runWord (s : State) (w : BitVec 32) : Out :=
  match decodeWord w with
  | .ok i => exec i s
  | .error _ =>
    match s.issuer with
    | some c => .next (trapWord s c causeIllegal 0)
    | none => .next s

/-- Whether a lane waits at its word: at a hold point, for a convergence register or for an engine. -/
def State.polled (s : State) (t g l : Nat) : Bool :=
  match s.groupAt t g with
  | some G => (G.lane l).halt || (G.lane l).stalled
  | none => false

/-! ## Who is ready, and whose turn it is (R22, R27, R28, R42, R171) -/

/-- A lane's fragment brought to its word, in its slot. -/
def State.slot (s : State) (t g l : Nat) : Ready := prepare ((s.setCur (some (t, g, l))).completeSteps t g)

/-- Whether a lane's fragment that waits at its word could go on now: its slot would not find it waiting still. -/
def State.wakes (s : State) (t g l : Nat) : Bool :=
  match s.slot t g l with
  | .done u => !u.polled t g l
  | .word u w => match u.runWord w with
    | .next v => !v.polled t g l
    | .fault _ => true
    | .refused _ => true

/-- Whether a lane's fragment is ready (R27): it has an instruction to issue, and nothing that it waits for at its word is
still to come. -/
def State.fragmentReady (s : State) (t g l : Nat) : Bool :=
  match s.groupAt t g with
  | none => false
  | some G => G.laneReady l && !G.awaitsReply l && (!s.polled t g l || s.wakes t g l)

/-- The ready lanes of a group. -/
def State.readyIn (s : State) (t g : Nat) : List Nat := (List.range 32).filter (s.fragmentReady t g)

/-- The other groups of a group's quarter that are ready. -/
def State.quarterMates (s : State) (t g : Nat) : List (Nat × Nat) :=
  match Tab.get? s.teams t, s.groupAt t g with
  | some T, some G =>
    s.teams.flatMap (fun (e : Nat × Team) => if e.2.pcore = T.pcore then
      (e.2.groups.filter (fun h => h.2.quarter == G.quarter && (e.1 != t || h.1 != g) && s.readyIn e.1 h.1 != [])).map
        (fun h => (e.1, h.1)) else [])
  | _, _ => []

/-- Whether a group that has executed YIELD has been passed by some groups (R171); true of every other group. -/
def Sched.yieldOver (c : Sched) (t g : Nat) (mates : List (Nat × Nat)) : Bool :=
  match c.yields.find? (fun e => e.1 == (t, g)) with
  | some e => mates.all e.2.contains
  | none => true

/-- Whether a group may begin a run with respect to the other groups of its quarter: none of them that is ready has waited
since this group's last run (R28), or, after its YIELD, has issued no run since (R171). -/
def State.groupTurn (s : State) (t g : Nat) : Bool :=
  let mates := s.quarterMates t g
  !(s.sched.ran.any (fun e => e.2 == (t, g) && mates.contains e.1)) && s.sched.yieldOver t g mates

/-- Whether an issue slot can be used by a lane's fragment (R22): no other group of the quarter is part-way through a
run, and of a group that is, only the run's lanes go on; a run is begun only within the bounds of R27, R28 and R171. -/
def State.slotUsable (s : State) (t g l : Nat) : Bool :=
  match Tab.get? s.teams t with
  | none => false
  | some T =>
    match Tab.get? T.groups g with
    | none => false
    | some G =>
      s.fragmentReady t g l && !s.quarterBusy T.pcore G.quarter t g &&
        (G.runMask.getLsbD l || (G.runMask == 0 && s.sched.fragmentTurn t g G (s.readyIn t g) l && s.groupTurn t g))

/-- A run begun by a lane's fragment counted: the other ready fragments of the group wait (R27), the other ready groups of
the quarter wait for its next run but one (R28), and the groups that have yielded have been passed by one more (R171). -/
def State.countRun (s : State) (t g l : Nat) : State :=
  match s.groupAt t g with
  | none => s
  | some G =>
    let R := s.readyIn t g
    let skips := s.sched.skips.filter (fun e => !(e.1.1 == t && e.1.2.1 == g)) ++
      (R.filter (fun m => !(G.unitOf l).contains m)).map fun m =>
        let w := s.sched.skip t g m
        ((t, g, m), w.1 + 1, max (max w.2 (G.rivals R m).length) 1)
    let ran := s.sched.ran.filter (fun e => e.1 != (t, g) && e.2 != (t, g)) ++ (s.quarterMates t g).map (fun m => (m, (t, g)))
    let yields := (s.sched.yields.filter (fun e => e.1 != (t, g))).map (fun e => (e.1, e.2 ++ [(t, g)]))
    { s with sched := { s.sched with ran := ran, skips := skips, yields := yields } }

/-- What groups and fragments have waited, without those that are not ready any more: what they wait starts afresh; and
the YIELDs that are not over (R171). -/
def State.stillWait (s : State) : State :=
  let waits (e : (Nat × Nat) × List (Nat × Nat)) : Bool :=
    match s.groupAt e.1.1 e.1.2 with
    | some G => !G.ended && (G.runMask != 0 || !s.sched.yieldOver e.1.1 e.1.2 (s.quarterMates e.1.1 e.1.2))
    | none => false
  { s with sched := { s.sched with
    ran := s.sched.ran.filter (fun e => s.readyIn e.1.1 e.1.2 != [])
    skips := s.sched.skips.filter (fun e => s.fragmentReady e.1.1 e.1.2.1 e.1.2.2)
    yields := s.sched.yields.filter waits } }

/-- The state with the waits of R27, R28 and R171 as they stand in another one. -/
def State.withWaits (u s : State) : State :=
  { u with sched := { u.sched with ran := s.sched.ran, skips := s.sched.skips, yields := s.sched.yields } }

/-- What a slot comes to for the bounds of R27 and R28: a fragment that waits at its word has begun no run. -/
def State.settleWait (s : State) (t g l : Nat) : Out → Out
  | .next u => .next (if u.polled t g l then u.withWaits s else u)
  | r => r

/-- A fetched word, with the accesses of its team that are put off (R99): they are performed first unless the word passes them,
and a group told to puts the word's own off if it can be. -/
def State.runLate (s : State) (w : BitVec 32) : Out :=
  match s.issuer with
  | none => s.runWord w
  | some c =>
    let i := (decodeWord w).toOption
    let u := s.beforeWord c i
    match (if c.grp.lazy then i.bind fun i => u.issuer.bind fun c => u.putOff c i else none) with
    | some v => .next v
    | none => (if c.grp.lazy then u.modGroup c.t c.g fun G => { G with lazy := false } else u).runWord w

/-- An issue slot (R21 to R24): started quartet steps of the group take effect first (R232), then the fragment's word
is fetched and executed. A slot that cannot be used passes. -/
def State.issueTurn (s : State) (t g l : Nat) : Out :=
  if s.slotUsable t g l then
    let begins := match s.groupAt t g with
      | some G => G.runMask == 0
      | none => false
    match (if begins then s.countRun t g l else s).slot t g l with
    | .done u => .next (u.withWaits s)
    | .word u w => s.settleWait t g l (u.runLate w)
  else .next s

/-- One turn. -/
def State.takeTurn (s : State) : Turn → Out
  | .issue t g l => s.issueTurn t g l
  | .drain t g n => .next (s.drainOne t g n)
  | .spill t n => .next (s.spillOne t n)
  | .early t g sector => .next (s.noteEarly t g sector)
  | .ahead t g piece => .next (s.noteAhead t g piece)
  | .putOff t g => .next (s.makeLazy t g)
  | .settle t => .next (s.answerLate t)
  | .post n => .next (s.postOne n)
  | .system core act => .next (s.systemAct core act)
  | .perform n => .next (s.performOne n)
  | .media p pa len => .next (s.encodeAt p pa len)
  | .forget die n => .next (s.forgetWalks die n)
  | .event i => exec i (s.answerAll.setCur none)

/-! ## The model's own arbiter (log 4) -/

/-- Every group that is ready, in key order. -/
def State.readyGroups (s : State) : List (Nat × Nat) :=
  s.teams.flatMap (fun (T : Nat × Team) =>
    (T.2.groups.filter (fun G => s.readyIn T.1 G.1 != [])).map (fun G => (T.1, G.1)))

/-- Every lane that is ready, in key order. -/
def State.readyLanes (s : State) : List (Nat × Nat × Nat) :=
  s.teams.flatMap (fun (T : Nat × Team) => T.2.groups.flatMap (fun G =>
    (s.readyIn T.1 G.1).map (fun l => (T.1, G.1, l))))

/-- A queue brought up to date: what is no longer ready leaves it, what has become ready joins at its end. -/
def refreshed {α : Type} [BEq α] (queue ready : List α) : List α :=
  let stay := queue.filter (fun x => ready.contains x)
  stay ++ ready.filter (fun x => !stay.contains x)

/-- The next issue by the arbiter's queues: the group at the front that can use a slot, and its lane at the front
(R27, R28). The group and the lanes that issue go to the ends. -/
def State.pickIssue (s : State) : Option (State × Turn) :=
  let gs := refreshed s.sched.groups s.readyGroups
  let ls := refreshed s.sched.lanes s.readyLanes
  match ls.filter (fun x => s.slotUsable x.1 x.2.1 x.2.2) with
  | [] => none
  | usable =>
    match gs.find? (fun x => usable.any (fun y => y.1 == x.1 && y.2.1 == x.2)) with
    | none => none
    | some (t, g) =>
      match usable.find? (fun y => y.1 == t && y.2.1 == g) with
      | none => none
      | some (_, _, l) =>
        let unit := (match s.groupAt t g with
          | some G => G.unitOf l
          | none => []).map (fun m => (t, g, m))
        let groups := gs.filter (fun x => x != (t, g)) ++ [(t, g)]
        let lanes := ls.filter (fun x => !unit.contains x) ++ unit
        some ({ s with sched := { s.sched with groups := groups, lanes := lanes } }, .issue t g l)

/-- The stores that wait to be seen: the groups with stores in their FIFOs, the teams with buffered ones, and the host's
posted writes and the system cores' stores. -/
def State.drains (s : State) : List Turn :=
  (if s.posted = [] then [] else [Turn.post 0]) ++ (if s.systems = [] then [] else [Turn.perform 0]) ++
  s.teams.flatMap (fun (T : Nat × Team) =>
    (T.2.groups.filter (fun G => G.2.fifo != [])).map (fun G => Turn.drain T.1 G.1 0) ++
    (if T.2.buffer = [] then [] else [Turn.spill T.1 0]))

/-- The events that a queue has to offer. -/
def Queue.events (Q : Queue) (p q : Nat) : List Instr :=
  (if Q.takeable then [Instr.packetTake p q] else []) ++
  (if Q.cmd = 1 then [Instr.contextSaveDone p q] else []) ++ (if Q.cmd = 2 then [Instr.contextRestoreDone p q] else [])

/-- The device's own events that a partition has to offer. -/
def Part.events (P : Part) (p : Nat) (wants : Bool) : List Instr :=
  (if P.fault.waiting = [] then [] else [Instr.faultRecordWrite p]) ++
  (if P.error.waiting = [] then [] else [Instr.errorRecordWrite p]) ++
  (if P.inval.job = none then [] else [Instr.invalidationDone p]) ++
  (if P.fclr then [Instr.filterClearDone p] else []) ++ (if P.quoteBusy then [Instr.quoteDone p] else []) ++
  (if P.inspect.done then [] else [Instr.snapshotDone p]) ++
  (P.mig.filter (fun m => m.2.job != none)).map (fun m => Instr.migrationDone p m.1) ++
  P.queues.flatMap (fun Q => Q.2.events p Q.1) ++ (if wants then [Instr.teamAdmit p] else [])

/-- Whether a team waits for admission in a partition. -/
def State.wantsTeam (s : State) (p : Nat) (P : Part) : Bool :=
  P.queues.any (fun Q => Q.2.restore != []) || s.grids.any (fun g => g.2.part == p && g.2.unadmitted)

/-- The Concierge's events that a grid has to offer. -/
def State.gridEvents (s : State) (n : Nat) (g : Grid) : List Instr :=
  (if g.depOk then [] else [Instr.dependencePoll n]) ++ (if s.gridOver n g then [Instr.gridRetire n] else []) ++
  (match g.wg with
    | some w => (w.nodes.filter (fun m => m.2.pending != [])).flatMap
        (fun m => [Instr.wgNodeTeamForm n m.1, Instr.wgRecordTimeout n m.1])
    | none => [])

/-- The events that a team has to offer. -/
def State.teamEvents (s : State) (t : Nat) (T : Team) : List Instr :=
  (if s.teamOver t T then [Instr.teamEnd t] else []) ++
  T.groups.flatMap (fun G =>
    (if G.2.stopping && !G.2.saved && !G.2.ended then [Instr.groupPreemptStop t G.1] else []) ++
    (if G.2.pending.isSome then [Instr.branchResolve t G.1] else [])) ++
  T.conv.flatMap (fun c => if c.2.complete then [Instr.quartetStepStart t c.1] else []) ++
  T.steps.map (fun c => Instr.quartetStepComplete t c.1)

/-- The events that a core has to offer. -/
def State.coreEvents (s : State) (c : Nat) (k : Core) : List Instr :=
  (if k.raster = [] ∧ k.jobs = [] then [] else [Instr.rasterTriangle c]) ++
  (match k.tag with
    | some tag => if s.teamsOn c == [] && s.wantsScrub c tag then [Instr.coreScrub c] else []
    | none => [])

/-- The events that come about by the device alone, as it stands; events from outside come by the plan only. -/
def State.ownEvents (s : State) : List Instr :=
  match s.boot.phase with
  | .off => [.powerOnBoot]
  | .recovery => []
  | .running =>
    s.parts.flatMap (fun (P : Nat × Part) => P.2.events P.1 (s.wantsTeam P.1 P.2)) ++
    s.grids.flatMap (fun (g : Nat × Grid) => s.gridEvents g.1 g.2) ++
    s.teams.flatMap (fun (T : Nat × Team) => s.teamEvents T.1 T.2) ++
    s.ops.flatMap (fun (o : Nat × EngineOp) => [Instr.engineOpComplete o.1, Instr.engineOpStop o.1]) ++
    s.cores.flatMap (fun (k : Nat × Core) => s.coreEvents k.1 k.2)

/-- The element of a list at a position counted round. -/
def cyclic {α : Type} (l : List α) (n : Nat) : Option α := l[n % l.length]?

/-- The arbiter's next turn: issue, store and event take turns, each passing when it has nothing. -/
def State.pickTurn (s : State) : Option (State × Turn) :=
  let n := s.sched.turn
  let s : State := { s with sched := { s.sched with turn := n + 1 } }
  let drain := (cyclic s.drains (n / 3)).map (fun x => (s, x))
  let event := (cyclic s.ownEvents (n / 3)).map (fun i => (s, Turn.event i))
  match n % 3 with
  | 0 => (s.pickIssue.or drain).or event
  | 1 => (drain.or event).or s.pickIssue
  | _ => (event.or s.pickIssue).or drain

/-- The turn that comes next: the plan's, or the arbiter's when the plan is empty. -/
def State.nextTurn (s : State) : Option (State × Turn) :=
  match s.sched.plan with
  | x :: xs => some ({ s with sched := { s.sched with plan := xs } }, x)
  | [] => s.pickTurn

/-- The state once time has passed: guestbook entries are placed, and what waits afresh is known. -/
def State.settled (s : State) : State := s.tick.settleGuests.stillWait

/-- One step of the machine: time passes, and the next turn is taken. With nothing to do, only time passes. -/
def State.stepOnce (s : State) : Out :=
  match s.settled.nextTurn with
  | some (s, x) => s.takeTurn x
  | none => .next s.settled

/-! ## A machine whose next instruction is a given one (log 1) -/

/-- A leaf for user code and data: V, R, W, X, U, A and D (R326). -/
def stagedLeaf (pa : Nat) : Nat := pa / 4096 * 2 ^ 10 + 0xDF

/-- A pointer to a table. -/
def stagedPointer (pa : Nat) : Nat := pa / 4096 * 2 ^ 10 + 1

/-- Where the staged page tables lie, and the staged instruction. -/
def stagedTables : Nat := 0x600000
def stagedCode : Nat := 0x400004

/-- The page tables, by physical address: two leaves of 2 MiB that map addresses 0 and 0x400000 upward to
themselves. -/
def stagedEntries : List (Nat × Nat) :=
  [(stagedTables, stagedPointer (stagedTables + 0x1000)), (stagedTables + 0x1000, stagedPointer (stagedTables + 0x2000)),
   (stagedTables + 0x2000, stagedPointer (stagedTables + 0x3000)), (stagedTables + 0x3000, stagedLeaf 0),
   (stagedTables + 0x3010, stagedLeaf 0x400000)]

/-- The launch packet of the staged grid: 4 groups, 192 registers, 64 tiles, the whole scratchpad, one team. -/
def stagedPacket : BitVec 1024 :=
  BitVec.ofNat 1024 (stagedCode + 2 ^ 160 + 3 * 2 ^ 192 + 192 * 2 ^ 200 + 64 * 2 ^ 208 + 524288 * 2 ^ 224)

/-- The staged partition: core 0 and channel group 0. -/
def stagedPart : Part :=
  Part.start
    { sysCores := 1, clUnits := 1, chGroups := 1, tierBase := 0, tierSize := 0, netPort := 0xFF, nSpace := 0xFF, encode := 0,
      heads := 0, cores := [0] } true false

/-- The staged grid of queue 0. -/
def stagedGrid (number : Nat) : Grid :=
  { packet := stagedPacket, depth := 0, parent := none, part := 0, queue := 0, tenant := 0, asid := 0,
    root := BitVec.ofNat 44 (stagedTables / 4096), order := number, next := 1, liveTeams := 1, liveKids := 0, depOk := true,
    stopped := false, aborted := false, recordDone := false, counterDone := false, wg := none, shadesFor := none,
    wait := .none }

/-- The staged team: at its start (R20) on core 0, one group on each quarter. -/
def stagedTeam (grid : Nat) : Team :=
  newTeam grid 0 0 0 0 stagedPacket 0 ((List.range 4).map (fun q => (q, [(0, 128), (128, 64)], [(0, 64)]))) (0, 128) none

/-- The machine with an instruction's word placed and a team at its start about to issue it: a booted device in which
partition 0 has one team on core 0, its pages mapped, and the next turn an issue slot for lane 0's fragment of group
0. A guard word with E set stands before the word (R137). -/
def State.staged (s : State) (w : Nat) : State :=
  let n := s.fresh
  let s := stagedEntries.foldl (fun s e => s.writePhys e.1 (toBytes 8 e.2)) s
  let s := s.writePhys (stagedCode - 4) (toBytes 4 0xC0000000 ++ toBytes 4 w)
  { s with
    boot := { s.boot with phase := .running }
    parts := Tab.put s.parts 0 stagedPart
    cores := Tab.put s.cores 0 { Core.reset with tag := some 0 }
    grids := Tab.put s.grids n (stagedGrid n)
    teams := Tab.put s.teams (n + 1) (stagedTeam n)
    fresh := n + 2
    sched := { s.sched with plan := [.issue (n + 1) 0 0], cur := none } }

end Sys2Proof.Machine
end

