-- ==== Sys2Proof/Machine/Step.lean ====
section
/-!
DEFINITION. The step of the machine, and the machine whose next step runs a given instruction.
-/
namespace Sys2Proof.Machine

/-- One step. -/
def step (s : State) : Host.Outcome State Fault Refusal := s.stepOnce

/-- The machine with an instruction where the next step fetches it (log 1). -/
def State.withFetchWord (s : State) (nbits w : Nat) : State := s.staged (w % 2 ^ nbits)

end Sys2Proof.Machine
end

