-- ==== Sys2Proof/WellFormed.lean ====
section
/-!
DEFINITION. Well-formed instructions: words whose every field names what it may name (R140 to R148), and
events, which have no fields of a word. An ill-formed word still decodes; it traps ILLEGAL when it issues
(R149 step 1).
-/
namespace Sys2Proof

/-- An instruction that passes the checks of R149 step 1 that depend on the word alone. -/
def Instr.wellFormed (i : Instr) : Bool := i.legal

/-- An instruction that has a word. -/
def Instr.isWord (i : Instr) : Bool :=
  match i.kind with
  | .event => false
  | .lane => true
  | .uniform => true

end Sys2Proof
end

