-- ==== Sys2Proof/Laws/PerInstr.lean ====
section
/-!
SUPPORT. One lemma per constructor of Instr, for the statements about all instructions as words: every instruction of
the word formats has a word, and an event of the machine has none (R134, R144).
-/
namespace Sys2Proof.Laws.Encoded

/-- An instruction has a word exactly when it is a lane word or a uniform word. -/
def Statement (i : Instr) : Prop := (encode i).isSome = i.isWord

theorem iadd : ∀ e d x y, Statement (.iadd e d x y) := fun _ _ _ _ => rfl

theorem isub : ∀ e d x y, Statement (.isub e d x y) := fun _ _ _ _ => rfl

theorem imul : ∀ e d x y, Statement (.imul e d x y) := fun _ _ _ _ => rfl

theorem imulhI32 : ∀ e d x y, Statement (.imulhI32 e d x y) := fun _ _ _ _ => rfl

theorem imulhN32 : ∀ e d x y, Statement (.imulhN32 e d x y) := fun _ _ _ _ => rfl

theorem imac : ∀ e d x y, Statement (.imac e d x y) := fun _ _ _ _ => rfl

theorem iminI32 : ∀ e d x y, Statement (.iminI32 e d x y) := fun _ _ _ _ => rfl

theorem iminN32 : ∀ e d x y, Statement (.iminN32 e d x y) := fun _ _ _ _ => rfl

theorem imaxI32 : ∀ e d x y, Statement (.imaxI32 e d x y) := fun _ _ _ _ => rfl

theorem imaxN32 : ∀ e d x y, Statement (.imaxN32 e d x y) := fun _ _ _ _ => rfl

theorem and : ∀ e d x y, Statement (.and e d x y) := fun _ _ _ _ => rfl

theorem or : ∀ e d x y, Statement (.or e d x y) := fun _ _ _ _ => rfl

theorem xor : ∀ e d x y, Statement (.xor e d x y) := fun _ _ _ _ => rfl

theorem andn : ∀ e d x y, Statement (.andn e d x y) := fun _ _ _ _ => rfl

theorem shl : ∀ e d x y, Statement (.shl e d x y) := fun _ _ _ _ => rfl

theorem shr : ∀ e d x y, Statement (.shr e d x y) := fun _ _ _ _ => rfl

theorem sar : ∀ e d x y, Statement (.sar e d x y) := fun _ _ _ _ => rfl

theorem iaddImm : ∀ e d x n, Statement (.iaddImm e d x n) := fun _ _ _ _ => rfl

theorem shlImm : ∀ e d x n, Statement (.shlImm e d x n) := fun _ _ _ _ => rfl

theorem shrImm : ∀ e d x n, Statement (.shrImm e d x n) := fun _ _ _ _ => rfl

theorem sarImm : ∀ e d x n, Statement (.sarImm e d x n) := fun _ _ _ _ => rfl

theorem icmpEq : ∀ e d x y, Statement (.icmpEq e d x y) := fun _ _ _ _ => rfl

theorem icmpNe : ∀ e d x y, Statement (.icmpNe e d x y) := fun _ _ _ _ => rfl

theorem icmpLtI32 : ∀ e d x y, Statement (.icmpLtI32 e d x y) := fun _ _ _ _ => rfl

theorem icmpLeI32 : ∀ e d x y, Statement (.icmpLeI32 e d x y) := fun _ _ _ _ => rfl

theorem icmpLtN32 : ∀ e d x y, Statement (.icmpLtN32 e d x y) := fun _ _ _ _ => rfl

theorem icmpLeN32 : ∀ e d x y, Statement (.icmpLeN32 e d x y) := fun _ _ _ _ => rfl

theorem sel : ∀ e d x y, Statement (.sel e d x y) := fun _ _ _ _ => rfl

theorem lea : ∀ e d x y, Statement (.lea e d x y) := fun _ _ _ _ => rfl

theorem bfx : ∀ e d x y, Statement (.bfx e d x y) := fun _ _ _ _ => rfl

theorem bfi : ∀ e d x y, Statement (.bfi e d x y) := fun _ _ _ _ => rfl

theorem iabs : ∀ e d x, Statement (.iabs e d x) := fun _ _ _ => rfl

theorem clz : ∀ e d x, Statement (.clz e d x) := fun _ _ _ => rfl

theorem popc : ∀ e d x, Statement (.popc e d x) := fun _ _ _ => rfl

theorem brev : ∀ e d x, Statement (.brev e d x) := fun _ _ _ => rfl

theorem bint2 : ∀ e d x, Statement (.bint2 e d x) := fun _ _ _ => rfl

theorem bint3 : ∀ e d x, Statement (.bint3 e d x) := fun _ _ _ => rfl

theorem bdeint3 : ∀ e d x, Statement (.bdeint3 e d x) := fun _ _ _ => rfl

theorem laneid : ∀ e d, Statement (.laneid e d) := fun _ _ => rfl

theorem frcp : ∀ e d x, Statement (.frcp e d x) := fun _ _ _ => rfl

theorem frsq : ∀ e d x, Statement (.frsq e d x) := fun _ _ _ => rfl

theorem fsqrt : ∀ e d x, Statement (.fsqrt e d x) := fun _ _ _ => rfl

theorem fexp2 : ∀ e d x, Statement (.fexp2 e d x) := fun _ _ _ => rfl

theorem flog2 : ∀ e d x, Statement (.flog2 e d x) := fun _ _ _ => rfl

theorem fsin : ∀ e d x, Statement (.fsin e d x) := fun _ _ _ => rfl

theorem unpack2F16X2 : ∀ e d x, Statement (.unpack2F16X2 e d x) := fun _ _ _ => rfl

theorem unpack2G16X2 : ∀ e d x, Statement (.unpack2G16X2 e d x) := fun _ _ _ => rfl

theorem faddF32 : ∀ e d x y, Statement (.faddF32 e d x y) := fun _ _ _ _ => rfl

theorem fsubF32 : ∀ e d x y, Statement (.fsubF32 e d x y) := fun _ _ _ _ => rfl

theorem fmulF32 : ∀ e d x y, Statement (.fmulF32 e d x y) := fun _ _ _ _ => rfl

theorem ffmaF32 : ∀ e d x y, Statement (.ffmaF32 e d x y) := fun _ _ _ _ => rfl

theorem fminF32 : ∀ e d x y, Statement (.fminF32 e d x y) := fun _ _ _ _ => rfl

theorem fmaxF32 : ∀ e d x y, Statement (.fmaxF32 e d x y) := fun _ _ _ _ => rfl

theorem faddPacked : ∀ e d x f, Statement (.faddPacked e d x f) := fun _ _ _ _ => rfl

theorem fsubPacked : ∀ e d x f, Statement (.fsubPacked e d x f) := fun _ _ _ _ => rfl

theorem fmulPacked : ∀ e d x f, Statement (.fmulPacked e d x f) := fun _ _ _ _ => rfl

theorem ffmaPacked : ∀ e d x f, Statement (.ffmaPacked e d x f) := fun _ _ _ _ => rfl

theorem fminPacked : ∀ e d x f, Statement (.fminPacked e d x f) := fun _ _ _ _ => rfl

theorem fmaxPacked : ∀ e d x f, Statement (.fmaxPacked e d x f) := fun _ _ _ _ => rfl

theorem fcmpEq : ∀ e d x y, Statement (.fcmpEq e d x y) := fun _ _ _ _ => rfl

theorem fcmpLt : ∀ e d x y, Statement (.fcmpLt e d x y) := fun _ _ _ _ => rfl

theorem fcmpLe : ∀ e d x y, Statement (.fcmpLe e d x y) := fun _ _ _ _ => rfl

theorem fcmpUn : ∀ e d x y, Statement (.fcmpUn e d x y) := fun _ _ _ _ => rfl

theorem fcvtF16F32 : ∀ e d x m, Statement (.fcvtF16F32 e d x m) := fun _ _ _ _ => rfl

theorem fcvtG16F32 : ∀ e d x m, Statement (.fcvtG16F32 e d x m) := fun _ _ _ _ => rfl

theorem fcvtF32F16 : ∀ e d x m, Statement (.fcvtF32F16 e d x m) := fun _ _ _ _ => rfl

theorem fcvtF32G16 : ∀ e d x m, Statement (.fcvtF32G16 e d x m) := fun _ _ _ _ => rfl

theorem fcvtI32F32 : ∀ e d x m, Statement (.fcvtI32F32 e d x m) := fun _ _ _ _ => rfl

theorem fcvtN32F32 : ∀ e d x m, Statement (.fcvtN32F32 e d x m) := fun _ _ _ _ => rfl

theorem fcvtF32I32 : ∀ e d x m, Statement (.fcvtF32I32 e d x m) := fun _ _ _ _ => rfl

theorem fcvtF32N32 : ∀ e d x m, Statement (.fcvtF32N32 e d x m) := fun _ _ _ _ => rfl

theorem fcvtF32F32 : ∀ e d x m, Statement (.fcvtF32F32 e d x m) := fun _ _ _ _ => rfl

theorem fcvtQF32 : ∀ e d x n m, Statement (.fcvtQF32 e d x n m) := fun _ _ _ _ _ => rfl

theorem fcvtF32Q : ∀ e d x n m, Statement (.fcvtF32Q e d x n m) := fun _ _ _ _ _ => rfl

theorem pack2F16X2 : ∀ e d x y, Statement (.pack2F16X2 e d x y) := fun _ _ _ _ => rfl

theorem pack2G16X2 : ∀ e d x y, Statement (.pack2G16X2 e d x y) := fun _ _ _ _ => rfl

theorem shfl : ∀ e d x y, Statement (.shfl e d x y) := fun _ _ _ _ => rfl

theorem shflup : ∀ e d x n, Statement (.shflup e d x n) := fun _ _ _ _ => rfl

theorem shfldn : ∀ e d x n, Statement (.shfldn e d x n) := fun _ _ _ _ => rfl

theorem shflx : ∀ e d x m, Statement (.shflx e d x m) := fun _ _ _ _ => rfl

theorem scan : ∀ e d x c, Statement (.scan e d x c) := fun _ _ _ _ => rfl

theorem red : ∀ e d x c, Statement (.red e d x c) := fun _ _ _ _ => rfl

theorem ballot : ∀ e d x, Statement (.ballot e d x) := fun _ _ _ => rfl

theorem voteAny : ∀ e d x, Statement (.voteAny e d x) := fun _ _ _ => rfl

theorem voteAll : ∀ e d x, Statement (.voteAll e d x) := fun _ _ _ => rfl

theorem ldB : ∀ e d x o, Statement (.ldB e d x o) := fun _ _ _ _ => rfl

theorem ldH : ∀ e d x o, Statement (.ldH e d x o) := fun _ _ _ _ => rfl

theorem ldW : ∀ e d x o, Statement (.ldW e d x o) := fun _ _ _ _ => rfl

theorem ldD : ∀ e d x o, Statement (.ldD e d x o) := fun _ _ _ _ => rfl

theorem ldO : ∀ e d x o, Statement (.ldO e d x o) := fun _ _ _ _ => rfl

theorem stB : ∀ e d x o, Statement (.stB e d x o) := fun _ _ _ _ => rfl

theorem stH : ∀ e d x o, Statement (.stH e d x o) := fun _ _ _ _ => rfl

theorem stW : ∀ e d x o, Statement (.stW e d x o) := fun _ _ _ _ => rfl

theorem stD : ∀ e d x o, Statement (.stD e d x o) := fun _ _ _ _ => rfl

theorem stO : ∀ e d x o, Statement (.stO e d x o) := fun _ _ _ _ => rfl

theorem ldl : ∀ e d x t0, Statement (.ldl e d x t0) := fun _ _ _ _ => rfl

theorem ldt : ∀ e d x t w t0, Statement (.ldt e d x t w t0) := fun _ _ _ _ _ _ => rfl

theorem atomW : ∀ e d x n o r c, Statement (.atomW e d x n o r c) := fun _ _ _ _ _ _ _ => rfl

theorem atomD : ∀ e d x n o r c, Statement (.atomD e d x n o r c) := fun _ _ _ _ _ _ _ => rfl

theorem brz : ∀ h x o, Statement (.brz h x o) := fun _ _ _ => rfl

theorem brnz : ∀ h x o, Statement (.brnz h x o) := fun _ _ _ => rfl

theorem exit : ∀ e, Statement (.exit e) := fun _ => rfl

theorem trap : ∀ e n, Statement (.trap e n) := fun _ _ => rfl

theorem join : ∀ e k, Statement (.join e k) := fun _ _ => rfl

theorem wait : ∀ k, Statement (.wait k) := fun _ => rfl

theorem leave : ∀ e k, Statement (.leave e k) := fun _ _ => rfl

theorem kread : ∀ e d k, Statement (.kread e d k) := fun _ _ _ => rfl

theorem kset : ∀ e k x, Statement (.kset e k x) := fun _ _ _ => rfl

theorem bar : Statement .bar := rfl

theorem barn : ∀ b c, Statement (.barn b c) := fun _ _ => rfl

theorem sign : ∀ n m, Statement (.sign n m) := fun _ _ => rfl

theorem waitb : ∀ x, Statement (.waitb x) := fun _ => rfl

theorem pollb : ∀ e d x, Statement (.pollb e d x) := fun _ _ _ => rfl

theorem prf : ∀ e c x, Statement (.prf e c x) := fun _ _ _ => rfl

theorem fence : ∀ e k t0, Statement (.fence e k t0) := fun _ _ _ => rfl

theorem nop : ∀ e, Statement (.nop e) := fun _ => rfl

theorem yield : ∀ e, Statement (.yield e) := fun _ => rfl

theorem eret : Statement .eret := rfl

theorem bkpt : ∀ e, Statement (.bkpt e) := fun _ => rfl

theorem umov : ∀ e d x, Statement (.umov e d x) := fun _ _ _ => rfl

theorem umovi : ∀ e d n, Statement (.umovi e d n) := fun _ _ _ => rfl

theorem umovhi : ∀ e d n, Statement (.umovhi e d n) := fun _ _ _ => rfl

theorem uadd : ∀ e d x y, Statement (.uadd e d x y) := fun _ _ _ _ => rfl

theorem usub : ∀ e d x y, Statement (.usub e d x y) := fun _ _ _ _ => rfl

theorem umul : ∀ e d x y, Statement (.umul e d x y) := fun _ _ _ _ => rfl

theorem uand : ∀ e d x y, Statement (.uand e d x y) := fun _ _ _ _ => rfl

theorem uor : ∀ e d x y, Statement (.uor e d x y) := fun _ _ _ _ => rfl

theorem uxor : ∀ e d x y, Statement (.uxor e d x y) := fun _ _ _ _ => rfl

theorem ushl : ∀ e d x y, Statement (.ushl e d x y) := fun _ _ _ _ => rfl

theorem ushr : ∀ e d x y, Statement (.ushr e d x y) := fun _ _ _ _ => rfl

theorem usar : ∀ e d x y, Statement (.usar e d x y) := fun _ _ _ _ => rfl

theorem uminI32 : ∀ e d x y, Statement (.uminI32 e d x y) := fun _ _ _ _ => rfl

theorem uminN32 : ∀ e d x y, Statement (.uminN32 e d x y) := fun _ _ _ _ => rfl

theorem umaxI32 : ∀ e d x y, Statement (.umaxI32 e d x y) := fun _ _ _ _ => rfl

theorem umaxN32 : ∀ e d x y, Statement (.umaxN32 e d x y) := fun _ _ _ _ => rfl

theorem ucmpEq : ∀ e d x y, Statement (.ucmpEq e d x y) := fun _ _ _ _ => rfl

theorem ucmpNe : ∀ e d x y, Statement (.ucmpNe e d x y) := fun _ _ _ _ => rfl

theorem ucmpLtI32 : ∀ e d x y, Statement (.ucmpLtI32 e d x y) := fun _ _ _ _ => rfl

theorem ucmpLeI32 : ∀ e d x y, Statement (.ucmpLeI32 e d x y) := fun _ _ _ _ => rfl

theorem ucmpLtN32 : ∀ e d x y, Statement (.ucmpLtN32 e d x y) := fun _ _ _ _ => rfl

theorem ucmpLeN32 : ∀ e d x y, Statement (.ucmpLeN32 e d x y) := fun _ _ _ _ => rfl

theorem usel : ∀ e d x y, Statement (.usel e d x y) := fun _ _ _ _ => rfl

theorem uldW : ∀ e d x o, Statement (.uldW e d x o) := fun _ _ _ _ => rfl

theorem uldD : ∀ e d x o, Statement (.uldD e d x o) := fun _ _ _ _ => rfl

theorem ustW : ∀ e d x o, Statement (.ustW e d x o) := fun _ _ _ _ => rfl

theorem ustD : ∀ e d x o, Statement (.ustD e d x o) := fun _ _ _ _ => rfl

theorem ujmp : ∀ o, Statement (.ujmp o) := fun _ => rfl

theorem ubrZ : ∀ x o, Statement (.ubrZ x o) := fun _ _ => rfl

theorem ubrNz : ∀ x o, Statement (.ubrNz x o) := fun _ _ => rfl

theorem ucall : ∀ x o, Statement (.ucall x o) := fun _ _ => rfl

theorem uret : ∀ x, Statement (.uret x) := fun _ => rfl

theorem ujr : ∀ x, Statement (.ujr x) := fun _ => rfl

theorem ureadlane : ∀ e d x y, Statement (.ureadlane e d x y) := fun _ _ _ _ => rfl

theorem ufirst : ∀ e d, Statement (.ufirst e d) := fun _ _ => rfl

theorem sysrd : ∀ e d r, Statement (.sysrd e d r) := fun _ _ _ => rfl

theorem syswr : ∀ e d r, Statement (.syswr e d r) := fun _ _ _ => rfl

theorem sched : ∀ e d x c, Statement (.sched e d x c) := fun _ _ _ _ => rfl

theorem launch : ∀ e d x, Statement (.launch e d x) := fun _ _ _ => rfl

theorem fmtset : ∀ e n x, Statement (.fmtset e n x) := fun _ _ _ => rfl

theorem mma : ∀ e z a b p c t0 t, Statement (.mma e z a b p c t0 t) := fun _ _ _ _ _ _ _ _ => rfl

theorem mmaz : ∀ e z a b p c t0 t, Statement (.mmaz e z a b p c t0 t) := fun _ _ _ _ _ _ _ _ => rfl

theorem zclr : ∀ e z, Statement (.zclr e z) := fun _ _ => rfl

theorem zrd : ∀ e d z b f m t0 n, Statement (.zrd e d z b f m t0 n) := fun _ _ _ _ _ _ _ _ => rfl

theorem zwr : ∀ e d z b, Statement (.zwr e d z b) := fun _ _ _ _ => rfl

theorem facetOpen : ∀ e d x, Statement (.facetOpen e d x) := fun _ _ _ => rfl

theorem facetNext : ∀ e d x, Statement (.facetNext e d x) := fun _ _ _ => rfl

theorem facetMark : ∀ e g x y, Statement (.facetMark e g x y) := fun _ _ _ _ => rfl

theorem meshBump : ∀ e d x, Statement (.meshBump e d x) := fun _ _ _ => rfl

theorem boxt : ∀ e d x y, Statement (.boxt e d x y) := fun _ _ _ _ => rfl

theorem trit : ∀ e d x y, Statement (.trit e d x y) := fun _ _ _ _ => rfl

theorem stkPush : ∀ e p b, Statement (.stkPush e p b) := fun _ _ _ => rfl

theorem stkPop : ∀ e p b, Statement (.stkPop e p b) := fun _ _ _ => rfl

theorem rsave : ∀ e v a, Statement (.rsave e v a) := fun _ _ _ => rfl

theorem rload : ∀ e v a, Statement (.rload e v a) := fun _ _ _ => rfl

theorem rastTri : ∀ e x y, Statement (.rastTri e x y) := fun _ _ _ => rfl

theorem rastRate : ∀ e x y, Statement (.rastRate e x y) := fun _ _ _ => rfl

theorem shapeSeal : ∀ e d x, Statement (.shapeSeal e d x) := fun _ _ _ => rfl

theorem shapeDrop : ∀ e x, Statement (.shapeDrop e x) := fun _ _ => rfl

theorem kick : ∀ e d x y, Statement (.kick e d x y) := fun _ _ _ _ => rfl

theorem xform : ∀ e d x, Statement (.xform e d x) := fun _ _ _ => rfl

theorem leaseGet : ∀ e d x, Statement (.leaseGet e d x) := fun _ _ _ => rfl

theorem leasePut : ∀ e, Statement (.leasePut e) := fun _ => rfl

theorem wgReserve : ∀ e d x, Statement (.wgReserve e d x) := fun _ _ _ => rfl

theorem wgEmit : ∀ e x, Statement (.wgEmit e x) := fun _ _ => rfl

theorem wgDone : ∀ e, Statement (.wgDone e) := fun _ => rfl

theorem branchResolve : ∀ team group, Statement (.branchResolve team group) := fun _ _ => rfl

theorem engineOpComplete : ∀ op, Statement (.engineOpComplete op) := fun _ => rfl

theorem engineOpStop : ∀ op, Statement (.engineOpStop op) := fun _ => rfl

theorem stewardAtomic : ∀ cluster source seq pa wide fn nat val new, Statement (.stewardAtomic cluster source seq pa wide fn nat val new) := fun _ _ _ _ _ _ _ _ _ => rfl

theorem quartetStepStart : ∀ team cn, Statement (.quartetStepStart team cn) := fun _ _ => rfl

theorem quartetStepComplete : ∀ team cn, Statement (.quartetStepComplete team cn) := fun _ _ => rfl

theorem rasterTriangle : ∀ core, Statement (.rasterTriangle core) := fun _ => rfl

theorem hardwarePrefetch : ∀ core addr, Statement (.hardwarePrefetch core addr) := fun _ _ => rfl

theorem queueTailWrite : ∀ part queue val, Statement (.queueTailWrite part queue val) := fun _ _ _ => rfl

theorem queueErrClear : ∀ part queue, Statement (.queueErrClear part queue) := fun _ _ => rfl

theorem packetTake : ∀ part queue, Statement (.packetTake part queue) := fun _ _ => rfl

theorem dependencePoll : ∀ grid, Statement (.dependencePoll grid) := fun _ => rfl

theorem teamAdmit : ∀ part, Statement (.teamAdmit part) := fun _ => rfl

theorem compactorMove : ∀ core, Statement (.compactorMove core) := fun _ => rfl

theorem coreScrub : ∀ core, Statement (.coreScrub core) := fun _ => rfl

theorem teamEnd : ∀ team, Statement (.teamEnd team) := fun _ => rfl

theorem gridRetire : ∀ grid, Statement (.gridRetire grid) := fun _ => rfl

theorem wgNodeTeamForm : ∀ grid node, Statement (.wgNodeTeamForm grid node) := fun _ _ => rfl

theorem wgRecordTimeout : ∀ grid node, Statement (.wgRecordTimeout grid node) := fun _ _ => rfl

theorem roomKeyHeldClear : ∀ part core, Statement (.roomKeyHeldClear part core) := fun _ _ => rfl

theorem roomKeyEnable : ∀ part core en, Statement (.roomKeyEnable part core en) := fun _ _ _ => rfl

theorem faultRecordWrite : ∀ part, Statement (.faultRecordWrite part) := fun _ => rfl

theorem resumeRetry : ∀ part token, Statement (.resumeRetry part token) := fun _ _ => rfl

theorem resumeAbort : ∀ part token, Statement (.resumeAbort part token) := fun _ _ => rfl

theorem invalidateRange : ∀ part, Statement (.invalidateRange part) := fun _ => rfl

theorem invalidateAsid : ∀ part, Statement (.invalidateAsid part) := fun _ => rfl

theorem invalidatePartition : ∀ part, Statement (.invalidatePartition part) := fun _ => rfl

theorem invalidationDone : ∀ part, Statement (.invalidationDone part) := fun _ => rfl

theorem guestbookOvfClear : ∀ part ring, Statement (.guestbookOvfClear part ring) := fun _ _ => rfl

theorem filterClear : ∀ part, Statement (.filterClear part) := fun _ => rfl

theorem filterClearDone : ∀ part, Statement (.filterClearDone part) := fun _ => rfl

theorem migrationStart : ∀ part slot, Statement (.migrationStart part slot) := fun _ _ => rfl

theorem migrationDone : ∀ part slot, Statement (.migrationDone part slot) := fun _ _ => rfl

theorem contextSave : ∀ part queue, Statement (.contextSave part queue) := fun _ _ => rfl

theorem groupPreemptStop : ∀ team group, Statement (.groupPreemptStop team group) := fun _ _ => rfl

theorem contextSaveDone : ∀ part queue, Statement (.contextSaveDone part queue) := fun _ _ => rfl

theorem contextRestore : ∀ part queue, Statement (.contextRestore part queue) := fun _ _ => rfl

theorem contextRestoreDone : ∀ part queue, Statement (.contextRestoreDone part queue) := fun _ _ => rfl

theorem queueAbort : ∀ part queue, Statement (.queueAbort part queue) := fun _ _ => rfl

theorem registerWrite : ∀ part off val, Statement (.registerWrite part off val) := fun _ _ _ => rfl

theorem powerOnBoot : Statement .powerOnBoot := rfl

theorem pcieConfigRequest : ∀ part, Statement (.pcieConfigRequest part) := fun _ => rfl

theorem quoteRequest : ∀ part, Statement (.quoteRequest part) := fun _ => rfl

theorem quoteDone : ∀ part, Statement (.quoteDone part) := fun _ => rfl

theorem hostWrite : ∀ path bar off data, Statement (.hostWrite path bar off data) := fun _ _ _ _ => rfl

theorem hostRead : ∀ path bar off len, Statement (.hostRead path bar off len) := fun _ _ _ _ => rfl

theorem correctedError : ∀ unit source addr, Statement (.correctedError unit source addr) := fun _ _ _ => rfl

theorem containedError : ∀ pa, Statement (.containedError pa) := fun _ => rfl

theorem uncontainedCoreError : ∀ core unit, Statement (.uncontainedCoreError core unit) := fun _ _ => rfl

theorem uncontainedMemoryError : ∀ pa, Statement (.uncontainedMemoryError pa) := fun _ => rfl

theorem lockstepMismatch : Statement .lockstepMismatch := rfl

theorem errorRecordWrite : ∀ part, Statement (.errorRecordWrite part) := fun _ => rfl

theorem flitReceive : ∀ link flit, Statement (.flitReceive link flit) := fun _ _ => rfl

theorem flitAckTimeout : ∀ link, Statement (.flitAckTimeout link) := fun _ => rfl

theorem linkTrainTimeout : ∀ link, Statement (.linkTrainTimeout link) := fun _ => rfl

theorem remoteRequestReceive : ∀ dev source seq req, Statement (.remoteRequestReceive dev source seq req) := fun _ _ _ _ => rfl

theorem remoteReplyReceive : ∀ source dev seq data, Statement (.remoteReplyReceive source dev seq data) := fun _ _ _ _ => rfl

theorem requestReplyTimeout : ∀ source dev seq, Statement (.requestReplyTimeout source dev seq) := fun _ _ _ => rfl

theorem timeBoundLost : Statement .timeBoundLost := rfl

theorem timeBoundRegained : Statement .timeBoundRegained := rfl

theorem snapshotRequest : ∀ part, Statement (.snapshotRequest part) := fun _ => rfl

theorem snapshotDone : ∀ part, Statement (.snapshotDone part) := fun _ => rfl

theorem standbyEntry : Statement .standbyEntry := rfl

theorem droopEvent : ∀ core, Statement (.droopEvent core) := fun _ => rfl

end Sys2Proof.Laws.Encoded
end

