-- ==== Sys2Proof/Safety.lean ====
section
/-!
DEFINITION. The terms in which claims are made: a step that goes on, the canonical form of what memory holds, when
a word is free to have its effect, and the state that a word leaves when it does.
-/
namespace Sys2Proof.Machine

/-! ## Safe runs -/

/-- The machine takes a step from a state: it neither stops with a fault nor refuses. -/
def State.goesOn (s : State) : Prop := ∃ t, step s = .next t

/-- Memory's canonical form (log 2): addresses strictly rising, and no listed byte that equals what an unlisted
address reads as. -/
abbrev Memory.wf (m : Store 8) : Bool := Store.wf m

/-- Everything that is held by address is in its canonical form: memory, poison, encodings, poison tracking and flash. -/
structure State.Canonical (s : State) : Prop where
  mem : Memory.wf s.mem = true
  poison : Store.wf s.poison = true
  enc : Store.wf s.enc = true
  prot : Store.wf s.prot = true
  flash : Memory.wf s.boot.flash = true

/-- A group has its 32 lanes, 0 to 31 (R13, R14). -/
def Group.Whole (G : Group) : Prop := G.lanes.map (·.1) = List.range 32

/-- Every group of every team has its 32 lanes. -/
def State.Whole (s : State) : Prop := ∀ T ∈ s.teams, ∀ G ∈ T.2.groups, G.2.Whole

/-! ## When a word has its effect -/

/-- What R149 step 1 asks of the machine for some words: LAUNCH by group 0 (R37), SIGN of a set that holds the group
(R221), ERET by the whole handler (R265), a code address for SYSWR %handler (R165), a matrix word at the beginning of
a run (R228). -/
def Ctx.ownCheck (c : Ctx) : Instr → Bool
  | .launch _ _ _ => c.g == 0
  | .sign _ m => m.getLsbD (c.g % 4)
  | .eret => c.wholeHandler
  | .syswr _ d r => r.toNat != 0x020 || codeAddress (c.grp.sPair d.num)
  | .mma _ _ _ _ _ _ _ _ => c.grp.runPos == 0
  | .mmaz _ _ _ _ _ _ _ _ => c.grp.runPos == 0
  | _ => true

/-- The checks of R149 step 1 for a word: its fields, R350's bar inside a handler, and `ownCheck`. -/
def Ctx.stepOne (c : Ctx) (i : Instr) : Bool := i.legal && c.ownCheck i && !(barredInside i && 0 < c.level)

/-- The fragment c holds the issue slot, and neither R350 nor R29 has it wait at a word. -/
structure Issues (s : State) (c : Ctx) (i : Instr) : Prop where
  issuer : s.issuer = some c
  inside : heldOutside i = true → c.grp.handlers.length ≤ c.level
  free : holdPoint i = true → c.grp.mustHold c.level c.key c.lanes c.pc = false

/-- Nothing keeps a word of the issuing fragment c from its effect: it issues, and the three steps of R149 pass. (Its
group has its 32 lanes: what every step keeps.) What a word's own entry asks for besides stands in the statement about
the word. -/
structure Executes (s : State) (c : Ctx) (i : Instr) : Prop extends Issues s c i where
  whole : c.grp.Whole
  legal : c.stepOne i = true
  registers : i.regRange c.team.regs c.team.ztiles = none
  uniform : i.kind = .uniform → c.grp.uq.lost i.latches = none
  lanes : i.kind = .lane → ∀ l ∈ c.lanes, (c.grp.lane l).q.lost i.latches = none

/-! ## The state after a word -/

/-- The group when some lanes have gone on from a word to their targets: each lane's program counter moves, its place in
its run is the next one, or the start when the word ended the run (R21), what held it back is over, and replies it
waited for are used up. -/
def Group.goOn (G : Group) (ls : List Nat) (target : Nat → Nat) (e : Bool) : Group :=
  { (G.mapLanes ls (fun l L => L.advance (target l) (if e then 0 else G.runPos + 1))).dropReplies ls with
    runMask := if e then 0 else laneMask ls, runPos := G.runPos + 1 }

/-- The state when a word's fragment has had an effect on its group and gone on to given words; nothing else of the
machine changes. -/
def State.afterTo (s : State) (c : Ctx) (i : Instr) (target : Nat → Nat) (f : Group → Group) : State :=
  s.modGroup c.t c.g fun G => (f G).goOn c.lanes target i.ends

/-- As `afterTo`, every active lane going on to the next word. -/
def State.after (s : State) (c : Ctx) (i : Instr) (f : Group → Group) : State :=
  s.afterTo c i (fun _ => c.pc + 4) f

/-- As `after`, with an effect on each active lane alone. -/
def State.afterLanes (s : State) (c : Ctx) (i : Instr) (f : Nat → Lane → Lane) : State :=
  s.after c i fun G => G.mapLanes c.lanes f

/-! ## The results of a word's fragment -/

/-- Every fragment that can execute a lane word completes it: each active lane's destination and q1 take the result,
and nothing else of the machine changes (R172). The result is a function of what the operand codes read as for that
lane. -/
def LaneGives (s : State) (i : Instr) (d : Opd) (r : (Opd → Word) → Word) : Prop :=
  ∀ c, Executes s c i → exec i s = .next (s.afterLanes c i fun _ L => L.result d (r (c.grp.laneVal L)))

/-- As `LaneGives`, for an instruction that raises flags in the lane's sticky status (R50): the result's bits, and the
flags. -/
def LaneGivesF (s : State) (i : Instr) (d : Opd) (r : (Opd → Word) → Nat × Flags) : Prop :=
  ∀ c, Executes s c i → exec i s = .next (s.afterLanes c i fun _ L =>
    L.resultF d (BitVec.ofNat 32 (r (c.grp.laneVal L)).1) (r (c.grp.laneVal L)).2)

/-- Every fragment that can execute a uniform word completes it: the group's destination and uniform q1 take the
result (R155). -/
def UniGives (s : State) (i : Instr) (d : Opd) (r : (Opd → Word) → Word) : Prop :=
  ∀ c, Executes s c i → exec i s = .next (s.after c i fun G => G.result d (r c.grp.uniVal))

/-- Every fragment that can execute a cross-lane word completes it (R187): a lane's result and flags are a function of
A, which is the active set when no lane of it traps, and of what the operand codes read as in each lane before any
write. -/
def CrossGives (s : State) (i : Instr) (d : Opd) (r : List Nat → (Opd → Nat → Word) → Nat → Word × Flags) : Prop :=
  ∀ c, Executes s c i → exec i s = .next (s.afterLanes c i fun l L =>
    L.resultF d (r c.lanes c.laneValue l).1 (r c.lanes c.laneValue l).2)

/-! ## One rounding of an exact value (R47, R53) -/

/-- The value of a finite code in units of the format's smallest subnormal. -/
def Fmt.units (f : Fmt) (a : Nat) : Int :=
  let ex := a / 2 ^ f.frac % 2 ^ f.exp
  let m : Int := ((if ex = 0 then a % 2 ^ f.frac else (2 ^ f.frac + a % 2 ^ f.frac) * 2 ^ (ex - 1) : Nat) : Int)
  if a / 2 ^ (f.exp + f.frac) % 2 = 1 then -m else m

/-- A code of the format that is no infinity and no NaN. -/
def Fmt.Finite (f : Fmt) (a : Nat) : Prop := a < 2 ^ (1 + f.exp + f.frac) ∧ a / 2 ^ f.frac % 2 ^ f.exp ≠ 2 ^ f.exp - 1

/-- How many units of the format are 1, as a power of 2. -/
def Fmt.one (f : Fmt) : Nat := f.bias - 1 + f.frac

/-- A result is the exact value num / den units, rounded once to the nearest finite code, of two equally near ones to
the one whose last bit is 0, with NX exactly when it is not exact; from half a last place beyond the largest finite
value on it is the infinity of its sign, with OF and NX (R47, R50). -/
def RoundsOnce (f : Fmt) (num : Int) (den : Nat) (r : Nat × Flags) : Prop :=
  let largest : Nat := (2 ^ (f.frac + 1) - 1) * 2 ^ (2 ^ f.exp - 3)
  let off (a : Nat) : Nat := (num - den * f.units a).natAbs
  if 2 * num.natAbs < den * (2 * largest + 2 ^ (2 ^ f.exp - 3)) then
    f.Finite r.1 ∧
    (∀ a, f.Finite a → off r.1 ≤ off a ∧ (off r.1 = off a → f.units a ≠ f.units r.1 → r.1 % 2 = 0)) ∧
    (r.2 &&& flagNX ≠ 0 ↔ off r.1 ≠ 0) ∧ r.2 &&& flagOF = 0
  else r = (f.signed (decide (num < 0)) f.inf, flagOF ||| flagNX)

/-- The integer that a mode makes of num / den (R53, R54). -/
def IntRounds (mode : RMode) (num : Int) (den : Nat) (r : Int) : Prop :=
  let off : Int := num - den * r
  match mode with
  | .rne => 2 * off.natAbs ≤ den ∧ (2 * off.natAbs = den → r % 2 = 0)
  | .rz => if 0 ≤ num then 0 ≤ off ∧ off < den else -(den : Int) < off ∧ off ≤ 0
  | .ru => -(den : Int) < off ∧ off ≤ 0
  | .rd => 0 ≤ off ∧ off < den
  | .ro => off.natAbs < den ∧ (off ≠ 0 → r % 2 = 1)

/-- A result code with its flags is num / den (in units of the smallest subnormal) rounded once by a mode (R53): to the
next finite value in the mode's direction, for ro to the neighbour whose last bit is 1, with NX exactly when it is not
exact. Beyond the largest finite value it is the infinity where the mode goes that way, with OF and NX, else the largest
finite value, with OF too once the value reaches the next power of two. -/
def RoundsBy (mode : RMode) (f : Fmt) (num : Int) (den : Nat) (r : Nat × Flags) : Prop :=
  if mode = .rne then RoundsOnce f num den r else
  let largest : Nat := (2 ^ (f.frac + 1) - 1) * 2 ^ (2 ^ f.exp - 3)
  let off (a : Nat) : Int := num - den * f.units a
  let under : Prop := 0 ≤ off r.1 ∧ ∀ a, f.Finite a → 0 ≤ off a → off r.1 ≤ off a
  let above : Prop := off r.1 ≤ 0 ∧ ∀ a, f.Finite a → off a ≤ 0 → off a ≤ off r.1
  let up : Prop := mode = .ru ∨ mode = .rz ∧ num < 0
  if num.natAbs ≤ den * largest then
    f.Finite r.1 ∧ (mode ≠ .ro → (up → above) ∧ (¬up → under)) ∧
    (mode = .ro → (under ∨ above) ∧ (off r.1 ≠ 0 → r.1 % 2 = 1)) ∧
    (r.2 &&& flagNX ≠ 0 ↔ off r.1 ≠ 0) ∧ r.2 &&& flagOF = 0
  else
    r = if mode = .ru ∧ 0 < num ∨ mode = .rd ∧ num < 0 then (f.signed (decide (num < 0)) f.inf, flagOF ||| flagNX)
      else (f.signed (decide (num < 0)) f.maxFinite,
        if num.natAbs < den * (largest + 2 ^ (2 ^ f.exp - 3)) then flagNX else flagOF ||| flagNX)

/-! ## Narrow formats (R55 to R57) -/

/-- The magnitude that the index of a code without its sign stands for in a format with E ≥ 1, in units of 2^−400, the
exponent field taken as unbounded above (R57). -/
def Desc.size (d : Desc) (i : Nat) : Nat :=
  let k : Nat := (401 - d.bias - d.m).toNat
  if i < 2 ^ d.m then i * 2 ^ k else (2 ^ d.m + i % 2 ^ d.m) * 2 ^ (k + (i / 2 ^ d.m - 1))

/-- The value of a code in units of 2^−400, none for a NaN: R57's table. -/
def Desc.worth (d : Desc) (code : Nat) : Option Int :=
  let c := code % 2 ^ d.bits
  let i := c % 2 ^ (d.e + d.m)
  let neg : Prop := d.s = 1 ∧ 2 ^ (d.bits - 1) ≤ c
  if d.e = 0 then
    some ((if neg then (c : Int) - (2 ^ d.bits : Nat) else c) * (2 ^ (400 - d.bias).toNat : Nat))
  else if d.spec = 1 ∧ 2 ^ d.e - 1 ≤ i / 2 ^ d.m ∨ d.spec = 2 ∧ neg ∧ i = 0 then none
  else
    let size : Nat := if i < 2 ^ d.m ∧ d.sub = false then 0 else d.size i
    some (if neg then -(size : Int) else size)

/-- The index that a mode chooses for a magnitude, in a format with E ≥ 1 (R53, R57): among the codes without their sign,
the exponent field taken as unbounded above; `out` says that the mode goes away from zero for the value's sign. -/
def Desc.Chooses (d : Desc) (mode : RMode) (out : Prop) (mag i : Nat) : Prop :=
  let code (j : Nat) : Prop := d.sub = true ∨ j = 0 ∨ 2 ^ d.m ≤ j
  let dist (j : Nat) : Nat := ((mag : Int) - d.size j).natAbs
  let under : Prop := d.size i ≤ mag ∧ ∀ j, code j → d.size j ≤ mag → d.size j ≤ d.size i
  let above : Prop := mag ≤ d.size i ∧ ∀ j, code j → mag ≤ d.size j → d.size i ≤ d.size j
  code i ∧ match mode with
  | .rne => ∀ j, code j → dist i ≤ dist j ∧ (dist i = dist j → j ≠ i → i % 2 = 0 ∧ (j % 2 = 0 → i = 0))
  | .rz => under
  | .ro => (under ∨ above) ∧ (d.size i ≠ mag → i % 2 = 1 ∨ i = 2 ^ d.m ∧ d.sub = false ∧ mag < d.size i)
  | .ru => (out → above) ∧ (¬out → under)
  | .rd => (out → above) ∧ (¬out → under)

/-- A code with its flags is a nonzero value, in units of 2^−400, converted to a narrow format by a mode (R57). UF, which
E ≥ 1 alone has, goes with an inexact result below the smallest normal value (R51: what rounds up to it is left to the
model's function). -/
def Desc.Converts (d : Desc) (mode : RMode) (v : Int) (r : Nat × Flags) : Prop :=
  let neg : Bool := decide (v < 0)
  if neg = true ∧ d.s = 0 then r = (0, flagSAT ||| flagNX)
  else if d.e = 0 then
    let unit : Nat := 2 ^ (400 - d.bias).toNat
    let hi : Int := (2 ^ (d.bits - d.s) : Nat) - 1
    let lo : Int := if d.s = 1 then -(2 ^ d.m : Nat) else 0
    ∃ n : Int, IntRounds mode v unit n ∧
      r.1 = (max lo (min hi n) % (2 ^ d.bits : Nat)).toNat ∧
      r.2 = if n < lo ∨ hi < n then flagSAT ||| flagNX else if v = n * unit then 0 else flagNX
  else
    let least : Nat := d.size (2 ^ d.m)
    let last : Nat := if d.spec = 1 then (2 ^ d.e - 1) * 2 ^ d.m - 1 else 2 ^ (d.e + d.m) - 1
    ∃ i : Nat, d.Chooses mode (mode = .ru ∧ 0 < v ∨ mode = .rd ∧ v < 0) v.natAbs i ∧
      r.1 = (if i = 0 ∧ d.spec = 2 then 0 else (if neg then 2 ^ (d.bits - 1) else 0) + min i last) ∧
      r.2 &&& ~~~ flagUF = (if last < i then flagSAT ||| flagNX else if d.size i = v.natAbs then 0 else flagNX) ∧
      (least ≤ v.natAbs ∨ d.size i = v.natAbs → r.2 &&& flagUF = 0) ∧
      (2 ^ (d.m + 1) * v.natAbs ≤ (2 ^ (d.m + 1) - 1) * least → d.size i ≠ v.natAbs → r.2 &&& flagUF ≠ 0)

/-! ## The combining trees of R64 and R65, lane by lane -/

/-- Comb(a, b) of R64 with the flags it raises; an absent lane is skipped. -/
def comb (op : Nat → Nat → Nat × Flags) : Option Nat → Option Nat → Option Nat × Flags
  | none, b => (b, 0)
  | a, none => (a, 0)
  | some a, some b => (some (op a b).1, (op a b).2)

/-- One round of SCAN: u[i] ← Comb(t[i − d], t[i]) if i ≥ d, else t[i], for i from 0 to 31; the flags of every step are
ORed. -/
def scanStep (op : Nat → Nat → Nat × Flags) (t : (Nat → Option Nat) × Flags) (d : Nat) : (Nat → Option Nat) × Flags :=
  (fun i => if d ≤ i then (comb op (t.1 (i - d)) (t.1 i)).1 else t.1 i,
    (List.range 32).foldl (fun f i => if d ≤ i then f ||| (comb op (t.1 (i - d)) (t.1 i)).2 else f) t.2)

/-- One round of RED: t[i] ← Comb(t[i], t[i + d]) for each i from 0 to 31 with i mod 2d = 0. -/
def redStep (op : Nat → Nat → Nat × Flags) (t : (Nat → Option Nat) × Flags) (d : Nat) : (Nat → Option Nat) × Flags :=
  (fun i => if i % (2 * d) = 0 then (comb op (t.1 i) (t.1 (i + d))).1 else t.1 i,
    (List.range 32).foldl (fun f i => if i % (2 * d) = 0 then f ||| (comb op (t.1 i) (t.1 (i + d))).2 else f) t.2)

/-- The combining functions of R189 by their code, on the bits of two values. -/
def combiner (code : Nat) (a b : Nat) : Nat × Flags :=
  let x : Word := BitVec.ofNat 32 a
  let y : Word := BitVec.ofNat 32 b
  match code with
  | 0 => ((x + y).toNat, 0)
  | 1 => ((if x.toInt ≤ y.toInt then y else x).toNat, 0)
  | 2 => ((if x.toNat ≤ y.toNat then y else x).toNat, 0)
  | 3 => ((if x.toInt ≤ y.toInt then x else y).toNat, 0)
  | 4 => ((if x.toNat ≤ y.toNat then x else y).toNat, 0)
  | 5 => ((x ||| y).toNat, 0)
  | 8 => fadd f32 a b
  | 9 => fminmax f32 true a b
  | _ => fminmax f32 false a b

/-- The values the trees start from: those of A, for a float function with each NaN made canonical and NV for a
signalling one (R189). -/
def treeInputs (code : Nat) (A : List Nat) (v : Nat → Word) : (Nat → Option Nat) × Flags :=
  let nan (l : Nat) : Bool := 8 ≤ code && 0x7F800000 < (v l).toNat % 2 ^ 31
  (fun l => if l ∈ A then some (if nan l then 0x7FC00000 else (v l).toNat) else none,
    if A.any (fun l => nan l && !(v l).getLsbD 22) then flagNV else 0)

/-! ## Accesses of the lanes, one after another -/

/-- Lanes one after another, each by a step of the relation from the state the one before left. -/
inductive Chain (R : State → Nat → State → Prop) : List Nat → State → State → Prop
  | nil (s : State) : Chain R [] s s
  | cons {s u t : State} {l : Nat} {ls : List Nat} : R s l u → Chain R ls u t → Chain R (l :: ls) s t

/-- Each lane's access of n bytes at its address a passes the checks of R191 and comes to lie at the places ps: t is the
state that the page walks left (A and D bits, translation caches). An access that began when its word issued before, and
waited for another device, lies where it did then, with no walk (DEDUCED, log 41). -/
def Reaches (c : Ctx) (k : ReqKind) (n : Nat) (a : Nat → Nat) (ps : Nat → List Place) : List Nat → State → State → Prop :=
  Chain (fun s l u => ∃ io, lanePath s c k l (a l) n = .ok u (ps l) io)

/-- Nothing of an access of a kind still has to come from another device (R380): no byte is remote, or the replies are
there and mark none of its bytes as poisoned (R346). -/
def Ctx.Here (c : Ctx) (kind : ReqKind) (l : Nat) (ps : List Place) : Prop :=
  remoteState c.grp.remote kind l ps = .ready ∧ remoteLost c.grp.remote kind l ps = false

/-- The value of the bytes at some places, lowest first, as a load of the group reads them: its own latest store to each
byte where its store FIFO holds one; else as its piece or sector was noted for the group (R94, R99; DESIGN CHOICE, log 6);
else what its team sees (R193). -/
def State.loadedAt (s : State) (c : Ctx) (l : Nat) (ps : List Place) : Nat :=
  leValue (ps.map (s.byteBy c .read l (s.loadPlace c)))

/-- The old value of an atomic that a lane makes at some places: from the reply where they lie in another device's
memory, else as the group reads them. -/
def State.oldAt (s : State) (c : Ctx) (l : Nat) (ps : List Place) : Nat :=
  leValue (ps.map (s.byteBy c .atomic l (s.readPlace c)))

/-- The state when an atomic of a lane has written a value of n bytes at some places: the sector is read afresh from then on
(R99), and for this device's own memory its Steward keeps the old value as the reply (R380; DEDUCED, log 40). -/
def State.exchanged (s : State) (c : Ctx) (ps : List Place) (n old new : Nat) : State :=
  let t := (s.performBytes c.t (ps.zip (toBytes n new))).dropEarly c.t (sectorsOf ps)
  match ps.head? with
  | some (.phys pa) => if remotePa pa = true then t else t.keepOwn c.team.pcore pa old
  | _ => t

/-- A store's bytes that lie in this device: those in another device's memory were written there by request (R378). -/
def localBytes (bs : List (Place × Byte)) : List (Place × Byte) := bs.filter (fun b => !b.1.remote)

/-- The bytes that the lanes of one store leave, lane by lane in ascending order: a later lane's byte takes the place of
an earlier one's (R93, R194). -/
def storedBytes (bs : Nat → List (Place × Byte)) (ls : List Nat) : List (Place × Byte) :=
  ls.foldl (fun acc l => acc.filter (fun x => !((bs l).any (fun y => y.1 == x.1))) ++ bs l) []

/-- The group with a store instruction's bytes as the last entry of its FIFO; one that stored nothing makes none. -/
def Group.pushStore (G : Group) (bs : List (Place × Byte)) : Group :=
  if bs = [] then G else { G with fifo := G.fifo ++ [⟨bs⟩] }

/-- The active lanes whose stores and requests have an effect: helper lanes' have none (R132). -/
def Ctx.storers (c : Ctx) : List Nat := c.lanes.filter (fun l => !(c.grp.lane l).helper)

/-- The element probes of a lane (R82), from a level on and with the code that a hit there has: the first level whose
element is read gives the data; one whose page does not translate leads to the next, with code RACE; past the last
level the data is 0, the level 15 and the code NONE. -/
inductive Probes (element : State → Nat → Got) (levels : Nat) :
    State → Nat → Nat → State → Nat → Nat → Nat → Prop
  | hit {s u : State} {level code : Nat} {bs : List Byte} : level < levels → element s level = .val u bs →
      Probes element levels s level code u (leValue bs) level code
  | coarser {s u w : State} {level code va v at_ last : Nat} {k : AccKind} {f : XFail} : level < levels →
      element s level = .stop (.park u va k f) → Probes element levels u (level + 1) 2 w v at_ last →
      Probes element levels s level code w v at_ last
  | none {s : State} {code : Nat} : Probes element levels s levels code s 0 15 3

/-! ## Arrivals, releases and ends re-examined -/

/-- A group of a team re-examined (R39, R208, R214): handlers that no live lane is in end, its WAITs are examined, it ends when
none of its lanes lives; when every live lane is then held and some at a barrier, it arrives or, with lanes in a WAIT or at two
words, its lanes at barriers trap BAR_DIVERGED (lanes outside a running handler do not: R350). -/
def GroupSettles (t : Nat) (s : State) (g : Nat) (u : State) : Prop :=
  let w := ((s.settleHandlers t g 3).settleWaits t g).modGroup t g Group.settleEnd
  (w.groupAt t g = none → u = w) ∧
  ∀ G, w.groupAt t g = some G →
    let bars := G.liveLanes.filter (fun l => (G.lane l).atBarrier)
    let first := G.lane (bars.headD 0)
    let traps (sub : Nat) : State := if G.handlers = [] then w.trapHeld t g bars causeBarDiverged (divergedInfo G bars sub) else w
    if bars = [] ∨ ∃ l ∈ G.liveLanes, (G.lane l).atBarrier = false ∧ (G.lane l).atWait = false then u = w
    else if ∃ l ∈ G.liveLanes, (G.lane l).atWait = true then u = traps 1
    else if ∃ l ∈ bars, (G.lane l).pc ≠ first.pc then u = traps 2
    else ∀ b count, first.hold = .barrier b count → u = w.countArrival t g b count G.liveLanes

/-- A team re-examined once: group after group, then its barriers, then its convergence registers (R221). -/
def TeamSettles (t : Nat) (s u : State) : Prop :=
  (Tab.get? s.teams t = none → u = s) ∧
  ∀ T, Tab.get? s.teams t = some T → ∃ v w, Chain (GroupSettles t) (T.groups.map (·.1)) s v ∧
    Chain (fun x b y => y = x.settleBarrier t b) (List.range 17) v w ∧ u = w.modTeam t Team.settleConv

/-- A team re-examined until a pass changes nothing that another would act on, in at most 64 passes. -/
def Settles (t : Nat) (s u : State) : Prop :=
  ∃ (n : Nat) (pass : Nat → State), pass 0 = s ∧ pass (n + 1) = u ∧ n < 64 ∧ (∀ k ≤ n, TeamSettles t (pass k) (pass (k + 1))) ∧
    (n + 1 < 64 → (Tab.get? (pass (n + 1)).teams t).map Team.pulse = (Tab.get? (pass n).teams t).map Team.pulse)

/-! ## Page tables (R326, R327) -/

/-- Where the entry for an address stands in the table of a level. -/
def pteAt (va level ppn : Nat) : Nat := 4096 * ppn + 8 * (va / 2 ^ (12 + 9 * level) % 2 ^ 9)

/-- An entry is malformed at a level (R327); a pointer at level 0 counts as one (DEDUCED, log 17). -/
def Malformed (e level : Nat) : Prop :=
  let f (lo n : Nat) : Nat := e / 2 ^ lo % 2 ^ n
  f 63 1 = 1 ∨ f 60 1 = 1 ∨ f 61 2 = 3 ∨ f 57 2 = 3 ∨ (f 2 1 = 1 ∧ f 1 1 = 0) ∨
    (f 1 3 = 0 ∧ (f 54 10 ≠ 0 ∨ f 7 1 = 1 ∨ f 6 1 = 1 ∨ f 4 1 = 1 ∨ level = 0)) ∨
    (f 1 3 ≠ 0 ∧ (level = 4 ∨ f 10 (9 * level) ≠ 0))

/-- The walk for an address comes from the root to the table at a page of a level: every entry on the way is a good
pointer. -/
inductive Descends (s : State) (sp : Space) (va : Nat) : Nat → Nat → Prop
  | root : Descends s sp va 4 sp.root.toNat
  | pointer {level ppn : Nat} : Descends s sp va (level + 1) ppn →
      s.poisoned (pteAt va (level + 1) ppn) = false → s.ownRange sp.part (pteAt va (level + 1) ppn) 8 = true →
      s.physValue (pteAt va (level + 1) ppn) 8 % 2 = 1 → s.physValue (pteAt va (level + 1) ppn) 8 / 2 % 8 = 0 →
      ¬Malformed (s.physValue (pteAt va (level + 1) ppn) 8) (level + 1) →
      Descends s sp va level (s.physValue (pteAt va (level + 1) ppn) 8 / 2 ^ 10 % 2 ^ 44)

/-! ## The engines' stages (R255, R274) -/

/-- A stream of whole tokens takes an output from what it is to what it becomes (R274): a literal appends its bytes; a match
appends bytes of the output so far, its own among them, from d back on. -/
inductive Expands : List Byte → List Byte → List Byte → Prop
  | done (out : List Byte) : Expands [] out out
  | literal {t : Byte} {bs rest out w : List Byte} : t.toNat < 128 → bs.length = t.toNat + 1 →
      Expands rest (out ++ bs) w → Expands (t :: (bs ++ rest)) out w
  | back {t d : Byte} {cs rest out w : List Byte} : 128 ≤ t.toNat → d.toNat + 1 ≤ out.length → cs.length = t.toNat - 127 →
      (∀ j, j < cs.length → (out ++ cs)[out.length - (d.toNat + 1) + j]? = cs[j]?) →
      Expands rest (out ++ cs) w → Expands (t :: d :: rest) out w

/-- Codes of a width packed into bytes: two 4-bit codes to a byte, the even one in the low half (R57), wider ones lowest byte
first. -/
def packedCodes (bits : Nat) : List Nat → List Byte
  | [] => []
  | a :: rest =>
    if bits = 4 then match rest with
      | [] => []
      | b :: rest => BitVec.ofNat 8 (a + 16 * b) :: packedCodes bits rest
    else toBytes (bits / 8) a ++ packedCodes bits rest

/-- A stage value is one of R255's, its end excluded: no other bit is set, and a descriptor where there is one is valid. -/
def GoodStage (st : Nat) : Prop :=
  let f (lo n : Nat) : Nat := st / 2 ^ lo % 2 ^ n
  let narrow : Prop := descValid (BitVec.ofNat 32 (f 32 32)) = true
  match st % 2 ^ 8 with
  | 1 => f 8 56 = 0
  | 2 => f 8 3 ≤ 3 ∧ f 12 3 ≤ 3 ∧ ¬(f 8 3 = 3 ∧ f 12 3 = 3) ∧ f 16 3 ≤ 4 ∧ f 11 1 = 0 ∧ f 15 1 = 0 ∧ f 19 13 = 0 ∧
      if f 8 3 = 3 ∨ f 12 3 = 3 then narrow else f 32 32 = 0
  | 3 => f 8 3 ≤ 3 ∧ f 11 5 = 0 ∧ f 48 16 = 0
  | 4 => f 8 24 = 0 ∧ narrow
  | _ => False

/-- Some stage values make a chain: good stages up to the first end, and nothing but zeros from there. -/
def IsChain (values chain : List Nat) : Prop :=
  (∀ st ∈ chain, GoodStage st) ∧ ∃ n, values = chain ++ List.replicate n 0

/-- Lengths that a stage can take to one another (R255, R259): whole elements for CVT, the matrix's for TRANS, whole blocks for
EXPAND; a DICT stage's are not known before its data are read. -/
def StageFits (st a b : Nat) : Prop :=
  let f (lo n : Nat) : Nat := st / 2 ^ lo % 2 ^ n
  let narrow : Nat := if (Desc.ofWord (BitVec.ofNat 32 (f 32 32))).c = true then 4 else 8
  let width (t : Nat) : Nat := if t = 0 then 32 else if t < 3 then 16 else narrow
  match st % 2 ^ 8 with
  | 1 => True
  | 2 => ∃ n, 8 * a = n * width (f 8 3) ∧ 8 * b = n * width (f 12 3)
  | 3 => a = (f 16 16 + 1) * (f 32 16 + 1) * 2 ^ f 8 3 ∧ b = a
  | _ => ∃ n, 8 * a = n * (8 + 16 * narrow) ∧ b = 64 * n

/-- Lengths that a chain can take to one another, stage by stage. -/
def ChainFits : List Nat → Nat → Nat → Prop
  | [], a, b => a = b
  | st :: sts, a, b => ∃ m, StageFits st a m ∧ ChainFits sts m b

/-- The checks of a job's addresses in their order (R259): canonical ranges that end by 2^64, the barrier object within the
limit, ranges that meet the window within it, and no overlap of a job with stages; else it is accepted. -/
def JobChecked (limit k : Nat) (j : Job) (got : Except TrapWhy Job) : Prop :=
  let runs (a n : Nat) : Prop := canonical a = true ∧ a + n ≤ 2 ^ 64
  let fits (a n : Nat) : Prop := n = 0 ∨ a + n ≤ windowBase ∨ windowBase ≤ a ∧ a + n ≤ windowBase + limit
  let shared : Prop := ∃ x, j.src ≤ x ∧ x < j.src + j.srcLen ∧ j.dst ≤ x ∧ x < j.dst + j.dstLen
  (¬(runs j.src j.srcLen ∧ runs j.dst j.dstLen) → got = .error (0x11, 3 + 16 * k)) ∧
  (runs j.src j.srcLen → runs j.dst j.dstLen →
    (limit < 16 * j.bobj + 16 → got = .error (0x11, 4 + 16 * k)) ∧
    (16 * j.bobj + 16 ≤ limit →
      (¬fits j.src j.srcLen → got = .error (0x06, scratchInfo j.src j.srcLen limit + k * 2 ^ 20)) ∧
      (fits j.src j.srcLen → ¬fits j.dst j.dstLen →
        got = .error (0x06, scratchInfo j.dst j.dstLen limit + k * 2 ^ 20)) ∧
      (fits j.src j.srcLen → fits j.dst j.dstLen →
        (j.stages ≠ [] → shared → got = .error (0x09, 16 * k)) ∧ (j.stages = [] ∨ ¬shared → got = .ok j))))

/-! ## Context areas (R358 to R361) -/

/-- A group block of a context area is right (R359 to R361): fields that are zero, %traplevel and %trapcause within their ranges,
MEMB and k0 to k11 as one state, lane records with HOLD at most 3 and a FRAG that names itself, and 56-bit tile slots. -/
def GoodGroup (s : State) (pa regs tiles : Nat) : Prop :=
  let val (o n : Nat) : Nat := s.physValue (pa + o) n
  let rec_ (l lo n : Nat) : Nat := val (0x180 + 16 * l) 16 / 2 ^ lo % 2 ^ n
  val 0x140 4 ≤ 2 ∧ val 0x144 4 < 256 ∧ val 0x14C 4 = 0 ∧ val 0x158 40 = 0 ∧ val 0x380 128 = 0 ∧
  (∀ l < 32, rec_ l 48 16 = 0 ∧ rec_ l 17 15 = 0 ∧ rec_ l 33 3 ≤ 3 ∧ rec_ (rec_ l 12 5) 12 5 = rec_ l 12 5 ∧
    ∀ j < 12, rec_ l j 1 = val (0xF0 + 4 * j) 4 / 2 ^ l % 2) ∧
  ∀ i < 1024 * tiles, val (0x400 + 128 * regs + 8 * i + 7) 1 = 0

/-- A team block is right beside the packets of the area's grids: the index of one of them, sizes in range that are the
packet's (a work graph's nodes have packets of their own), numbers in range, fields that are zero, and right groups. -/
def GoodBlock (s : State) (p ncore : Nat) (packets : List (BitVec 1024)) (h : BlockHead) : Prop :=
  let val (o n : Nat) : Nat := s.physValue (h.at_ + o) n
  [h.grid, h.index, h.core, h.cluster, h.groups, h.regs, h.tiles, h.limit] = (List.range 8).map (fun j => val (4 * j) 4) ∧
  h.shapes = val 0x28 8 ∧ 1 ≤ h.groups ∧ h.groups ≤ 32 ∧ h.regs % 8 = 0 ∧ 8 ≤ h.regs ∧ h.regs ≤ 192 ∧ h.tiles ≤ 64 ∧
  h.limit ≤ 524288 ∧ h.limit % 4096 = 0 ∧ s.ownRange p h.at_ 0x1A00 = true ∧ s.ownRange p h.at_ h.size = true ∧
  (∃ pk, packets[h.grid]? = some pk ∧ (pkGraph pk = 0 → h.groups = pkGroups pk ∧ h.regs = pkRegs pk ∧ h.tiles = pkTiles pk ∧
    h.limit = pkLimit pk ∧ h.index < pkTeams pk)) ∧
  h.core < ncore ∧ h.cluster = h.core / 8 ∧ val 0x30 16 = 0 ∧ val 0xC8 56 = 0 ∧
  (∀ b < 17, val (0x40 + 8 * b + 6) 2 = 0 ∧ val (0x40 + 8 * b) 8 / 2 ^ 38 % 4 = 0 ∧
    val (0x40 + 8 * b) 8 / 2 ^ 32 % 2 ^ 6 ≤ if b = 16 then 0 else 32) ∧
  (∀ c < 8, val (0x100 + 32 * c + 20) 12 = 0 ∧ val (0x100 + 32 * c + 3) 1 = 0 ∧ val (0x100 + 32 * c) 1 < 2) ∧
  (∀ k < 64, h.shapes.testBit k = false → val (0x200 + 96 * k) 96 = 0) ∧
  ∀ g < h.groups, GoodGroup s (h.at_ + 0x1A00 + g * (1024 + 128 * h.regs + 8192 * h.tiles)) h.regs h.tiles

/-- A context area is right, and holds some grids and blocks (R358, R361): the header, a record for each grid with a packet of
R170, a parent among the others or none, and counts that agree with the area, then the blocks one after another; all of it
in memory that the partition may use (R407; DEDUCED, log 48). -/
def GoodArea (s : State) (p base : Nat) (recs : List GridRec) (heads : List BlockHead) : Prop :=
  let val (o n : Nat) : Nat := s.physValue (base + o) n
  val 0 2 = 0xC7A5 ∧ val 2 2 = 1 ∧ val 16 2 = 0 ∧ val 20 236 = 0 ∧
  recs.length = val 4 4 ∧ heads.length = val 8 4 ∧ s.ownRange p base (256 + 256 * recs.length) = true ∧
  (∀ i r, recs[i]? = some r →
    let o := 256 + 256 * i
    r = ⟨BitVec.ofNat 1024 (val o 128), val (o + 0x80) 4, val (o + 0x84) 4, val (o + 0x88) 4, val (o + 0x8C) 4, val (o + 0x90) 4⟩ ∧
    val (o + 0x94) 108 = 0 ∧ packetStatus r.packet = 0 ∧ r.depth ≤ 10 ∧ r.next ≤ pkTeams r.packet ∧
    (r.parent = 0xFFFFFFFF ∨ r.parent < recs.length ∧ r.parent ≠ i) ∧
    r.live = (heads.filter (fun h => h.grid == i)).length ∧ r.kids = (recs.filter (fun k => k.parent == i)).length) ∧
  ∀ i h, heads[i]? = some h → h.at_ = ((heads.take i).map (·.size)).sum + base + 256 + 256 * recs.length ∧
    GoodBlock s p (val 12 4) (recs.map (·.packet)) h

/-! ## Updates of one entry -/

/-- An entry of one table, and only that, is new: the table's other entries are as they were. -/
def EntryOnly {α : Type} (m u : Tab α) (k : Nat) (a : α) : Prop :=
  Tab.get? u k = some a ∧ ∀ n, n ≠ k → Tab.get? u n = Tab.get? m n

/-- Only a partition's entry of the state is new. -/
def OnlyPart (s u : State) (p : Nat) (P : Part) : Prop :=
  u = { s with parts := u.parts } ∧ EntryOnly s.parts u.parts p P

/-- Only a queue of one partition is new. -/
def OnlyQueue (s u : State) (p q : Nat) (Q : Queue) : Prop :=
  ∃ P P', Tab.get? s.parts p = some P ∧ OnlyPart s u p P' ∧ P' = { P with queues := P'.queues } ∧
    EntryOnly P.queues P'.queues q Q

/-- Only a core's entry of the state is new. -/
def OnlyCore (s u : State) (c : Nat) (k : Core) : Prop :=
  u = { s with cores := u.cores } ∧ EntryOnly s.cores u.cores c k

/-- Only a grid's entry of the state is new. -/
def OnlyGrid (s u : State) (g : Nat) (G : Grid) : Prop :=
  u = { s with grids := u.grids } ∧ EntryOnly s.grids u.grids g G

/-- Only a team's entry of the state is new. -/
def OnlyTeam (s u : State) (t : Nat) (T : Team) : Prop :=
  u = { s with teams := u.teams } ∧ EntryOnly s.teams u.teams t T

/-! ## What every step keeps -/

/-- What every step keeps of a group: 32 lanes, canonical registers, masks, formats, tiles, predictor history and notes for
loads, and names of fragments below the next one it would give. -/
structure Group.Tidy (G : Group) : Prop where
  whole : G.Whole
  s : Store.wf G.s = true
  k : Store.wf G.k = true
  f : Store.wf G.f = true
  z : Store.wf G.z = true
  history : Store.wf G.history = true
  early : Tab.wf G.early = true
  ahead : Tab.wf G.ahead = true
  pieces : Tab.wf G.pieces = true
  v : ∀ L ∈ G.lanes, Store.wf L.2.v = true
  names : ∀ L ∈ G.lanes, L.2.frag.base < G.nextBase
  entered : ∀ h ∈ G.handlers, ∀ k ∈ h.keys, k.base < G.nextBase

/-- What every step keeps of a team: its tables and its scratchpad in canonical form, its groups tidy. -/
structure Team.Tidy (T : Team) : Prop where
  scratch : Store.wf T.scratch = true
  groups : Tab.wf T.groups = true
  steps : Tab.wf T.steps = true
  group : ∀ G ∈ T.groups, G.2.Tidy

/-- What every step keeps of the tables: keys strictly rising, teams tidy, those that saves have left too. -/
structure State.Tidy (s : State) : Prop where
  parts : Tab.wf s.parts = true
  cores : Tab.wf s.cores = true
  grids : Tab.wf s.grids = true
  teams : Tab.wf s.teams = true
  ops : Tab.wf s.ops = true
  tokens : Tab.wf s.tokens = true
  queues : ∀ P ∈ s.parts, Tab.wf P.2.queues = true
  locks : ∀ k ∈ s.cores, Tab.wf k.2.locks = true ∧ Tab.wf k.2.shapes = true
  team : ∀ T ∈ s.teams, T.2.Tidy
  shelf : ∀ x ∈ s.shelf, ∀ T ∈ x.teams, T.2.Tidy

/-! ## Frames -/

/-- The n registers from a v destination upward; "_" names none. -/
def destRegs (d : Opd) (n : Nat) : List Nat :=
  match d with
  | .v r => (List.range n).map (r.val + ·)
  | .s r => (List.range n).map (r.val + ·)
  | .q _ => []

/-- Only the issuing group of the state is new. -/
def OnlyGroup (s t : State) (c : Ctx) (R : Group → Group → Prop) : Prop :=
  t = { s with teams := t.teams } ∧ ∀ T G, Tab.get? s.teams c.t = some T → Tab.get? T.groups c.g = some G →
    ∃ T' H, EntryOnly s.teams t.teams c.t T' ∧ T' = { T with groups := T'.groups } ∧
      EntryOnly T.groups T'.groups c.g H ∧ R G H

/-- What a lane word leaves alone: the machine outside its group (memory, the scratchpad, every other team and group), of its
group everything but lanes, run, store FIFO and what was noted for its loads, of an active lane everything but the destination registers, latches and
program counter and, where the word raises flags, further status flags; of a lane that is not active, everything. -/
def LaneFrame (s t : State) (c : Ctx) (regs : List Nat) (flags : Bool) (fifo : List FifoEntry) : Prop :=
  OnlyGroup s t c fun G H =>
    H = { G with lanes := H.lanes, runMask := H.runMask, runPos := H.runPos, remote := H.remote, fifo := fifo,
                 early := H.early, began := H.began } ∧
    (∀ l, l ∉ c.lanes → H.lane l = G.lane l) ∧
    ∀ l ∈ c.lanes, H.lane l = { G.lane l with
        v := (H.lane l).v, q := (H.lane l).q, pc := (H.lane l).pc, status := (H.lane l).status, halt := (H.lane l).halt,
        stalled := (H.lane l).stalled, inRun := (H.lane l).inRun } ∧
      (∀ r, r ∉ regs → (H.lane l).vreg r = (G.lane l).vreg r) ∧
      (flags = false → (H.lane l).status = (G.lane l).status) ∧
      (G.lane l).status ||| (H.lane l).status = (H.lane l).status

/-- What a uniform register word leaves alone: the machine outside its group, of its group everything but the destination s
registers, the uniform latches and the run, and of the active lanes everything but the program counter. -/
def UniFrame (s t : State) (c : Ctx) (regs : List Nat) : Prop :=
  OnlyGroup s t c fun G H =>
    H = { G with s := H.s, uq := H.uq, lanes := H.lanes, runMask := H.runMask, runPos := H.runPos, remote := H.remote,
                 began := H.began } ∧
    (∀ r, r ∉ regs → H.sreg r = G.sreg r) ∧ (∀ l, l ∉ c.lanes → H.lane l = G.lane l) ∧
    ∀ l ∈ c.lanes, H.lane l = { G.lane l with
      pc := (H.lane l).pc, halt := (H.lane l).halt, stalled := (H.lane l).stalled, inRun := (H.lane l).inRun }

end Sys2Proof.Machine
end

