-- ==== Sys2Proof/Certificates/Slice0/Obligations.lean ====
section
/-!
DEFINITION. The statements about the model, for the provers. Each docstring says which rules of spec/ the statement
formalises, and where it rests on a choice of the model, which entry of the assumption log.
-/
open Sys2Proof Sys2Proof.Machine

/-! ## Lane instructions on registers (08_lane_arithmetic.md) -/

/-- The integer instructions of R174, for every form and every destination, "_" included: the result of each row of the
table, in the destination and in q1, with nothing else changed (R172).

ICMP gives 1 when its relation holds and 0 when not (R176); SEL gives x when d is not zero, else y (R177).

Their words (R174, R176, R177): E, the major and the fields of LA and LI. IMAC and SEL, which read d, trap ILLEGAL under
"_", and values 3 to 7 of imm8[7:5] are no instruction of major 0x13. -/
def Obligations.IntegerResults : Prop :=
  (∀ (s : State) (e : Bool) (d x y : Opd) (i : BitVec 8) (n : BitVec 5),
     LaneGives s (.iadd e d x y) d (fun V => V x + V y) ∧
     LaneGives s (.isub e d x y) d (fun V => V x - V y) ∧
     LaneGives s (.imul e d x y) d (fun V => V x * V y) ∧
     LaneGives s (.imulhI32 e d x y) d (fun V => ((V x).signExtend 64 * (V y).signExtend 64).extractLsb' 32 32) ∧
     LaneGives s (.imulhN32 e d x y) d (fun V => ((V x).setWidth 64 * (V y).setWidth 64).extractLsb' 32 32) ∧
     LaneGives s (.imac e d x y) d (fun V => V x * V y + V d) ∧
     LaneGives s (.iminI32 e d x y) d (fun V => if (V x).toInt ≤ (V y).toInt then V x else V y) ∧
     LaneGives s (.iminN32 e d x y) d (fun V => if (V x).toNat ≤ (V y).toNat then V x else V y) ∧
     LaneGives s (.imaxI32 e d x y) d (fun V => if (V x).toInt ≤ (V y).toInt then V y else V x) ∧
     LaneGives s (.imaxN32 e d x y) d (fun V => if (V x).toNat ≤ (V y).toNat then V y else V x) ∧
     LaneGives s (.and e d x y) d (fun V => V x &&& V y) ∧
     LaneGives s (.or e d x y) d (fun V => V x ||| V y) ∧
     LaneGives s (.xor e d x y) d (fun V => V x ^^^ V y) ∧
     LaneGives s (.andn e d x y) d (fun V => V x &&& ~~~ V y) ∧
     LaneGives s (.shl e d x y) d (fun V => V x <<< ((V y).toNat % 32)) ∧
     LaneGives s (.shr e d x y) d (fun V => V x >>> ((V y).toNat % 32)) ∧
     LaneGives s (.sar e d x y) d (fun V => (V x).sshiftRight ((V y).toNat % 32)) ∧
     LaneGives s (.iaddImm e d x i) d (fun V => V x + i.signExtend 32) ∧
     LaneGives s (.shlImm e d x n) d (fun V => V x <<< n.toNat) ∧
     LaneGives s (.shrImm e d x n) d (fun V => V x >>> n.toNat) ∧
     LaneGives s (.sarImm e d x n) d (fun V => (V x).sshiftRight n.toNat)) ∧
  (∀ (s : State) (e : Bool) (d x y : Opd),
     LaneGives s (.icmpEq e d x y) d (fun V => if V x = V y then 1 else 0) ∧
     LaneGives s (.icmpNe e d x y) d (fun V => if V x = V y then 0 else 1) ∧
     LaneGives s (.icmpLtI32 e d x y) d (fun V => if (V x).toInt < (V y).toInt then 1 else 0) ∧
     LaneGives s (.icmpLeI32 e d x y) d (fun V => if (V x).toInt ≤ (V y).toInt then 1 else 0) ∧
     LaneGives s (.icmpLtN32 e d x y) d (fun V => if (V x).toNat < (V y).toNat then 1 else 0) ∧
     LaneGives s (.icmpLeN32 e d x y) d (fun V => if (V x).toNat ≤ (V y).toNat then 1 else 0) ∧
     LaneGives s (.sel e d x y) d (fun V => if V d = 0 then V y else V x)) ∧
  ((∀ (e : Bool) (d x y : Opd) (i : BitVec 8) (n : BitVec 5),
     let W (major last : Nat) : Option (BitVec 32) :=
       some (BitVec.ofNat 32 (e.toNat * 2 ^ 30 + major * 2 ^ 24 + d.code * 2 ^ 16 + x.code * 2 ^ 8 + last))
     encode (.iadd e d x y) = W 0x01 y.code ∧ encode (.isub e d x y) = W 0x02 y.code ∧
     encode (.imul e d x y) = W 0x03 y.code ∧ encode (.imulhI32 e d x y) = W 0x04 y.code ∧
     encode (.imulhN32 e d x y) = W 0x05 y.code ∧ encode (.imac e d x y) = W 0x06 y.code ∧
     encode (.iminI32 e d x y) = W 0x07 y.code ∧ encode (.iminN32 e d x y) = W 0x08 y.code ∧
     encode (.imaxI32 e d x y) = W 0x09 y.code ∧ encode (.imaxN32 e d x y) = W 0x0A y.code ∧
     encode (.and e d x y) = W 0x0B y.code ∧ encode (.or e d x y) = W 0x0C y.code ∧
     encode (.xor e d x y) = W 0x0D y.code ∧ encode (.andn e d x y) = W 0x0E y.code ∧
     encode (.shl e d x y) = W 0x0F y.code ∧ encode (.shr e d x y) = W 0x10 y.code ∧
     encode (.sar e d x y) = W 0x11 y.code ∧ encode (.iaddImm e d x i) = W 0x12 i.toNat ∧
     encode (.shlImm e d x n) = W 0x13 (0 * 2 ^ 5 + n.toNat) ∧ encode (.shrImm e d x n) = W 0x13 (1 * 2 ^ 5 + n.toNat) ∧
     encode (.sarImm e d x n) = W 0x13 (2 * 2 ^ 5 + n.toNat) ∧
     encode (.icmpEq e d x y) = W 0x14 y.code ∧ encode (.icmpNe e d x y) = W 0x15 y.code ∧
     encode (.icmpLtI32 e d x y) = W 0x16 y.code ∧ encode (.icmpLeI32 e d x y) = W 0x17 y.code ∧
     encode (.icmpLtN32 e d x y) = W 0x18 y.code ∧ encode (.icmpLeN32 e d x y) = W 0x19 y.code ∧
     encode (.sel e d x y) = W 0x1A y.code) ∧
   (∀ (s : State) (c : Ctx) (e : Bool) (x y : Opd) (i : Instr), (i = .imac e (.q 3) x y ∨ i = .sel e (.q 3) x y) →
     Issues s c i → exec i s = .next (trapWord s c causeIllegal 0)) ∧
   (∀ w : BitVec 32, w.toNat / 2 ^ 31 = 0 → w.toNat / 2 ^ 24 % 2 ^ 6 = 0x13 → 3 ≤ w.toNat / 2 ^ 5 % 2 ^ 3 →
     ∃ err, decodeWord w = .error err))

/-- LEA, BFX and BFI (R178, R179). LEA's pair is the pair of x plus the sign-extended index, modulo 2^64, and q1 its
low word. With p = b[4:0], n = b[12:8] and w the width of bits p to min(p + n, 32) − 1, BFX gives field bits j < w of
a at bit p + j and copies of bit w − 1 (when b[16] is set and w is not 0) or zeros above; BFI replaces exactly the
bits p to p + w − 1 of d.

The one-source integer functions of R180, bit by bit: IABS, CLZ, POPC, BREV, BINT2, BINT3, BDEINT3 and LANEID.

The words of LEA, BFX and BFI (R178, R179). LEA traps ILLEGAL with an odd d or x, a latch code or "_" in d or x, or an s code
in d; BFI, which reads d, traps ILLEGAL under "_". -/
def Obligations.FieldAndUnaryResults : Prop :=
  ((∀ (s : State) (e : Bool) (d x y : Opd) (c : Ctx), Executes s c (.lea e d x y) →
     exec (.lea e d x y) s = .next (s.afterLanes c (.lea e d x y) fun _ L =>
       let r := BitVec.ofNat 64 (c.grp.pairVal L x) + (c.grp.laneVal L y).signExtend 64
       L.results d [r.extractLsb' 0 32, r.extractLsb' 32 32])) ∧
   (∃ bfx : Word → Word → Word,
     (∀ (s : State) (e : Bool) (d x y : Opd), LaneGives s (.bfx e d x y) d (fun V => bfx (V x) (V y))) ∧
     ∀ (a b : Word) (j : Nat), j < 32 →
       let p := b.toNat % 32
       let w := min (p + b.toNat / 256 % 32) 32 - p
       (bfx a b).getLsbD j =
         if j < w then a.getLsbD (p + j) else b.getLsbD 16 && decide (0 < w) && a.getLsbD (p + w - 1)) ∧
   (∃ bfi : Word → Word → Word → Word,
     (∀ (s : State) (e : Bool) (d x y : Opd), LaneGives s (.bfi e d x y) d (fun V => bfi (V x) (V y) (V d))) ∧
     ∀ (a b old : Word) (j : Nat), j < 32 →
       let p := b.toNat % 32
       let w := min (p + b.toNat / 256 % 32) 32 - p
       (bfi a b old).getLsbD j = if p ≤ j ∧ j < p + w then a.getLsbD (j - p) else old.getLsbD j)) ∧
  ((∀ (s : State) (e : Bool) (d x : Opd),
     LaneGives s (.iabs e d x) d (fun V => BitVec.ofInt 32 (if (V x).toInt < 0 then -(V x).toInt else (V x).toInt))) ∧
   (∃ clz : Word → Word, (∀ (s : State) (e : Bool) (d x : Opd), LaneGives s (.clz e d x) d (fun V => clz (V x))) ∧
     ∀ a : Word, (clz a).toNat ≤ 32 ∧ (∀ j, j < (clz a).toNat → a.getLsbD (31 - j) = false) ∧
       ((clz a).toNat < 32 → a.getLsbD (31 - (clz a).toNat) = true)) ∧
   (∃ popc : Word → Word, (∀ (s : State) (e : Bool) (d x : Opd), LaneGives s (.popc e d x) d (fun V => popc (V x))) ∧
     ∀ a : Word, (popc a).toNat = ((List.range 32).filter (fun j => a.getLsbD j)).length) ∧
   (∃ brev : Word → Word, (∀ (s : State) (e : Bool) (d x : Opd), LaneGives s (.brev e d x) d (fun V => brev (V x))) ∧
     ∀ (a : Word) (j : Nat), j < 32 → (brev a).getLsbD j = a.getLsbD (31 - j)) ∧
   (∃ bint2 : Word → Word, (∀ (s : State) (e : Bool) (d x : Opd), LaneGives s (.bint2 e d x) d (fun V => bint2 (V x))) ∧
     ∀ (a : Word) (j : Nat), j < 16 → (bint2 a).getLsbD (2 * j) = a.getLsbD j ∧ (bint2 a).getLsbD (2 * j + 1) = false) ∧
   (∃ bint3 : Word → Word, (∀ (s : State) (e : Bool) (d x : Opd), LaneGives s (.bint3 e d x) d (fun V => bint3 (V x))) ∧
     ∀ (a : Word) (j : Nat), j < 32 →
       (bint3 a).getLsbD j = if j % 3 = 0 ∧ j / 3 < 10 then a.getLsbD (j / 3) else false) ∧
   (∃ gather : Word → Word, (∀ (s : State) (e : Bool) (d x : Opd), LaneGives s (.bdeint3 e d x) d (fun V => gather (V x))) ∧
     ∀ (a : Word) (j : Nat), j < 32 → (gather a).getLsbD j = if j < 10 then a.getLsbD (3 * j) else false) ∧
   (∀ (s : State) (e : Bool) (d : Opd) (c : Ctx), Executes s c (.laneid e d) →
     exec (.laneid e d) s = .next (s.afterLanes c (.laneid e d) fun l L => L.result d (BitVec.ofNat 32 l)))) ∧
  ((∀ (e : Bool) (d x y : Opd),
     let W (major : Nat) : Option (BitVec 32) :=
       some (BitVec.ofNat 32 (e.toNat * 2 ^ 30 + major * 2 ^ 24 + d.code * 2 ^ 16 + x.code * 2 ^ 8 + y.code))
     encode (.lea e d x y) = W 0x1B ∧ encode (.bfx e d x y) = W 0x1C ∧ encode (.bfi e d x y) = W 0x1D) ∧
   (∀ (s : State) (c : Ctx) (e : Bool) (d x y : Opd),
     (d.code % 2 = 1 ∨ x.code % 2 = 1 ∨ 192 ≤ d.code ∨ 252 ≤ x.code) →
     Issues s c (.lea e d x y) → exec (.lea e d x y) s = .next (trapWord s c causeIllegal 0)) ∧
   (∀ (s : State) (c : Ctx) (e : Bool) (x y : Opd), Issues s c (.bfi e (.q 3) x y) →
     exec (.bfi e (.q 3) x y) s = .next (trapWord s c causeIllegal 0)))

/-- The .f32 arithmetic and comparisons of R181 and R182: one rounding to nearest-even of the exact value (the functions
`fadd`, `fsub`, `fmul`, `ffma`, `fminmax`), its flags ORed into the lane's status.

What those functions are: on finite operands of .f32, .f16 and .g16 the sum, difference, product, fused sum and
conversion are the exact value rounded once to nearest-even, with NX and OF as R50 has them; an exact sum that is zero
is +0 unless both operands are −0 (R47, R49, R53).

What comparing and converting are (R48, R53, R54, R57, R182, R185, R186). FMIN and FMAX give the lesser and the greater
number, −0 below +0, the other operand of one NaN and the canonical NaN of two; FCMP compares as numbers, −0 equal to +0, and with a NaN
only .un holds; both raise NV for a signalling NaN alone. Conversions between float formats, from integers, to integers and to
an integral value round once by the mode the word names. Through a narrow format a value becomes the code that R57 chooses and a
code its value; NaN, infinities and zeros are as R57 has them (the code of the most negative finite value: the model's log 12).

The packed float instructions (R183): elements 0 and 1 of x and of the register above it, and of d for FFMA, each by
the rule of its own format, the flags of both ORed; PACK2 (R184) and UNPACK2 (R180).

The elementary functions complete with a result in d and q1 and flags in the status (R52, R180), and give the special
values of R52's table: zeros, infinities, NaNs and negative operands. (Where the operand is no special value, the
result is the function of Machine/Elementary.lean; log 11 says what is left free.)

FCVT (R185, R186): conversions 0 to 8 between .f32, the 16-bit formats and the 32-bit integers under the mode the
word names, a 16-bit source read from a[15:0]; conversions 16 to 31 through a valid format register f(n), the element
read from a[7:0] or a[3:0]. A narrow conversion through a register that holds no valid descriptor traps ILLEGAL on every
active lane. -/
def Obligations.FloatResults : Prop :=
  (∀ (s : State) (e : Bool) (d x y : Opd),
     LaneGivesF s (.faddF32 e d x y) d (fun V => fadd f32 (V x).toNat (V y).toNat) ∧
     LaneGivesF s (.fsubF32 e d x y) d (fun V => fsub f32 (V x).toNat (V y).toNat) ∧
     LaneGivesF s (.fmulF32 e d x y) d (fun V => fmul f32 (V x).toNat (V y).toNat) ∧
     LaneGivesF s (.ffmaF32 e d x y) d (fun V => ffma f32 (V x).toNat (V y).toNat (V d).toNat) ∧
     LaneGivesF s (.fminF32 e d x y) d (fun V => fminmax f32 false (V x).toNat (V y).toNat) ∧
     LaneGivesF s (.fmaxF32 e d x y) d (fun V => fminmax f32 true (V x).toNat (V y).toNat) ∧
     LaneGivesF s (.fcmpEq e d x y) d (fun V => ((fcmp f32 0 (V x).toNat (V y).toNat).1.toNat, (fcmp f32 0 (V x).toNat (V y).toNat).2)) ∧
     LaneGivesF s (.fcmpLt e d x y) d (fun V => ((fcmp f32 1 (V x).toNat (V y).toNat).1.toNat, (fcmp f32 1 (V x).toNat (V y).toNat).2)) ∧
     LaneGivesF s (.fcmpLe e d x y) d (fun V => ((fcmp f32 2 (V x).toNat (V y).toNat).1.toNat, (fcmp f32 2 (V x).toNat (V y).toNat).2)) ∧
     LaneGivesF s (.fcmpUn e d x y) d (fun V => ((fcmp f32 3 (V x).toNat (V y).toNat).1.toNat, (fcmp f32 3 (V x).toNat (V y).toNat).2))) ∧
  ((∀ f ∈ [f32, f16, g16], ∀ a b d : Nat, f.Finite a → f.Finite b → f.Finite d →
     let u := f.units
     let one : Nat := 2 ^ f.one
     (u a + u b ≠ 0 → RoundsOnce f (u a + u b) 1 (fadd f a b)) ∧
     (u a + u b = 0 → fadd f a b = (if a = f.sign ∧ b = f.sign then f.sign else 0, 0)) ∧
     (u a - u b ≠ 0 → RoundsOnce f (u a - u b) 1 (fsub f a b)) ∧
     RoundsOnce f (u a * u b) one (fmul f a b) ∧
     (u a * u b + one * u d ≠ 0 → RoundsOnce f (u a * u b + one * u d) one (ffma f a b d)) ∧
     ∀ g ∈ [f32, f16, g16], RoundsOnce g (2 ^ g.one * u a) one (fcvt f g .rne a)) ∧
   (∀ v : Int, -2 ^ 31 ≤ v → v < 2 ^ 32 → RoundsOnce f32 (2 ^ f32.one * v) 1 (intToF f32 .rne v))) ∧
  ((∀ f ∈ [f32, f16, g16], ∀ a b : Nat, a < 2 * f.sign → b < 2 * f.sign →
     let nan (x : Nat) : Prop := f.inf < x % f.sign
     let nv : Flags := if nan a ∧ a % f.sign < f.nan ∨ nan b ∧ b % f.sign < f.nan then flagNV else 0
     let val (x : Nat) : Int := if x < f.sign then x else -((x - f.sign : Nat) : Int)
     let first : Prop := val a < val b ∨ val a = val b ∧ f.sign ≤ a
     (¬nan a → ¬nan b → fminmax f false a b = (if first then a else b, 0) ∧ fminmax f true a b = (if first then b else a, 0)) ∧
     (nan a → ¬nan b → ∀ m, fminmax f m a b = (b, nv) ∧ fminmax f m b a = (b, nv)) ∧
     (nan a → nan b → ∀ m, fminmax f m a b = (f.nan, nv)) ∧
     (nan a ∨ nan b → ∀ rel < 4, fcmp f rel a b = (rel == 3, nv)) ∧
     (¬nan a → ¬nan b → fcmp f 0 a b = (decide (val a = val b), 0) ∧ fcmp f 1 a b = (decide (val a < val b), 0) ∧
       fcmp f 2 a b = (decide (val a ≤ val b), 0) ∧ fcmp f 3 a b = (false, 0))) ∧
   (∀ (mode : RMode), ∀ f ∈ [f32, f16, g16], ∀ a : Nat, f.Finite a →
     let v := f.units a
     let one : Nat := 2 ^ f.one
     (∀ g ∈ [f32, f16, g16], RoundsBy mode g (2 ^ g.one * v) one (fcvt f g mode a)) ∧
     (∀ lo hi : Int, ∃ n : Int, IntRounds mode v one n ∧ fToInt f mode lo hi a =
       if n < lo then (lo, flagNV) else if hi < n then (hi, flagNV) else (n, if v = n * one then 0 else flagNX)) ∧
     ∃ n : Int, IntRounds mode v one n ∧ f.units (fIntegral f mode a).1 = n * one ∧
       (fIntegral f mode a).2 = if v = n * one then 0 else flagNX) ∧
   (∀ (mode : RMode), ∀ f ∈ [f32, f16, g16], ∀ (lo hi : Int) (a : Nat), a < 2 * f.sign →
     (f.inf < a % f.sign → fToInt f mode lo hi a = (0, flagNV) ∧ (fIntegral f mode a).1 = f.nan) ∧
     (a % f.sign = f.inf → fToInt f mode lo hi a = (if a = f.inf then hi else lo, flagNV) ∧ fIntegral f mode a = (a, 0))) ∧
   (∀ (mode : RMode) (v : Int), -2 ^ 31 ≤ v → v < 2 ^ 32 → RoundsBy mode f32 (2 ^ f32.one * v) 1 (intToF f32 mode v)) ∧
   (∀ (mode : RMode) (w : Word), descValid w = true →
     let D := Desc.ofWord w
     let sat : Flags := flagSAT ||| flagNX
     let top : Nat := if D.e = 0 then 2 ^ (D.bits - D.s) - 1
       else if D.spec = 1 then (2 ^ D.e - 1) * 2 ^ D.m - 1 else 2 ^ (D.e + D.m) - 1
     (∀ code, match D.worth code with
       | none => D.toFloat f32 mode code = (f32.nan, 0)
       | some v => RoundsBy mode f32 v (2 ^ 251) (D.toFloat f32 mode code)) ∧
     (∀ a, f32.Finite a → f32.units a ≠ 0 → D.Converts mode (2 ^ 251 * f32.units a) (D.ofFloat f32 mode a)) ∧
     D.ofFloat f32 mode 0 = (0, 0) ∧
     D.ofFloat f32 mode f32.sign = (if D.s = 1 ∧ D.e ≠ 0 ∧ D.spec ≠ 2 then 2 ^ (D.bits - 1) else 0, 0) ∧
     D.ofFloat f32 mode f32.nan = (if D.spec = 1 then 2 ^ (D.e + D.m) - 1 else if D.spec = 2 then 2 ^ (D.bits - 1) else 0,
       if D.spec = 0 then flagNV else 0) ∧
     D.ofFloat f32 mode f32.inf = (top, sat) ∧
     D.ofFloat f32 mode (f32.sign + f32.inf) = (if D.s = 0 then 0 else if D.e = 0 then 2 ^ D.m else 2 ^ (D.bits - 1) + top, sat))) ∧
  (∀ (s : State) (e : Bool) (d x y : Opd) (f : BitVec 1) (c : Ctx),
     let F : Fmt := if f = 0 then f16 else g16
     let lo (w : Word) : Nat := (w.extractLsb' 0 16).toNat
     let hi (w : Word) : Nat := (w.extractLsb' 16 16).toNat
     let both (i : Instr) (op : Nat → Nat → Nat → Nat × Flags) : Prop :=
       Executes s c i → exec i s = .next (s.afterLanes c i fun _ L =>
         let a := c.grp.blockVal L x 0
         let b := c.grp.blockVal L x 1
         let r0 := op (lo a) (lo b) (lo (c.grp.laneVal L d))
         let r1 := op (hi a) (hi b) (hi (c.grp.laneVal L d))
         L.resultF d (BitVec.ofNat 32 (r0.1 + 65536 * r1.1)) (r0.2 ||| r1.2))
     both (.faddPacked e d x f) (fun a b _ => fadd F a b) ∧
     both (.fsubPacked e d x f) (fun a b _ => fsub F a b) ∧
     both (.fmulPacked e d x f) (fun a b _ => fmul F a b) ∧
     both (.ffmaPacked e d x f) (fun a b old => ffma F a b old) ∧
     both (.fminPacked e d x f) (fun a b _ => fminmax F false a b) ∧
     both (.fmaxPacked e d x f) (fun a b _ => fminmax F true a b) ∧
     LaneGivesF s (.pack2F16X2 e d x y) d (fun V =>
       let r0 := fcvt f32 f16 .rne (V x).toNat
       let r1 := fcvt f32 f16 .rne (V y).toNat
       (r0.1 + 65536 * r1.1, r0.2 ||| r1.2)) ∧
     LaneGivesF s (.pack2G16X2 e d x y) d (fun V =>
       let r0 := fcvt f32 g16 .rne (V x).toNat
       let r1 := fcvt f32 g16 .rne (V y).toNat
       (r0.1 + 65536 * r1.1, r0.2 ||| r1.2)) ∧
     (∀ (i : Instr) (src : Fmt), (i = .unpack2F16X2 e d x ∧ src = f16) ∨ (i = .unpack2G16X2 e d x ∧ src = g16) →
       Executes s c i → exec i s = .next (s.afterLanes c i fun _ L =>
         let r0 := fcvt src f32 .rne (lo (c.grp.laneVal L x))
         let r1 := fcvt src f32 .rne (hi (c.grp.laneVal L x))
         (L.results d [BitVec.ofNat 32 r0.1, BitVec.ofNat 32 r1.1]).raise (r0.2 ||| r1.2)))) ∧
  ((∀ (s : State) (e : Bool) (d x : Opd),
     LaneGivesF s (.frcp e d x) d (fun V => frcp f32 (V x).toNat) ∧
     LaneGivesF s (.frsq e d x) d (fun V => frsq f32 (V x).toNat) ∧
     LaneGivesF s (.fsqrt e d x) d (fun V => fsqrt f32 (V x).toNat) ∧
     LaneGivesF s (.fexp2 e d x) d (fun V => fexp2 (V x).toNat) ∧
     LaneGivesF s (.flog2 e d x) d (fun V => flog2 (V x).toNat) ∧
     LaneGivesF s (.fsin e d x) d (fun V => fsin (V x).toNat)) ∧
   (∀ (p z mz m n q : Nat), p = 0x7F800000 → m = 0xFF800000 → z = 0 → mz = 0x80000000 → n = 0x7FC00000 → q = 0x3F800000 →
     frcp f32 z = (p, flagDZ) ∧ frcp f32 mz = (m, flagDZ) ∧ frcp f32 p = (z, 0) ∧ frcp f32 m = (mz, 0) ∧
     frsq f32 z = (p, flagDZ) ∧ frsq f32 mz = (m, flagDZ) ∧ frsq f32 p = (z, 0) ∧ frsq f32 m = (n, flagNV) ∧
     fsqrt f32 z = (z, 0) ∧ fsqrt f32 mz = (mz, 0) ∧ fsqrt f32 p = (p, 0) ∧ fsqrt f32 m = (n, flagNV) ∧
     fexp2 z = (q, 0) ∧ fexp2 mz = (q, 0) ∧ fexp2 p = (p, 0) ∧ fexp2 m = (z, 0) ∧
     flog2 z = (m, flagDZ) ∧ flog2 mz = (m, flagDZ) ∧ flog2 p = (p, 0) ∧ flog2 m = (n, flagNV) ∧ flog2 q = (z, 0) ∧
     fsin z = (z, 0) ∧ fsin mz = (mz, 0) ∧ fsin p = (n, flagNV) ∧ fsin m = (n, flagNV) ∧
     ∀ f ∈ [frcp f32, frsq f32, fsqrt f32, fexp2, flog2, fsin], f n = (n, 0)) ∧
   (∀ a : Nat, 0x80000000 < a → a < 0xFF800000 →
     frsq f32 a = (0x7FC00000, flagNV) ∧ fsqrt f32 a = (0x7FC00000, flagNV) ∧ flog2 a = (0x7FC00000, flagNV))) ∧
  ((∀ (s : State) (e : Bool) (d x : Opd) (m : BitVec 3),
     let mode := roundMode m.toNat
     LaneGivesF s (.fcvtF16F32 e d x m) d (fun V => fcvt f32 f16 mode (V x).toNat) ∧
     LaneGivesF s (.fcvtG16F32 e d x m) d (fun V => fcvt f32 g16 mode (V x).toNat) ∧
     LaneGivesF s (.fcvtF32F16 e d x m) d (fun V => fcvt f16 f32 mode ((V x).toNat % 65536)) ∧
     LaneGivesF s (.fcvtF32G16 e d x m) d (fun V => fcvt g16 f32 mode ((V x).toNat % 65536)) ∧
     LaneGivesF s (.fcvtI32F32 e d x m) d (fun V =>
       ((BitVec.ofInt 32 (fToInt f32 mode (-2147483648) 2147483647 (V x).toNat).1).toNat,
         (fToInt f32 mode (-2147483648) 2147483647 (V x).toNat).2)) ∧
     LaneGivesF s (.fcvtN32F32 e d x m) d (fun V =>
       ((BitVec.ofInt 32 (fToInt f32 mode 0 4294967295 (V x).toNat).1).toNat,
         (fToInt f32 mode 0 4294967295 (V x).toNat).2)) ∧
     LaneGivesF s (.fcvtF32I32 e d x m) d (fun V => intToF f32 mode (V x).toInt) ∧
     LaneGivesF s (.fcvtF32N32 e d x m) d (fun V => intToF f32 mode ((V x).toNat : Int)) ∧
     LaneGivesF s (.fcvtF32F32 e d x m) d (fun V => fIntegral f32 mode (V x).toNat)) ∧
   (∀ (s : State) (e : Bool) (d x : Opd) (n m : BitVec 3) (c : Ctx),
     let D := Desc.ofWord (Store.get c.grp.f n.toNat)
     (Executes s c (.fcvtQF32 e d x n m) →
       (descValid (Store.get c.grp.f n.toNat) = true →
         exec (.fcvtQF32 e d x n m) s = .next (s.afterLanes c (.fcvtQF32 e d x n m) fun _ L =>
           let r := D.ofFloat f32 (roundMode m.toNat) (c.grp.laneVal L x).toNat
           L.resultF d (BitVec.ofNat 32 r.1) r.2)) ∧
       (descValid (Store.get c.grp.f n.toNat) = false →
         exec (.fcvtQF32 e d x n m) s = .next (trapWord s c causeIllegal 0))) ∧
     (Executes s c (.fcvtF32Q e d x n m) →
       (descValid (Store.get c.grp.f n.toNat) = true →
         exec (.fcvtF32Q e d x n m) s = .next (s.afterLanes c (.fcvtF32Q e d x n m) fun _ L =>
           let a := (c.grp.laneVal L x).toNat
           let r := D.toFloat f32 (roundMode m.toNat) (if D.c then a % 16 else a % 256)
           L.resultF d (BitVec.ofNat 32 r.1) r.2)) ∧
       (descValid (Store.get c.grp.f n.toNat) = false →
         exec (.fcvtF32Q e d x n m) s = .next (trapWord s c causeIllegal 0)))))

/-! ## Cross-lane instructions (08_lane_arithmetic.md) -/

/-- The shuffles, ballots and votes of R188 and R190 over A, every source read before any result is written (R187).

SCAN and RED (R189): the trees of R64 and R65 over A with the function of the word's code; every lane of A receives
the OR of the flags of every combining step.

With the integer functions the trees come to what their names say: SCAN.add is the wrapping sum over the lanes of A at
or below a lane, RED.add the sum over A, and RED.or the OR over A (R189).

The words of the cross-lane instructions (R188 to R190): major 0x2D in LA, and the functions of major 0x2E in imm8. A code that
R189's table does not give SCAN or RED traps ILLEGAL; other arguments of ops 5 and 6, and op 7, are no instruction. -/
def Obligations.CrossLaneResults : Prop :=
  (∀ (s : State) (e : Bool) (d x y : Opd) (n : BitVec 5),
     CrossGives s (.shfl e d x y) d (fun A V l =>
       (if (V y l).toNat % 32 ∈ A then V x ((V y l).toNat % 32) else V x l, 0)) ∧
     CrossGives s (.shflup e d x n) d (fun A V l =>
       (if n.toNat ≤ l ∧ l - n.toNat ∈ A then V x (l - n.toNat) else V x l, 0)) ∧
     CrossGives s (.shfldn e d x n) d (fun A V l =>
       (if l + n.toNat ∈ A then V x (l + n.toNat) else V x l, 0)) ∧
     CrossGives s (.shflx e d x n) d (fun A V l =>
       (if l ^^^ n.toNat ∈ A then V x (l ^^^ n.toNat) else V x l, 0)) ∧
     CrossGives s (.ballot e d x) d (fun A V _ =>
       (BitVec.ofNat 32 (((A.filter (fun j => V x j != 0)).map (2 ^ ·)).sum), 0)) ∧
     CrossGives s (.voteAny e d x) d (fun A V _ => (if ∃ j ∈ A, V x j ≠ 0 then 1 else 0, 0)) ∧
     CrossGives s (.voteAll e d x) d (fun A V _ => (if ∀ j ∈ A, V x j ≠ 0 then 1 else 0, 0))) ∧
  (∀ (s : State) (e : Bool) (d x : Opd) (k : BitVec 5),
     CrossGives s (.scan e d x k) d (fun A V l =>
       let t := [1, 2, 4, 8, 16].foldl (scanStep (combiner k.toNat)) (treeInputs k.toNat A (V x))
       (BitVec.ofNat 32 ((t.1 l).getD 0), t.2)) ∧
     CrossGives s (.red e d x k) d (fun A V _ =>
       let t := [1, 2, 4, 8, 16].foldl (redStep (combiner k.toNat)) (treeInputs k.toNat A (V x))
       (BitVec.ofNat 32 ((t.1 0).getD 0), t.2))) ∧
  (∀ (A : List Nat) (v : Nat → Word), A.Nodup → (∀ l ∈ A, l < 32) →
     (∀ l ∈ A, ([1, 2, 4, 8, 16].foldl (scanStep (combiner 0)) (treeInputs 0 A v)).1 l =
       some (((A.filter (· ≤ l)).map v).foldl (· + ·) 0).toNat) ∧
     (A ≠ [] → ([1, 2, 4, 8, 16].foldl (redStep (combiner 0)) (treeInputs 0 A v)).1 0 =
       some ((A.map v).foldl (· + ·) 0).toNat) ∧
     (A ≠ [] → ([1, 2, 4, 8, 16].foldl (redStep (combiner 5)) (treeInputs 5 A v)).1 0 =
       some ((A.map v).foldl (· ||| ·) 0).toNat)) ∧
  ((∀ (e : Bool) (d x y : Opd) (n : BitVec 5),
     let W (major last : Nat) : Option (BitVec 32) :=
       some (BitVec.ofNat 32 (e.toNat * 2 ^ 30 + major * 2 ^ 24 + d.code * 2 ^ 16 + x.code * 2 ^ 8 + last))
     encode (.shfl e d x y) = W 0x2D y.code ∧ encode (.shflup e d x n) = W 0x2E (0x00 + n.toNat) ∧
     encode (.shfldn e d x n) = W 0x2E (0x20 + n.toNat) ∧ encode (.shflx e d x n) = W 0x2E (0x40 + n.toNat) ∧
     encode (.scan e d x n) = W 0x2E (0x60 + n.toNat) ∧ encode (.red e d x n) = W 0x2E (0x80 + n.toNat) ∧
     encode (.ballot e d x) = W 0x2E 0xA0 ∧ encode (.voteAny e d x) = W 0x2E 0xC0 ∧ encode (.voteAll e d x) = W 0x2E 0xC1) ∧
   (∀ (s : State) (c : Ctx) (e : Bool) (d x : Opd) (k : BitVec 5),
     (k.toNat ∉ [0, 1, 2, 5, 8, 9] → Issues s c (.scan e d x k) → exec (.scan e d x k) s = .next (trapWord s c causeIllegal 0)) ∧
     (k.toNat ∉ [0, 1, 2, 3, 4, 5, 8, 9, 10] → Issues s c (.red e d x k) →
       exec (.red e d x k) s = .next (trapWord s c causeIllegal 0))) ∧
   (∀ w : BitVec 32, w.toNat / 2 ^ 31 = 0 → w.toNat / 2 ^ 24 % 2 ^ 6 = 0x2E → 0xA0 ≤ w.toNat % 2 ^ 8 →
     w.toNat % 2 ^ 8 ∉ [0xA0, 0xC0, 0xC1] → ∃ err, decodeWord w = .error err))

/-! ## Memory instructions (09_memory_instructions.md) -/

/-- The checks of a lane access in their order (R191), for n bytes at an address of 64 bits: ILLEGAL when it is not
canonical; SCRATCH_RANGE when it meets the window and leaves it or the limit; RANGE_LOCK with the entry of the first lock that forbids
it (whose locks count, and that %trapinfo names the lowest entry: the model's log 33, DEDUCED); then a scratchpad access
lies at the team's own bytes, with nothing changed, and a global one is translated page by page and parks at its first
failing byte; an atomic traps ILLEGAL on a page of type IO (R199); a load or atomic traps POISON when it meets a poisoned
sector that no store of its group covers which is not performed yet (what such a store covers: log 34, DEDUCED). -/
def Obligations.AccessChecksInOrder : Prop :=
  ∀ (s : State) (c : Ctx) (a n : Nat) (k : AccKind), 0 < n → a < 2 ^ 64 →
    let bad := meetsWindow a n = true ∧ (a < windowBase ∨ windowBase + c.team.limit < a + n)
    let lock := lockHit (s.locksOf c.team.pcore) c.t c.space a n k
    let path := placesFrom s (.core c.team.pcore) c.space k 4 a n
    (canonical a = false → laneAccess s c a n k = .trap s causeIllegal 0) ∧
    (canonical a = true → bad → laneAccess s c a n k = .trap s causeScratchRange (scratchInfo a n c.team.limit)) ∧
    (∀ entry, canonical a = true → ¬bad → lock = some entry → laneAccess s c a n k = .trap s causeRangeLock entry) ∧
    (canonical a = true → ¬bad → lock = none → windowBase ≤ a →
      laneAccess s c a n k = .ok s ((List.range n).map (fun i => .scratch (a - windowBase + i))) false) ∧
    (canonical a = true → ¬bad → lock = none → a < windowBase →
      (∀ u va f, path = .park u va f → laneAccess s c a n k = .park u va f) ∧
      (∀ u ps io, path = .ok u ps io →
        let io' := k = .atomic ∧ io = true
        let poison := (k = .load ∨ k = .atomic) ∧ poisonHit u (u.ownStores c) ps = true
        (io' → laneAccess s c a n k = .trap u causeIllegal 0) ∧
        (¬io' → poison → laneAccess s c a n k = .trap u causePoison 0) ∧
        (¬io' → ¬poison → laneAccess s c a n k = .ok u ps io)))

/-- LD of every size (R192, R193): each active lane reads n bytes at its pair plus the scaled offset, all lanes reading
them as the instruction finds them (a piece or sector noted earlier for the group reads as it stood then, and the sector is
read afresh after this load: the model's log 6); .b and .h are zero-extended, .d and .o fill two and four registers from the
lowest, and q1 takes the lowest. A load whose reply marks a byte of it as poisoned traps POISON (R346).

ST of every size (R192 to R194, R132): the bytes of the active lanes that are no helper lanes enter the group's store
FIFO as one entry, the highest lane's where several write one byte; q1 becomes invalid, and storage itself does not
change. (Bytes of another device's memory have been written there by request: R378, the model's log 41.)

FENCE goes on with q1 invalid once the store FIFO of its group has drained to the team (R98). At die scope and wider a fence
that releases performs every store of the group, and of its team that it can have read; one that acquires only performs
those of the team's other groups, with the older ones of their sectors, and leaves the group's own unperformed (R99: St before
an acquiring fence is free; that the team's other stores go then, and a releasing fence performs all at once: the model's
log 6). Unless the fence releases only, later loads read afresh (R99, R201). PRF has no effect but the invalid q1 (R77, R197). -/
def Obligations.LoadsStoresFences : Prop :=
  (∀ (s t : State) (c : Ctx) (i : Instr) (e : Bool) (d x : Opd) (o : BitVec 8) (n : Nat) (ps : Nat → List Place),
     (i = .ldB e d x o ∧ n = 1 ∨ i = .ldH e d x o ∧ n = 2 ∨ i = .ldW e d x o ∧ n = 4 ∨ i = .ldD e d x o ∧ n = 8 ∨
       i = .ldO e d x o ∧ n = 16) →
     Executes s c i →
     Reaches c .read n (fun l => addOffset (c.grp.pairVal (c.grp.lane l) x) (o.toInt * n)) ps c.lanes s t →
     ((∀ l ∈ c.lanes, c.Here .read l (ps l)) →
     exec i s = .next (t.after c i fun G =>
       (G.dropEarly (c.lanes.flatMap (fun l => sectorsOf (ps l)))).mapLanes c.lanes fun l L =>
         let v := s.loadedAt c l (ps l)
         if n ≤ 4 then L.result d (BitVec.ofNat 32 v)
         else L.results d ((List.range (n / 4)).map (fun j => BitVec.ofNat 32 (v / 2 ^ (32 * j)))))) ∧
     ((∀ l ∈ c.lanes, remoteState c.grp.remote .read l (ps l) = .ready ∧ remoteLost c.grp.remote .read l (ps l) = true) →
       c.lanes ≠ [] → c.grp.handlers.length ≤ c.level → exec i s = .next (trapWord t c causePoison 0))) ∧
  (∀ (s t : State) (c : Ctx) (i : Instr) (e : Bool) (d x : Opd) (o : BitVec 8) (n : Nat) (ps : Nat → List Place),
     (i = .stB e d x o ∧ n = 1 ∨ i = .stH e d x o ∧ n = 2 ∨ i = .stW e d x o ∧ n = 4 ∨ i = .stD e d x o ∧ n = 8 ∨
       i = .stO e d x o ∧ n = 16) →
     Executes s c i →
     Reaches c .write n (fun l => addOffset (c.grp.pairVal (c.grp.lane l) x) (o.toInt * n)) ps c.storers s t →
     (∀ l ∈ c.storers, c.Here .write l (ps l)) →
     let value (l j : Nat) : Word := if n ≤ 4 then c.laneValue d l else c.grp.blockVal (c.grp.lane l) d j
     let bytes (l : Nat) : List (Place × Byte) :=
       localBytes ((ps l).zipIdx.map (fun p => (p.1, ((value l (p.2 / 4)).extractLsb' (8 * (p.2 % 4)) 8))))
     exec i s = .next (t.after c i fun G =>
       (G.mapLanes c.lanes (fun _ L => L.latch none)).pushStore (storedBytes bytes c.storers))) ∧
  ((∀ (s : State) (c : Ctx) (e : Bool) (k : BitVec 2) (sc : BitVec 3), Executes s c (.fence e k sc) →
     exec (.fence e k sc) s =
       .next ((if sc.toNat < 2 then s.drainFifo c.t c.g
         else if k = 0 then (s.drainFifo c.t c.g).spillOthers c.t c.g
         else s.drainGroup c.t c.g).after c (.fence e k sc) fun G =>
         (if 2 ≤ sc.toNat ∧ k ≠ 1 then { G with early := [], ahead := [] } else G).mapLanes c.lanes fun _ L => L.latch none)) ∧
   (∀ (s : State) (t g : Nat) (T : Team), Tab.get? s.teams t = some T →
     (∀ e ∈ T.buffer, ∃ n, ∀ b ∈ e.bytes, ∃ a, b.1 = .phys a ∧ a / 32 = n) →
     let meets (e x : Buffered) : Bool := e.bytes.any (fun b => x.bytes.any (fun y => b.1.sector == y.1.sector))
     let stays (e : Buffered × Nat) : Bool :=
       e.1.group == g && !T.buffer.zipIdx.any (fun x => e.2 < x.2 && x.1.group != g && meets e.1 x.1)
     ∃ T', Tab.get? (s.spillOthers t g).teams t = some T' ∧ T'.buffer = (T.buffer.zipIdx.filter stays).map (·.1)) ∧
   (∀ (s : State) (c : Ctx) (e : Bool) (k : BitVec 1) (x : Opd), Executes s c (.prf e k x) →
     exec (.prf e k x) s = .next (s.afterLanes c (.prf e k x) fun _ L => L.latch none)))

/-- What a store leaves for its group, its team and storage (R93, R94, R97, R98): the group reads a stored place as the stored
byte and every other place as before; the oldest store of the FIFO goes to the team one 32-byte piece at a time, in any order of
its pieces: the groups of the team then read the piece's bytes, and of a scratchpad piece the scratchpad holds them, while memory
holds what it held (no sector of it poisoned; that stores wait in two levels is the model's log 6); and once the group's
stores are performed, memory holds at every address what the group read there, in the order of its stores. -/
def Obligations.StoreForwardsAndDrains : Prop :=
  (∀ (fifo : List FifoEntry) (bs : List (Place × Byte)) (p : Place),
    forwarded (fifo ++ [⟨bs⟩]) p = match bs.find? (fun b => b.1 == p) with
      | some b => some b.2
      | none => forwarded fifo p) ∧
  (∀ (s : State) (t g : Nat) (T : Team) (G : Group),
    Tab.get? s.teams t = some T → Tab.get? T.groups g = some G → Memory.wf s.mem = true → Store.wf T.scratch = true →
    (∀ e ∈ G.fifo, (e.bytes.map (·.1)).Nodup ∧ ∀ b ∈ e.bytes, ∀ a, b.1 ≠ .enc a ∧ (b.1 = .phys a → remotePa a = false)) →
    (∀ e ∈ T.buffer, (e.bytes.map (·.1)).Nodup ∧ ∃ n, ∀ b ∈ e.bytes, ∃ a, b.1 = .phys a ∧ remotePa a = false ∧ a / 32 = n) →
    (∀ e es, G.fifo = e :: es → e.bytes ≠ [] → (∀ b ∈ e.bytes, ∀ a, b.1 = .phys a → s.poisoned a = false) →
      let shares (n q : Nat) : Prop :=
        let rest := e.bytes.filter (fun b => b.1.pieceNo != q)
        ∃ T', Tab.get? (s.drainOne t g n).teams t = some T' ∧ (s.drainOne t g n).mem = s.mem ∧
          (Tab.get? T'.groups g).map (·.fifo) = some (if rest = [] then es else ⟨rest⟩ :: es) ∧
          ∀ p, (∀ a, p ≠ .enc a) → (s.drainOne t g n).teamByte T' p =
            match e.bytes.find? (fun b => b.1 == p && p.pieceNo == q) with
            | some b => b.2
            | none => s.teamByte T p
      (∀ n, ∃ b ∈ e.bytes, shares n b.1.pieceNo) ∧ ∀ b ∈ e.bytes, ∃ n, shares n b.1.pieceNo) ∧
    ∃ T', Tab.get? (s.drainGroup t g).teams t = some T' ∧ T'.buffer = [] ∧ (Tab.get? T'.groups g).map (·.fifo) = some [] ∧
      (∀ a, (s.drainGroup t g).byte a = (forwarded G.fifo (.phys a)).getD (s.teamByte T (.phys a))) ∧
      ∀ o, Store.get T'.scratch o = (forwarded G.fifo (.scratch o)).getD (s.teamByte T (.scratch o)))

/-- LDT (R202 to R204): with its operand in the window, aligned and below the limit, and no lock on it, every active lane
takes eight words, each made of the e = 32 / w elements of its line and chunk. -/
def Obligations.MatrixLoadCompletes : Prop :=
  ∀ (s : State) (c : Ctx) (e : Bool) (d x : Opd) (T : BitVec 1) (W : BitVec 2) (R : BitVec 5),
    let i : Instr := .ldt e d x T W R
    let w := 4 * 2 ^ W.toNat
    let S := 16 * (R.toNat + 1)
    let a := c.grp.sPair x.num
    let span := if T = 0 then 15 * S + 64 else (512 / w - 1) * S + 2 * w
    Executes s c i → windowBase ≤ a → a % 16 = 0 → a + span ≤ windowBase + c.team.limit →
    lockHit (s.locksOf c.team.pcore) c.t c.space a span .load = none →
    let B (o : Nat) : Nat := (s.loadPlace c (.scratch (a - windowBase + o))).toNat
    ∃ word : Nat → Nat → Word,
      exec i s = .next (s.afterLanes c i fun l L => L.results d ((List.range 8).map (word l))) ∧
      ∀ l ∈ c.lanes, ∀ j q, j < 8 → q < 32 / w →
        let k := (2 * j + l / 16) * (32 / w) + q
        let bit := if T = 0 then 8 * (l % 16 * S) + k * w else 8 * (k * S) + l % 16 * w
        (word l j).toNat / 2 ^ (w * q) % 2 ^ w = (B (bit / 8) + 256 * (if w = 16 then B (bit / 8 + 1) else 0)) / 2 ^ (bit % 8) % 2 ^ w

/-- ATOM of both widths (R198 to R200): the FIFO drains to the team first, and everything the team has stored is performed when
the ATOM releases at die scope or wider and some lane's address is global (on a scratchpad address every scope is the team's: R92; R99; R200 orders only the same sector, that every earlier store of the group goes
first is the model's log 6: it keeps R98's order within the team). Then each active lane in ascending order has the
team's stores to its sector performed, reads the old value at its aligned address, writes the new one there and takes the
old one in d, each seeing what the lanes below it wrote; its Steward keeps the reply (log 40). A helper lane's has no
effect (R132). One that so acquires at die scope or wider has later loads read afresh. -/
def Obligations.AtomicsComplete : Prop :=
  ∀ (s t : State) (c : Ctx) (i : Instr) (e wide : Bool) (d : Opd) (x : BitVec 7) (N : BitVec 1) (op : BitVec 3)
    (order : BitVec 2) (scope : BitVec 3),
    i = (if wide then .atomD e d x N op order scope else .atomW e d x N op order scope) →
    Executes s c i →
    let n := if wide then 8 else 4
    let bits := 8 * n
    let reg (l j : Nat) : Nat := (c.grp.blockVal (c.grp.lane l) d j).toNat
    let operand (l j : Nat) : Nat := if wide then reg l (2 * j) + 2 ^ 32 * reg l (2 * j + 1) else reg l j
    let signed (v : Nat) : Int := if 2 ^ (bits - 1) ≤ v then (v : Int) - 2 ^ bits else v
    let less (v u : Nat) : Prop := if N = 1 then v < u else signed v < signed u
    let new (old val other : Nat) (r : Nat) : Prop :=
      (op = 0 → r = (old + val) % 2 ^ bits) ∧ (op = 1 → r = old ∨ r = val) ∧ (op = 1 → ¬less old r ∧ ¬less val r) ∧
      (op = 2 → r = old ∨ r = val) ∧ (op = 2 → ¬less r old ∧ ¬less r val) ∧ (op = 3 → r = old &&& val) ∧
      (op = 4 → r = old ||| val) ∧ (op = 5 → r = old ^^^ val) ∧ (op = 6 → r = val) ∧
      (op = 7 → r = if old = val then other else old)
    let address (l : Nat) : Nat := c.grp.pairVal (c.grp.lane l) (Opd.ofCode (2 * x.toNat))
    let global : Bool := 2 ≤ scope.toNat && c.lanes.any (fun l => !(c.grp.lane l).helper && !inWindow (address l))
    Chain (fun s l u =>
      if (c.grp.lane l).helper then u = s.modLane c.t c.g l (·.latch none) else
      address l % n = 0 ∧ ∃ s1 ps io, lanePath s c .atomic l (address l) n = .ok s1 ps io ∧ c.Here .atomic l ps ∧
        let s2 := s1.spillSectors c.t (sectorsOf ps)
        let old := s2.oldAt c l ps
        ∃ r, new old (operand l 0) (operand l 1) r ∧
          u = (s2.exchanged c ps n old r).modLane c.t c.g l
            (·.results d ((List.range (n / 4)).map (fun j => BitVec.ofNat 32 (old / 2 ^ (32 * j))))))
      c.lanes (if order.getLsbD 1 = true ∧ global = true then s.drainGroup c.t c.g else s.drainFifo c.t c.g) t →
    exec i s = .next (t.after c i fun G =>
      if order.getLsbD 0 = true ∧ global = true then { G with early := [], ahead := [] } else G)

/-- LDL (R195, R196): once its descriptor is read, and valid, it completes when every active lane's part does, in ascending
order. A lane whose map byte is read takes the data that its probes give (R82), from the finest level max(Lc, m) on: the
words of the element in d upward, the status (L << 12) | (Lc << 8) | code in the companion register (R83), and it
appends to the guestbook unless the code is HIT or it is a helper lane (R132). A descriptor that is not valid traps
DESC_BAD on every active lane.

An append to a guestbook (R86 to R88): a key among the last 64 that the core wrote is suppressed; a ring that is full or
disabled drops the entry, sets its overflow flag and counts; else the ring takes an entry with the fields of R86 and the
key enters the filter. Entries are placed in order of STAMP, then SOURCE, then their appends (R89): the 16 bytes at the produce
index, then the index, and the ring's interrupt vector. Every step first places the entries whose STAMP %time has passed, ring
after ring; what ends a grid's, a save's or a ring's life places all of its partition's, a nanosecond on (that a ring so holds
entries back: the model's log 47). -/
def Obligations.LodLoadCompletes : Prop :=
  (∀ (s s1 : State) (c : Ctx) (e : Bool) (d x p : Opd) (bs : List Byte),
     Executes s c (.ldl e d x p) → readOnce s s c (c.lanes.headD 0) (c.grp.sPair p.num) 64 = .val s1 bs →
     let k := LodDesc.ofNat (leValue bs)
     (k.valid (c.grp.sPair p.num) = false → c.grp.handlers.length ≤ c.level →
       exec (.ldl e d x p) s = .next (trapWord s1 c causeDescBad 0)) ∧
     (k.valid (c.grp.sPair p.num) = true → (k.esize = 4 → d.num % 4 = 0) → d.num + k.dataRegs < c.team.regs →
       ∀ t, Chain (fun s2 l u =>
         let L := c.grp.lane l
         let Lc := min (c.grp.blockVal L x 2).toNat (k.levels - 1)
         let xx := min (c.grp.blockVal L x 0).toNat (k.width - 1)
         let yy := min (c.grp.blockVal L x 1).toNat (k.height - 1)
         let element (s' : State) (lev : Nat) : Got :=
           readLane s s' c l (k.texAddr lev (xx / 2 ^ lev) (yy / 2 ^ lev)) (2 ^ k.esize)
         ∃ sm mb sp v level code,
           readOnce s s2 c l ((k.map + k.tileOf 0 xx yy) % 2 ^ 64) 1 = .val sm mb ∧
           (let m := min (leValue mb) (k.levels - 1)
            Probes element k.levels sm (max Lc m) (if m ≤ Lc then 0 else 1) sp v level code) ∧
           let given := sp.modLane c.t c.g l (·.results d
             ((List.range k.dataRegs).map (fun j => BitVec.ofNat 32 (v / 2 ^ (32 * j))) ++
               [BitVec.ofNat 32 (level * 2 ^ 12 + Lc * 2 ^ 8 + code)]))
           u = if code = 0 ∨ L.helper = true then given
             else given.appendGuest c.grid.part c.team.pcore k.ring code k.resid Lc (k.tileOf Lc xx yy)) c.lanes s1 t →
       exec (.ldl e d x p) s = .next (t.after c (.ldl e d x p) fun G => G))) ∧
  ((∀ (s : State) (p core ring kind resid level tile : Nat) (k : Core) (P : Part) (r : GbRing),
     Tab.get? s.cores core = some k → Tab.get? s.parts p = some P → Tab.get? P.rings ring = some r →
     let key : GbKey := ⟨ring, resid, level, tile⟩
     let u := s.appendGuest p core ring kind resid level tile
     let ring' (x : GbRing) (P : Part) : Part := { P with rings := Tab.put P.rings ring x }
     let drops : GbRing := { r with ovf := true, ovfCount := if r.ovfCount = 0xFFFFFFFF then r.ovfCount else r.ovfCount + 1 }
     let full := r.en = false ∨ 2 ^ r.cap.toNat ≤ (r.produce - r.consume).toNat + r.waiting.length
     (key ∈ k.filter → u = s) ∧
     (key ∉ k.filter → full → u = s.modPart p (ring' drops)) ∧
     (key ∉ k.filter → ¬full → ∃ (entry : BitVec 128) (before after : List (BitVec 128)),
       u = (s.modPart p (ring' { r with waiting := before ++ entry :: after })).modCore
         core (fun k => { k with filter := (if k.filter.length < 64 then k.filter else k.filter.drop 1) ++ [key] }) ∧
       r.waiting = before ++ after ∧ entry.extractLsb' 0 64 = BitVec.ofNat 64 s.time ∧
       (tile < 2 ^ 24 → kind < 4 → level < 16 → core < 2 ^ 12 → resid < 2 ^ 20 →
         (entry.extractLsb' 64 24).toNat = tile ∧ entry.extractLsb' 88 2 = 0 ∧ (entry.extractLsb' 90 2).toNat = kind ∧
         (entry.extractLsb' 92 4).toNat = level ∧ (entry.extractLsb' 96 12).toNat = core ∧
         (entry.extractLsb' 108 20).toNat = resid) ∧
       (let place (w : BitVec 128) : Nat := (w.extractLsb' 0 64).toNat * 2 ^ 12 + (w.extractLsb' 96 12).toNat
        (∀ w ∈ before, place w ≤ place entry) ∧ ∀ w, after.head? = some w → place entry < place w))) ∧
   (∀ (s : State) (p ring : Nat) (P : Part) (r : GbRing) (entry : BitVec 128),
     Tab.get? s.parts p = some P → Tab.get? P.rings ring = some r →
     let ring' (x : GbRing) (P : Part) : Part := { P with rings := Tab.put P.rings ring x }
     s.placeGuest p ring entry =
       (s.writePhys (r.base.toNat + 16 * (r.produce.toNat % 2 ^ r.cap.toNat)) (toBytes 16 entry.toNat)).modPart p fun P =>
         (ring' { r with produce := r.produce + 1 } P).interrupt (1 + ring)) ∧
   (∀ (s : State) (p ring : Nat) (P : Part) (r : GbRing),
     Tab.get? s.parts p = some P → Tab.get? P.rings ring = some r → Memory.wf s.mem = true →
     let n := (r.waiting.takeWhile (fun e => decide ((e.extractLsb' 0 64).toNat < s.time % 2 ^ 64))).length
     let slot (j : Nat) : Nat := r.base.toNat + 16 * ((r.produce.toNat + j) % 2 ^ r.cap.toNat)
     n ≤ 2 ^ r.cap.toNat →
     let u := s.placeGuests p ring
     (∃ P', Tab.get? u.parts p = some P' ∧
       Tab.get? P'.rings ring = some { r with waiting := r.waiting.drop n, produce := r.produce + BitVec.ofNat 32 n }) ∧
     (∀ j e i, j < n → r.waiting[j]? = some e → i < 16 → u.byte (slot j + i) = e.extractLsb' (8 * i) 8) ∧
     ∀ a, (∀ j < n, a < slot j ∨ slot j + 16 ≤ a) → u.byte a = s.byte a) ∧
   (∀ s : State, ∃ v : List State, v[0]? = some s ∧ v.getLast? = some s.settleGuests ∧
     let rings : List (Nat × Nat) := s.parts.flatMap fun P => (P.2.rings.filter (fun r => r.2.waiting != [])).map (fun r => (P.1, r.1))
     v.length = rings.length + 1 ∧
     ∀ j p ring x y, rings[j]? = some (p, ring) → v[j]? = some x → v[j + 1]? = some y → y = x.placeGuests p ring) ∧
   (∀ (s : State) (p : Nat) (P : Part), Tab.get? s.parts p = some P → s.time + 1 < 2 ^ 64 →
     (∀ r ∈ P.rings, ∀ e ∈ r.2.waiting, (e.extractLsb' 0 64).toNat ≤ s.time) →
     ((∀ r ∈ P.rings, r.2.waiting = []) → s.placeAll p = s) ∧
     ∃ P', Tab.get? (s.placeAll p).parts p = some P' ∧
       ∀ ring r, Tab.get? P'.rings ring = some r → r.waiting = []) ∧
   (∀ (s : State) (x : Turn) (xs : List Turn), s.sched.plan = x :: xs →
     let u := s.tick.settleGuests.stillWait
     step s = { u with sched := { u.sched with plan := xs } }.takeTurn x))

/-! ## Uniform instructions (07_uniform_and_control.md) -/

/-- Moves, arithmetic, comparisons and selection of the uniform set (R154 to R157), and the reads of a lane (R162, R163):
the destination and the uniform q1 take the result.

NOP and YIELD (R171): no effect beyond the latch shift, which leaves q1 invalid. A group that has executed YIELD begins no
run while another group of its quarter is ready that has begun none since, however late that group became ready; a run that
a group begins counts for every YIELD of another one. Nothing else of the machine changes.

The words of USEL and UFIRST (R157, R163). -/
def Obligations.UniformResults : Prop :=
  (∀ (s : State) (e : Bool) (d x y : Opd) (i16 : BitVec 16),
     let shift (w : Word) : Nat := w.toNat % 32
     let truth (p : Prop) [Decidable p] : Word := if p then 1 else 0
     UniGives s (.umov e d x) d (fun U => U x) ∧
     UniGives s (.umovi e d i16) d (fun _ => i16.signExtend 32) ∧
     UniGives s (.umovhi e d i16) d (fun U => BitVec.ofNat 32 (i16.toNat * 2 ^ 16 + (U d).toNat % 2 ^ 16)) ∧
     UniGives s (.uadd e d x y) d (fun U => U x + U y) ∧
     UniGives s (.usub e d x y) d (fun U => U x - U y) ∧
     UniGives s (.umul e d x y) d (fun U => U x * U y) ∧
     UniGives s (.uand e d x y) d (fun U => U x &&& U y) ∧
     UniGives s (.uor e d x y) d (fun U => U x ||| U y) ∧
     UniGives s (.uxor e d x y) d (fun U => U x ^^^ U y) ∧
     UniGives s (.ushl e d x y) d (fun U => U x <<< shift (U y)) ∧
     UniGives s (.ushr e d x y) d (fun U => U x >>> shift (U y)) ∧
     UniGives s (.usar e d x y) d (fun U => (U x).sshiftRight (shift (U y))) ∧
     UniGives s (.uminI32 e d x y) d (fun U => if (U y).toInt < (U x).toInt then U y else U x) ∧
     UniGives s (.uminN32 e d x y) d (fun U => if (U y).toNat < (U x).toNat then U y else U x) ∧
     UniGives s (.umaxI32 e d x y) d (fun U => if (U x).toInt < (U y).toInt then U y else U x) ∧
     UniGives s (.umaxN32 e d x y) d (fun U => if (U x).toNat < (U y).toNat then U y else U x) ∧
     UniGives s (.ucmpEq e d x y) d (fun U => truth (U x = U y)) ∧
     UniGives s (.ucmpNe e d x y) d (fun U => truth (U x ≠ U y)) ∧
     UniGives s (.ucmpLtI32 e d x y) d (fun U => truth ((U x).toInt < (U y).toInt)) ∧
     UniGives s (.ucmpLeI32 e d x y) d (fun U => truth ((U x).toInt ≤ (U y).toInt)) ∧
     UniGives s (.ucmpLtN32 e d x y) d (fun U => truth ((U x).toNat < (U y).toNat)) ∧
     UniGives s (.ucmpLeN32 e d x y) d (fun U => truth ((U x).toNat ≤ (U y).toNat)) ∧
     UniGives s (.usel e d x y) d (fun U => if U d ≠ 0 then U x else U y) ∧
     (∀ c, Executes s c (.ureadlane e d x y) → exec (.ureadlane e d x y) s =
       .next (s.after c (.ureadlane e d x y) fun G =>
         G.result d (Store.get (c.grp.lane ((c.grp.uniVal y).toNat % 32)).v x.num))) ∧
     (∀ c, Executes s c (.ufirst e d) → ∃ l ∈ c.lanes, (∀ m ∈ c.lanes, l ≤ m) ∧ l < 32 ∧
       exec (.ufirst e d) s = .next (s.after c (.ufirst e d) fun G => G.result d (BitVec.ofNat 32 l)))) ∧
  ((∀ (s : State) (c : Ctx) (e : Bool),
     (Executes s c (.nop e) → exec (.nop e) s = .next (s.after c (.nop e) (·.latchU none))) ∧
     (Executes s c (.yield e) →
       exec (.yield e) s = .next ((s.yielded c.t c.g).after c (.yield e) (·.latchU none)) ∧
       s.yielded c.t c.g = { s with sched := { s.sched with yields := (s.yielded c.t c.g).sched.yields } } ∧
       ∀ mates, (s.yielded c.t c.g).sched.yieldOver c.t c.g mates = mates.isEmpty)) ∧
   ∀ (s : State) (t g t' g' l : Nat) (mates : List (Nat × Nat)), (t', g') ≠ (t, g) → (s.groupAt t' g').isSome = true →
     (s.countRun t' g' l).sched.yieldOver t g mates = s.sched.yieldOver t g (mates.filter (fun m => m != (t', g'))) ∧
     (s.sched.yieldOver t g (s.quarterMates t g) = false → s.groupTurn t g = false)) ∧
  (∀ (e : Bool) (d x y : Opd),
     let W (major xx yy : Nat) : Option (BitVec 32) :=
       some (BitVec.ofNat 32 (2 ^ 31 + e.toNat * 2 ^ 30 + major * 2 ^ 24 + d.code * 2 ^ 16 + xx * 2 ^ 8 + yy))
     encode (.usel e d x y) = W 0x17 x.code y.code ∧ encode (.ufirst e d) = W 0x23 0 0)

/-- ULD and UST (R158, R95): one access for the fragment, at the pair plus the scaled offset; ULD.d fills an s pair, a UST
makes one entry of the group's store FIFO, or none when every active lane is a helper lane (R132). (As for LD and ST: a
sector noted earlier is the model's log 6; bytes of another device's memory are log 41.) -/
def Obligations.UniformMemoryCompletes : Prop :=
  ∀ (s : State) (c : Ctx) (e : Bool) (d x : Opd) (o : BitVec 8) (wide : Bool),
    let n : Nat := if wide then 8 else 4
    let a := addOffset (c.grp.sPair x.num) (o.toInt * n)
    let l := c.lanes.headD 0
    (let i : Instr := if wide then .uldD e d x o else .uldW e d x o
     ∀ u ps io, Executes s c i → lanePath s c .read l a n = .ok u ps io → c.Here .read l ps →
      exec i s = .next (u.after c i fun G =>
        let v := s.loadedAt c l ps
        let G := G.dropEarly (sectorsOf ps)
        if wide then G.results d [BitVec.ofNat 32 v, BitVec.ofNat 32 (v / 2 ^ 32)] else G.result d (BitVec.ofNat 32 v))) ∧
    (let i : Instr := if wide then .ustD e d x o else .ustW e d x o
     let v : Nat := if wide then c.grp.sPair d.num else (c.grp.uniVal d).toNat
     Executes s c i →
      ((∀ m ∈ c.lanes, (c.grp.lane m).helper = true) → exec i s = .next (s.after c i (·.latchU none))) ∧
      (∀ u ps io, (∃ m ∈ c.lanes, (c.grp.lane m).helper = false) → lanePath s c .write l a n = .ok u ps io → c.Here .write l ps →
        exec i s = .next (u.after c i fun G =>
          (G.pushStore (localBytes (ps.zipIdx.map (fun p => (p.1, BitVec.ofNat 8 (v / 2 ^ (8 * p.2))))))).latchU none)))

/-- The uniform transfers (R159, R160): every active lane goes to the one target, where it arrives for the check of R137;
a target that is no code address traps ILLEGAL with no transfer. UCALL alone writes its pair and q1 with the address of the
next word; a UBR whose condition fails goes on there.

BRZ and BRNZ (R161): each active lane decides for itself and goes to the target or the next word; the fragment splits
(as below), and the branch stands as the group's unresolved one, with the lanes it predicted and the lanes that took it (R294).
A target that is no code address traps ILLEGAL the lanes that would take it, and the others go on (R160); outside a running handler the
fragment waits instead (R350).

A lane branch's two sides are two fragments, and there is no split when either side is empty (R25, R161): of the
branching fragment's lanes, two are of one fragment afterwards exactly when they went the same way; every other lane
keeps its own. -/
def Obligations.TransfersComplete : Prop :=
  (∀ (s : State) (c : Ctx) (o : BitVec 16) (x : Opd),
     let near := addOffset c.pc (4 * o.toInt)
     let far := c.grp.sPair x.num
     let quiet : Group → Group := fun G => G.latchU none
     let goes (i : Instr) (target : Nat) (f : Group → Group) : Prop :=
       (target % 4 = 0 ∧ canonical target = true ∧ target < windowBase → exec i s =
         .next (s.afterTo c i (fun _ => target) fun G => (f G).mapLanes c.lanes (fun _ L => { L with arrive := true }))) ∧
       (¬(target % 4 = 0 ∧ canonical target = true ∧ target < windowBase) →
         exec i s = .next (trapWord s c causeIllegal 0))
     (Executes s c (.ujmp o) → goes (.ujmp o) near quiet) ∧
     (Executes s c (.uret x) → goes (.uret x) far quiet) ∧
     (Executes s c (.ujr x) → goes (.ujr x) far quiet) ∧
     (Executes s c (.ucall x o) → goes (.ucall x o) near fun G =>
       G.results x [BitVec.ofNat 32 (c.pc + 4), BitVec.ofNat 32 ((c.pc + 4) / 2 ^ 32)]) ∧
     (Executes s c (.ubrZ x o) →
       (c.grp.uniVal x = 0 → goes (.ubrZ x o) near quiet) ∧
       (c.grp.uniVal x ≠ 0 → exec (.ubrZ x o) s = .next (s.after c (.ubrZ x o) quiet))) ∧
     (Executes s c (.ubrNz x o) →
       (c.grp.uniVal x ≠ 0 → goes (.ubrNz x o) near quiet) ∧
       (c.grp.uniVal x = 0 → exec (.ubrNz x o) s = .next (s.after c (.ubrNz x o) quiet)))) ∧
  (∀ (s : State) (c : Ctx) (h : BitVec 2) (x : Opd) (o : BitVec 14) (zero : Bool),
     let i : Instr := if zero then .brz h x o else .brnz h x o
     let target := addOffset c.pc (4 * o.toInt)
     let takes (l : Nat) : Bool := (c.laneValue x l == 0) == zero
     let T := c.lanes.filter takes
     let N := c.lanes.filter (fun l => !takes l)
     let guess (G : Group) (taken : List Nat) : Pending := ⟨BitVec.ofNat 64 c.pc, h, laneMask c.lanes,
       if h = 0 then Store.get G.history c.pc &&& laneMask c.lanes else if h = 1 then laneMask c.lanes else 0, laneMask taken⟩
     let code := canonical target = true ∧ target < windowBase
     Executes s c i →
     (T = [] ∨ code → exec i s = .next (s.afterTo c i (fun l => if takes l then target else c.pc + 4) fun G =>
       { (G.split c.key T N).mapLanes c.lanes (fun l L => { L.latch none with arrive := takes l }) with
         pending := some (guess G T) })) ∧
     (T ≠ [] → ¬code → c.level < c.grp.handlers.length → exec i s = .next ((s.haltUnit c).settle c.t)) ∧
     (T ≠ [] → ¬code → c.grp.handlers.length ≤ c.level →
       let left := s.modGroup c.t c.g fun G =>
         { ((((G.split c.key [] N).mapLanes N (fun _ L => { L.latch none with arrive := false })).mapLanes N
             (fun _ L => L.advance (c.pc + 4) 0)).mapLanes T (fun _ L => { L with q := Latches.invalid })).dropReplies c.lanes with
           pending := some (guess G []), runMask := 0, runPos := G.runPos + 1 }
       exec i s = .next ((left.enterTrap c.t c.g T causeIllegal 0 c.pc (fun _ => c.pc)).settle c.t))) ∧
  (∀ (G : Group) (key : FragKey) (T N : List Nat),
     (∀ l, l ∈ T ∨ l ∈ N → l ∈ G.lanes.map (·.1) ∧ (G.lane l).frag = key) → (∀ l, l ∈ T → l ∉ N) →
     let H := G.split key T N
     (∀ l m, l ∈ T ∨ l ∈ N → m ∈ T ∨ m ∈ N → ((H.lane l).frag = (H.lane m).frag ↔ (l ∈ T ↔ m ∈ T))) ∧
     (∀ l, ¬(l ∈ T ∨ l ∈ N) → H.lane l = G.lane l) ∧
     (∀ l, H.lane l = { G.lane l with frag := (H.lane l).frag }))

/-! ## Lane branches and lane control (07_uniform_and_control.md, 10_masks_and_barriers.md) -/

/-- EXIT (R212, R355): the active lanes with NV, DZ or OF to report, outside every handler and with a %handler, enter it
with cause STATUS and the EXIT word as their return point; the others write their coverage's colours (R252), end, and lose
their bits in k0 to k11; then every rendezvous is examined again.

A lane that ends (R205, R212): it is no longer live, its bits in k0 to k11 and its meeting register are clear, and it
holds nothing up; lanes that do not end, and the rest of the masks, are unchanged. -/
def Obligations.LanesExit : Prop :=
  (∀ (s t : State) (c : Ctx) (e : Bool),
     Executes s c (.exit e) →
     let report := c.lanes.filter (fun l => c.grp.trapLevel == 0 && s.handlerFor c.t c.g c.team c.grp != 0 &&
       (c.grp.lane l).status &&& 7#6 &&& ~~~ (c.grp.lane l).rpt != 0)
     let ending := c.lanes.filter (fun l => !report.contains l)
     Chain (fun s l u => exitLane c s l = .done u) ending s t →
     exec (.exit e) s = .next (((t.modGroup c.t c.g fun G =>
       { (G.endLanes ending).dropReplies c.lanes with runMask := 0 }).statusTrap c.t c.g
       (s.handlerFor c.t c.g c.team c.grp) report c.pc c.pc).settle c.t)) ∧
  (∀ (G : Group) (ls : List Nat), Store.wf G.k = true → (∀ l ∈ ls, l < 32) →
     let H := G.endLanes ls
     (∀ l ∈ ls, (H.lane l).live = false ∧ (H.lane l).meet = 0) ∧
     (∀ l, l ∉ ls → H.lane l = G.lane l) ∧
     (∀ j l, j < 12 → l < 32 → (Store.get H.k j).getLsbD l = ((Store.get G.k j).getLsbD l && !ls.contains l)))

/-- JOIN, LEAVE and KSET (R207, R211), each with every WAIT examined again: the masks and meeting registers change together
(R205). KSET takes the lowest active lane's value alone, and traps LATCH_LOST on every active lane when that lane's latch
is invalid.

What the mask changes of R207 and R211 are, on both sides of R205: bit i of kj, and bit j of lane i's meeting register;
every other mask bit and everything else of a lane is unchanged.

KREAD (R210): the whole mask to every active lane's destination and q1.

The words of JOIN, LEAVE, KREAD and KSET (R207, R210, R211): lane control with its function in imm8 and the mask in d, KREAD's
in x. -/
def Obligations.MasksAndMeetingRegisters : Prop :=
  (∀ (s : State) (c : Ctx) (e : Bool) (k : BitVec 8) (x : Opd),
     let first := c.lanes.headD 0
     let quiet (G : Group) : Group := G.mapLanes c.lanes (fun _ L => L.latch none)
     (Executes s c (.join e k) →
       exec (.join e k) s = .next ((s.after c (.join e k) fun G => quiet (G.joinMask k c.lanes)).settle c.t)) ∧
     (Executes s c (.leave e k) →
       exec (.leave e k) s = .next ((s.after c (.leave e k) fun G => quiet (G.leaveMask k c.lanes)).settle c.t)) ∧
     (Issues s c (.kset e k x) → c.stepOne (.kset e k x) = true →
       (Instr.kset e k x).regRange c.team.regs c.team.ztiles = none →
       let lost := (c.grp.lane first).q.lost (Instr.kset e k x).latches
       (lost = none → exec (.kset e k x) s =
         .next ((s.after c (.kset e k x) fun G => quiet (G.setMask k (c.laneValue x first))).settle c.t)) ∧
       (∀ n, lost = some n → exec (.kset e k x) s = .next (trapWord s c causeLatchLost n.val)))) ∧
  (∀ (G : Group) (k : BitVec 8) (ls : List Nat) (m : Word), G.Whole → Store.wf G.k = true → k.toNat < 12 → (∀ l ∈ ls, l < 32) →
     let both (H : Group) (bit : Nat → Bool → Bool) : Prop :=
       (∀ j l, l < 32 → (Store.get H.k j).getLsbD l =
         if j = k.toNat then bit l ((Store.get G.k j).getLsbD l) else (Store.get G.k j).getLsbD l) ∧
       (∀ j l, j < 12 → l < 32 → (H.lane l).meet.getLsbD j =
         if j = k.toNat then bit l ((G.lane l).meet.getLsbD j) else (G.lane l).meet.getLsbD j) ∧
       (∀ l, H.lane l = { G.lane l with meet := (H.lane l).meet })
     both (G.joinMask k ls) (fun l b => b || ls.contains l) ∧
     both (G.leaveMask k ls) (fun l b => b && !ls.contains l) ∧
     both (G.setMask k m) (fun l _ => m.getLsbD l && (G.lane l).live)) ∧
  (∀ (s : State) (c : Ctx) (e : Bool) (d : Opd) (k : BitVec 8), Executes s c (.kread e d k) →
     exec (.kread e d k) s = .next (s.afterLanes c (.kread e d k) fun _ L => L.result d (Store.get c.grp.k k.toNat))) ∧
  (∀ (e : Bool) (k : BitVec 8) (d x : Opd),
     let W (dd xx f : Nat) : Option (BitVec 32) :=
       some (BitVec.ofNat 32 (e.toNat * 2 ^ 30 + 0x3F * 2 ^ 24 + dd * 2 ^ 16 + xx * 2 ^ 8 + f))
     encode (.join e k) = W k.toNat 0 0x02 ∧ encode (.leave e k) = W k.toNat 0 0x04 ∧
     encode (.kread e d k) = W d.code k.toNat 0x05 ∧ encode (.kset e k x) = W k.toNat x.code 0x06)

/-- WAIT, BAR and BARN (R206, R208, R215, R217): every active lane arrives, is held at its word and has invalid latches;
what the arrival releases, completes or spoils follows at once. BAR and BARN note %handler for a trap that they end in
(R166).

The release of a WAIT (R208): when every member of kj is held at a WAIT on kj (in a handler: every member among its own
lanes, R350), kj and its meeting bits are cleared, and the held lanes go on at the word after their own WAIT, those of one
word as one fragment and those of two words as two; until then nothing moves. Every mask that is ready is released. What follows an arrival
examines every group's WAITs so, in turn. Before the
held lanes go on, every store of the group is performed, and later loads read afresh (R101).

A WAIT, BAR or BARN whose arrival is the last one goes on at once (R208, R215, R217): the word answers a state in which its
lanes are free at the next word, as one fragment with invalid latches. For WAIT every live member of kj is active or held at a WAIT
on kj, and no lane of the team is at a barrier (nor has a group of it arrived at one); inside a handler the fragment is the
handler's. For BAR and BARN every live lane of the group is active or held at the same word, with nothing of its status to
report (R355), and the other groups that the barrier counts have arrived, and no further one is just arriving. -/
def Obligations.WaitsHoldAndRelease : Prop :=
  (∀ (s : State) (c : Ctx) (b k : BitVec 8),
     let arrive (h : Hold) (held : Group → Word64) : State := (s.modGroup c.t c.g fun G =>
       { (G.dropReplies c.lanes).mapLanes c.lanes (fun _ L => { L with hold := h, halt := false, q := Latches.invalid }) with
         runMask := 0, uq := Latches.invalid, heldHandler := held G }).settle c.t
     let seen := s.handlerFor c.t c.g c.team c.grp
     (Executes s c (.wait k) → exec (.wait k) s = .next (arrive (.wait k.toNat) (·.heldHandler))) ∧
     (Executes s c .bar → exec .bar s = .next (arrive (.barrier 16 0) fun _ => seen)) ∧
     (Executes s c (.barn b k) → exec (.barn b k) s = .next (arrive (.barrier b.toNat k.toNat) fun _ => seen))) ∧
  ((∀ (s : State) (t g : Nat) (T : Team) (G : Group), Tab.get? s.teams t = some T → Tab.get? T.groups g = some G →
     ((∀ j < 12, G.waitReady j = false) → s.settleWaits t g = s) ∧
     ((∃ j < 12, G.waitReady j = true) → s.settleWaits t g = (s.drainGroup t g).modGroup t g fun H =>
       ((List.range 12).filter G.waitReady).foldl Group.releaseWait { H with early := [], ahead := [] })) ∧
   (∀ (s : State) (t : Nat), Settles t s (s.settle t)) ∧
   ∀ (G : Group) (j : Nat), G.Whole → Store.wf G.k = true → j < 12 → (∀ l, (G.lane l).frag.base < G.nextBase) →
     let held (l : Nat) : Prop := (G.lane l).live = true ∧ (G.lane l).hold = .wait j ∧ (G.lane l).level = G.handlers.length
     (G.waitReady j = true ↔ (∃ l < 32, held l) ∧ ∀ l < 32, (Store.get G.k j).getLsbD l = true →
       (G.lane l).live = true → G.handlers.length ≤ (G.lane l).level → held l) ∧
     let H := G.releaseWait j
     (∀ i, Store.get H.k i = if i = j then 0 else Store.get G.k i) ∧
     (∀ l < 32, (H.lane l).meet.getLsbD j = false) ∧
     (∀ l < 32, held l → (H.lane l).hold = .run ∧ (H.lane l).q = Latches.invalid ∧
       (H.lane l).pc = (G.lane l).pc + 4 ∧ (∀ m < 32, held m → ((H.lane l).frag = (H.lane m).frag ↔ (G.lane l).pc = (G.lane m).pc)) ∧
       (∀ m < 32, ¬held m → (H.lane l).frag ≠ (H.lane m).frag)) ∧
     (∀ l < 32, ¬held l → H.lane l = { G.lane l with meet := (H.lane l).meet })) ∧
  (∀ (s : State) (c : Ctx), c.lanes ≠ [] → c.grp.ended = false →
     let T := c.team
     let goOn (i : Instr) : Prop := ∃ t key, exec i s = .next t ∧ ∀ l ∈ c.lanes, ((t.grpOf c).lane l).hold = .run ∧
       ((t.grpOf c).lane l).pc = BitVec.ofNat 64 (c.pc + 4) ∧ ((t.grpOf c).lane l).frag = key ∧
       ((t.grpOf c).lane l).q = Latches.invalid
     let counts (l : Nat) : Prop := l < 32 ∧ (c.grp.lane l).live = true
     (∀ k, Executes s c (.wait k) → c.level = c.grp.handlers.length →
       (∀ h, c.grp.handlers.getLast? = some h → ∃ l ∈ c.lanes, h.enter.getLsbD l = true) →
       (∀ G ∈ T.groups, ∀ L ∈ G.2.lanes, L.2.atBarrier = false) → (∀ b, (T.barrier b).arrived = 0) →
       (∀ l, counts l → (Store.get c.grp.k k.toNat).getLsbD l = true → c.level ≤ (c.grp.lane l).level →
         l ∈ c.lanes ∨ (c.grp.lane l).hold = .wait k.toNat ∧ (c.grp.lane l).level = c.level) → goOn (.wait k)) ∧
     (∀ (i : Instr) (b n : Nat), (i = .bar ∧ b = 16 ∧ n = 0 ∨ ∃ B N, i = .barn B N ∧ B.toNat = b ∧ N.toNat = n) →
       Executes s c i → c.g < 32 → c.grp.handlers = [] →
       (∀ l, counts l → (l ∈ c.lanes ∨ (c.grp.lane l).hold = .barrier b n ∧ (c.grp.lane l).pc.toNat = c.pc) ∧
         (c.grp.lane l).status &&& 0b000111#6 &&& ~~~ (c.grp.lane l).rpt = 0) →
       (∀ b', (T.barrier b').arrived.getLsbD c.g = false) →
       (∀ g G l m, g ≠ c.g → Tab.get? T.groups g = some G → (G.lane l).hold = .barrier b m → (T.barrier b).arrived.getLsbD g = true) →
       (b = 16 → ∀ g ∈ T.openGroups, g ≠ c.g → (T.barrier b).arrived.getLsbD g = true) →
       (b < 16 → n ≤ T.ngroup ∧ ((T.barrier b).count = 0 ∨ (T.barrier b).count.toNat = n) ∧
         (arrivedGroups (T.barrier b)).length + 1 = n) → goOn i))

/-- BAR's and BARN's counting (R215, R217, R216): an arrival is counted once; the first one fixes the count, a different count
traps BAR_COUNT subcode 1 and a count above %ngroup subcode 2, neither counted; the team barrier counts without a
number.

SIGN (R221): it waits while the register is complete; it traps BAR_COUNT subcode 1 on another quartet or set; else it
fixes quartet and set, signs each active lane's bit, and completion is examined.

A convergence register completes (R221) exactly when every live lane of every group of its set has signed; a group
with no live lane counts as signed.

What follows an arrival (R212, R214, R215, R217, R218, R221): the team's groups, then its barriers, then its convergence
registers are examined until nothing changes; a group that arrives is counted. A barrier whose generation completes is at its
next generation with nothing counted, and releases its groups together, their stores performed first (R100); one that can no
longer complete traps BAR_COUNT subcode 3 in its arrived groups and keeps its generation; else it stays. A released group's
live lanes form one fragment at the next word, its later loads read afresh, at BAR it takes the team's %handler (R166), and
what it has to report traps (R355). -/
def Obligations.BarriersAndConvergence : Prop :=
  (∀ (s : State) (t g b count : Nat) (ls : List Nat) (T : Team), Tab.get? s.teams t = some T → g < 32 → count < 33 →
     let r := T.barrier b
     let counted (n : BitVec 6) : State := s.modTeam t fun T =>
       T.putBarrier b ⟨r.gen, n, r.arrived ||| BitVec.ofNat 32 (2 ^ g)⟩
     (r.arrived.getLsbD g = true → s.countArrival t g b count ls = s) ∧
     (r.arrived.getLsbD g = false → b = 16 → s.countArrival t g b count ls = counted r.count) ∧
     (r.arrived.getLsbD g = false → b < 16 →
       (T.ngroup < count → s.countArrival t g b count ls = s.trapHeld t g ls causeBarCount (2 + b * 16)) ∧
       (count ≤ T.ngroup → r.count = 0 ∨ r.count.toNat = count →
         s.countArrival t g b count ls = counted (BitVec.ofNat 6 count)) ∧
       (count ≤ T.ngroup → r.count ≠ 0 → r.count.toNat ≠ count →
         s.countArrival t g b count ls = s.trapHeld t g ls causeBarCount (1 + b * 16 + r.count.toNat * 2 ^ 16)))) ∧
  (∀ (s : State) (c : Ctx) (n : BitVec 8) (m : BitVec 4),
     let i : Instr := .sign n m
     let r := c.team.convReg n.toNat
     let q : BitVec 3 := BitVec.ofNat 3 (c.g / 4)
     c.g < 32 → Executes s c i →
     (r.complete = true → exec i s = .next (s.waitUnit c)) ∧
     (r.complete = false → r.fixed = true → (r.quartet ≠ q ∨ r.mask ≠ m) →
       exec i s = .next (trapWord s c causeBarCount (1 + n.toNat * 16))) ∧
     (r.complete = false → (r.fixed = true → r.quartet = q ∧ r.mask = m) →
       ∃ r' : Conv, r'.gen = r.gen ∧ r'.fixed = true ∧ r'.quartet = q ∧ r'.mask = m ∧ r'.complete = false ∧
         (∀ b < 128, r'.signed.getLsbD b = (r.signed.getLsbD b || (b / 32 == c.g % 4 && c.lanes.contains (b % 32)))) ∧
         exec i s = .next (((s.modTeam c.t fun T => { T with conv := Tab.put T.conv n.toNat r' }).afterLanes c i
           fun _ L => L.latch none).settle c.t))) ∧
  (∀ (T : Team) (n : Nat) (r : Conv), Tab.get? T.conv n = some r → r.fixed = true → r.complete = false →
     ∃ b, Tab.get? T.settleConv.conv n = some { r with complete := b } ∧
       (b = true ↔ ∀ j < 4, r.mask.getLsbD j = true → ∀ G, Tab.get? T.groups (4 * r.quartet.toNat + j) = some G →
         ∀ l ∈ G.liveLanes, r.signed.getLsbD (32 * j + l) = true)) ∧
  ((∀ (s : State) (t : Nat), Settles t s (s.settle t)) ∧
   (∀ (s : State) (t b : Nat) (T : Team), Tab.get? s.teams t = some T → b < 17 →
     let r := T.barrier b
     let came := arrivedGroups r
     let coming := T.openGroups.filter (fun g => !r.arrived.getLsbD g)
     let put (r : Barrier) : State := s.modTeam t fun T => T.putBarrier b r
     let full : Prop := if b = 16 then came ≠ [] ∧ coming = [] else r.count ≠ 0 ∧ came.length = r.count.toNat
     let lost : Prop := b < 16 ∧ r.count ≠ 0 ∧ came.length + coming.length < r.count.toNat
     (full → s.settleBarrier t b = (put ⟨r.gen + 1, 0, 0⟩).releaseGroups t b came) ∧
     (¬full → lost → Chain (fun x g y => ∀ G, x.groupAt t g = some G →
         y = x.trapHeld t g (G.lanesWhere (fun L => L.live && L.hold == .barrier b r.count.toNat)) causeBarCount
           (3 + b * 16 + r.count.toNat * 2 ^ 16)) came (put ⟨r.gen, 0, 0⟩) (s.settleBarrier t b)) ∧
     (¬full → ¬lost → s.settleBarrier t b = s)) ∧
   (∀ (s : State) (t b : Nat) (gs : List Nat), ∃ v, Chain (fun x g y => y = x.drainGroup t g) gs s v ∧
     Chain (fun x g y => y = x.releaseGroup t b g) gs v (s.releaseGroups t b gs)) ∧
   (∀ (s : State) (t b g l : Nat) (T : Team) (G : Group) (ls : List Nat), Tab.get? s.teams t = some T →
     Tab.get? T.groups g = some G → G.Whole → (∀ l, (G.lane l).frag.base < G.nextBase) → G.liveLanes = l :: ls →
     let pc := (G.lane l).pc.toNat
     ∃ H, s.releaseGroup t b g = (s.modGroup t g fun _ => H).statusTrap t g G.heldHandler
         (G.statusLanes G.heldHandler G.liveLanes) pc (pc + 4) ∧
       H = { G with lanes := H.lanes, early := [], ahead := [], handler := if b = 16 then T.handler else G.handler,
                    nextBase := H.nextBase } ∧
       ∀ m, if m ∈ G.liveLanes
         then H.lane m = { G.lane m with hold := .run, halt := false, stalled := false, inRun := some 0, q := Latches.invalid,
                                         pc := BitVec.ofNat 64 (pc + 4), frag := (H.lane l).frag }
         else H.lane m = G.lane m ∧ (m < 32 → (H.lane m).frag ≠ (H.lane l).frag)) ∧
   (∀ (s : State) (t g l : Nat) (G : Group) (ls : List Nat) (cause info : Nat), s.groupAt t g = some G →
     s.trapHeld t g (l :: ls) cause info =
       s.enterHandler t g G.heldHandler (l :: ls) cause info (G.lane l).pc.toNat (fun m => (G.lane m).pc.toNat)))

/-- WAITB and POLLB (R222): each active lane reads its object's count, of five bytes; POLLB gives 0 or the count as far as
32 bits hold it; WAITB goes on once every count is zero, and else waits with nothing done; after either, later loads read
afresh (R108). (The addresses lie in the window, aligned and below
the limit, with no lock on them.) -/
def Obligations.CountsAreWaitedFor : Prop :=
  ∀ (s : State) (c : Ctx) (e : Bool) (d x : Opd),
    let a (l : Nat) : Nat := c.grp.pairVal (c.grp.lane l) x
    let cnt (l : Nat) : Nat := leValue ((List.range 5).map (fun i => s.loadPlace c (.scratch (a l - windowBase + i))))
    (∀ l ∈ c.lanes, windowBase ≤ a l ∧ a l % 16 = 0 ∧ a l + 16 ≤ windowBase + c.team.limit ∧
      lockHit (s.locksOf c.team.pcore) c.t c.space (a l) 16 .load = none) →
    (Executes s c (.pollb e d x) → exec (.pollb e d x) s = .next (s.after c (.pollb e d x) fun G =>
      { G with early := [], ahead := [] }.mapLanes c.lanes fun l L =>
        L.result d (BitVec.ofNat 32 (if cnt l = 0 then 0 else min (cnt l) 0xFFFFFFFF)))) ∧
    (Executes s c (.waitb x) →
      ((∀ l ∈ c.lanes, cnt l = 0) → exec (.waitb x) s = .next (s.after c (.waitb x) fun G =>
        { G with early := [], ahead := [] }.mapLanes c.lanes fun _ L => L.latch none)) ∧
      ((∃ l ∈ c.lanes, cnt l ≠ 0) → exec (.waitb x) s = .next (s.waitUnit c)))

/-! ## The checks of a word, and traps (06_formats_and_opcode_map.md R149; 24_traps_and_preemption.md) -/

/-- The checks of R149 in their order, and the holds before them: a word at which R350 or R29 has the fragment wait only
halts it; else ILLEGAL comes first, then REG_RANGE with its register or tile, then for a uniform word LATCH_LOST with its latch,
each on every active lane and with no effect of the word. IADD, LD.w and ST.w stand for the lane words, whose lanes trap
LATCH_LOST. Who waits for whom, and that LAUNCH's fields come before its hold, are read from R29, R30 and R170 (the model's logs 16
and 22). -/
def Obligations.WordChecksInOrder : Prop :=
  (∀ (s : State) (c : Ctx) (i : Instr), i.kind ≠ .event → s.issuer = some c →
    ((heldOutside i = true ∧ c.level < c.grp.handlers.length → exec i s = .next (s.haltUnit c)) ∧
    (holdPoint i = true → c.grp.mustHold c.level c.key c.lanes c.pc = true → c.stepOne i = true →
      exec i s = .next (s.haltUnit c)))) ∧
  (∀ (s : State) (c : Ctx) (i : Instr), i.kind ≠ .event → Issues s c i →
    (c.stepOne i = false → exec i s = .next (trapWord s c causeIllegal 0)) ∧
    (∀ r, c.stepOne i = true → i.regRange c.team.regs c.team.ztiles = some r →
      exec i s = .next (trapWord s c causeRegRange r)) ∧
    (∀ n, c.stepOne i = true → i.regRange c.team.regs c.team.ztiles = none → i.kind = .uniform →
      c.grp.uq.lost i.latches = some n → exec i s = .next (trapWord s c causeLatchLost n.val))) ∧
  (∀ (s : State) (c : Ctx) (e : Bool) (d x y : Opd) (o : BitVec 8) (i : Instr) (n : Fin 4),
    (i = .iadd e d x y ∨ i = .ldW e d x o ∨ i = .stW e d x o) →
    Issues s c i → c.stepOne i = true → i.regRange c.team.regs c.team.ztiles = none →
    (∀ l ∈ c.lanes, (c.grp.lane l).q.lost i.latches = some n) →
    exec i s = .next (trapWord s c causeLatchLost n.val))

/-- TRAP and BKPT (R213, R266, R267) outside a fragment that a handler keeps out: every active lane enters the handler with
the cause, the user code or 0, the word's address, and the next word, at its place in the run (R21), as its return point;
what the entry releases or spoils follows.

Taking a trap below level 2, with a %handler and a frame that fits (R349, R351, R267): the frame lies at s58:s59 − 1,024,
as the group's newest store, with the contents of R351; s58:s59, %traplevel, %trapcause, %trappc and %trapinfo are set; k0 to k11
and every meeting register are zero; the lanes that trapped are one new fragment at the handler with invalid latches;
nothing else of a lane or of the s registers changes. -/
def Obligations.TrapsEnterTheHandler : Prop :=
  (∀ (s : State) (c : Ctx) (e : Bool) (n : BitVec 8) (i : Instr) (cause info : Nat),
     (i = .trap e n ∧ cause = 0x04 ∧ info = n.toNat ∨ i = .bkpt e ∧ cause = 0x05 ∧ info = 0) →
     Executes s c i → c.lanes ≠ [] → c.grp.handlers.length ≤ c.level →
     let left := s.modGroup c.t c.g fun G =>
       { ((G.mapLanes c.lanes (fun _ L => { L with q := Latches.invalid })).dropReplies c.lanes).mapLanes c.lanes
           (fun _ L => L.advance (c.pc + 4) (if e then 0 else c.grp.runPos + 1)) with
         runMask := 0, runPos := G.runPos + 1 }
     exec i s = .next ((left.enterTrap c.t c.g c.lanes cause info c.pc (fun _ => c.pc + 4)).settle c.t)) ∧
  (∀ (s : State) (t g cause info pc : Nat) (enter : List Nat) (ret : Nat → Nat) (T : Team) (G : Group),
     Tab.get? s.teams t = some T → Tab.get? T.groups g = some G → G.Whole → Store.wf G.s = true →
     enter ≠ [] → (∀ l ∈ enter, l < 32) → (∀ l, (G.lane l).frag.base < G.nextBase) →
     let handler := s.handlerFor t g T G
     let level := G.trapLevel.toNat
     let F := (G.framePtr + (2 ^ 64 - 1024)) % 2 ^ 64
     level < 2 → handler ≠ 0 → windowBase ≤ F → F + 1024 ≤ windowBase + T.limit →
     ∃ T' H, Tab.get? (s.enterTrap t g enter cause info pc ret).teams t = some T' ∧ Tab.get? T'.groups g = some H ∧
       H.framePtr = F ∧ (∀ r, r ≠ 58 → r ≠ 59 → H.sreg r = G.sreg r) ∧
       (∃ h, H.handlers = G.handlers ++ [h] ∧ (∀ j < 12, Store.get h.masks j = Store.get G.k j) ∧
         ∀ j < 8, Store.get h.f j = Store.get G.f j ∧ Store.get H.f j = Store.get G.f j) ∧
       H.trapLevel.toNat = level + 1 ∧ H.trapCause.toNat = cause % 2 ^ 8 ∧ H.trapInfo.toNat = info % 2 ^ 32 ∧ H.trapPc.toNat = pc % 2 ^ 64 ∧
       (∀ j, Store.get H.k j = 0) ∧
       (∀ l ∈ enter, ∃ k, H.lane l = { G.lane l with
         pc := handler, meet := 0, frag := k, hold := .run, halt := false, stalled := false, arrive := true,
         inRun := some 0, level := G.handlers.length + 1, q := Latches.invalid } ∧ ∀ m < 32, ((H.lane m).frag = k ↔ m ∈ enter)) ∧
       (∀ l < 32, l ∉ enter → H.lane l = { G.lane l with meet := 0 }) ∧
       let at_ (o n : Nat) : Nat := leValue ((List.range n).map (fun i =>
         (forwarded H.fifo (.scratch (F - windowBase + o + i))).getD 0))
       (∀ l < 32, at_ (8 * l) 8 = (if l ∈ enter then ret l else (G.lane l).pc.toNat) % 2 ^ 64) ∧
       (∀ l < 32, at_ (0x100 + 4 * l) 4 = (G.lane l).meet.toNat) ∧
       (∀ j < 12, at_ (0x180 + 4 * j) 4 = (Store.get G.k j).toNat) ∧
       (∀ l < 32, at_ 0x1B0 4 / 2 ^ l % 2 = if l ∈ enter then 1 else 0) ∧
       (∀ l < 32, at_ 0x1B4 4 / 2 ^ l % 2 = if (G.lane l).live then 1 else 0) ∧
       at_ 0x1B8 4 = level ∧ at_ 0x1BC 4 = 0 ∧
       (let together (k l : Nat) : Prop := (G.lane k).live = true ∧ (G.lane k).frag = (G.lane l).frag ∧
           (G.lane k).level = (G.lane l).level
         ∀ l < 32, (G.lane l).live = true →
           ∃ m < 32, at_ (0x1C0 + l) 1 = m ∧ together m l ∧ ∀ k < 32, together k l → m ≤ k) ∧
       at_ 0x1E0 4 = cause % 2 ^ 32 ∧ at_ 0x1E4 4 = info % 2 ^ 32 ∧ at_ 0x1E8 8 = pc % 2 ^ 64 ∧
       (∀ o < 528, at_ (0x1F0 + o) 1 = 0))

/-- A group stops (R353, R354) on a trap at level 2, with cause DOUBLE_TRAP, and on one with %handler 0 or a frame that does
not fit, with its own cause: every lane ends, its stores are performed, so that memory is as they leave it, the grid's record will carry STATUS 1, and an
error record with the cause and the trapping word's address waits for the partition's ring.

STATUS traps (R355): a lane reports when its status holds NV, DZ or OF that its reported set lacks; never inside a
handler or with %handler 0; the reporting lanes enter together, %trapinfo takes the OR of their status, and each one's reported
set takes its own. -/
def Obligations.GroupStopsAndStatus : Prop :=
  (∀ (s : State) (t g cause info pc : Nat) (enter : List Nat) (ret : Nat → Nat) (T : Team) (G : Group),
     Tab.get? s.teams t = some T → Tab.get? T.groups g = some G → G.Whole →
     g < 32 → T.pcore < 4096 → cause < 256 →
     let F := (G.framePtr + (2 ^ 64 - 1024)) % 2 ^ 64
     let u := s.enterTrap t g enter cause info pc ret
     (2 ≤ G.trapLevel.toNat ∨ s.handlerFor t g T G = 0 ∨ ¬(windowBase ≤ F ∧ F + 1024 ≤ windowBase + T.limit)) →
     u.mem = (s.drainGroup t g).mem ∧
     (∃ T' H, Tab.get? u.teams t = some T' ∧ Tab.get? T'.groups g = some H ∧ H.fifo = [] ∧ H.ended = true ∧
       H.stopped = true ∧ H.handlers = [] ∧ H.trapLevel = 0 ∧ ∀ l, (H.lane l).live = false) ∧
     (∀ gr, Tab.get? u.grids T.grid = some gr → gr.stopped = true) ∧
     (∀ P, Tab.get? u.parts T.part = some P → ∃ rest r, P.error.waiting = rest ++ [r] ∧
       r.extractLsb' 128 64 = BitVec.ofNat 64 pc ∧ r.extractLsb' 64 32 = BitVec.ofNat 32 T.index ∧
       (r.extractLsb' 17 8).toNat = if 2 ≤ G.trapLevel.toNat then 0x14 else cause)) ∧
  ((∀ (G : Group) (handler : Word64) (ls : List Nat) (l : Nat), l ∈ G.statusLanes handler ls ↔
     l ∈ ls ∧ G.trapLevel = 0 ∧ handler ≠ 0 ∧ (G.lane l).live = true ∧
       ((G.lane l).status &&& 0b000111#6 &&& ~~~ (G.lane l).rpt) ≠ 0) ∧
   (∀ (s : State) (t g pc ret : Nat) (handler : Word64) (ls : List Nat) (T : Team) (G : Group),
     Tab.get? s.teams t = some T → Tab.get? T.groups g = some G → ls ≠ [] →
     let u := s.modGroup t g (·.mapLanes ls (fun _ L => { L with rpt := L.rpt ||| L.status }))
     s.statusTrap t g handler ls pc ret =
       u.enterHandler t g handler ls 0x13 (ls.foldl (fun f l => f ||| (G.lane l).status) (0 : BitVec 6)).toNat pc (fun _ => ret)))

/-- ERET (R265, R352) by the whole handler: a frame outside the scratchpad traps SCRATCH_RANGE (with which it traps is the
model's log 32, DEDUCED) and a saved program counter that is no code address traps ILLEGAL, at the current level; else the lanes that entered and are live return as is said
below, and every rendezvous is examined again.

What the end of a handler instance restores from the frame at s58:s59 (R352, R406): %traplevel from 0x1B8; k0 to k11 and
the meeting registers together (R205), with the bits of ended lanes clear: a bit of the frame's mask word counts where it
differs from the mask at entry, else the frame's meeting bit (what a handler edits counts: the model's log 32, DEDUCED);
f0 to f7 as they stood at entry (R224; the frame has no place for them: DEDUCED, log 68); s58:s59 ← F + 1,024; the trap registers, zero at level 0 and those of the level-1 frame at level 1. A returning lane takes
its saved program counter with invalid latches, outside the handler, in the fragment that its FRAG byte's lane had at
entry; every other lane keeps all but its meeting register. -/
def Obligations.HandlersReturn : Prop :=
  (∀ (s : State) (c : Ctx), Executes s c .eret →
     let F := c.grp.framePtr
     let back := c.grp.enteredLive
     let fits := windowBase ≤ F ∧ F + 1024 ≤ windowBase + c.team.limit
     let legal := ∀ l ∈ back, codeAddress (s.frameValue c.team c.grp (F - windowBase + 8 * l) 8) = true
     (¬fits → exec .eret s = .next (trapWord s c causeScratchRange (scratchInfo F 1024 c.team.limit))) ∧
     (fits → ¬legal → exec .eret s = .next (trapWord s c causeIllegal 0)) ∧
     (fits → legal → exec .eret s = .next (((s.leaveHandler c.t c.g back).modGroup c.t c.g fun G =>
       { G with runMask := 0, uq := Latches.invalid }).settle c.t))) ∧
  (∀ (s : State) (t g : Nat) (back : List Nat) (T : Team) (G : Group) (h : Handler) (hs : List Handler),
     Tab.get? s.teams t = some T → Tab.get? T.groups g = some G → G.Whole → Store.wf G.s = true →
     G.handlers = hs ++ [h] → (∀ l ∈ back, l < 32) →
     let F := G.framePtr
     let at_ (o n : Nat) : Nat := s.frameValue T G (F - windowBase + o) n
     let level := at_ 0x1B8 4 % 4
     ∃ T' H, Tab.get? (s.leaveHandler t g back).teams t = some T' ∧ Tab.get? T'.groups g = some H ∧
       H.handlers = hs ∧ (∀ j < 8, Store.get H.f j = Store.get h.f j) ∧ H.trapLevel.toNat = level ∧ H.framePtr = (F + 1024) % 2 ^ 64 ∧
       (∀ r, r ≠ 58 → r ≠ 59 → H.sreg r = G.sreg r) ∧
       (∀ j < 12, ∀ l < 32,
         let mask := (at_ (0x180 + 4 * j) 4).testBit l
         (Store.get H.k j).getLsbD l = ((G.lane l).live &&
           if mask = (Store.get h.masks j).getLsbD l then (at_ (0x100 + 4 * l) 4).testBit j else mask)) ∧
       (∀ j < 12, ∀ l < 32, (H.lane l).meet.getLsbD j = (Store.get H.k j).getLsbD l) ∧
       (∀ l ∈ back, (H.lane l).pc.toNat = at_ (8 * l) 8 ∧ (H.lane l).q = Latches.invalid ∧ (H.lane l).hold = .run ∧
         (H.lane l).level = hs.length ∧ (H.lane l).arrive = false ∧
         (H.lane l).frag = h.keys.getD (at_ (0x1C0 + l) 1) (G.lane l).frag ∧ (H.lane l).v = (G.lane l).v ∧
         (H.lane l).live = (G.lane l).live ∧ (H.lane l).status = (G.lane l).status ∧ (H.lane l).rpt = (G.lane l).rpt) ∧
       (∀ l < 32, l ∉ back → H.lane l = { G.lane l with meet := (H.lane l).meet }) ∧
       (level ≠ 1 → H.trapCause = 0 ∧ H.trapInfo = 0 ∧ H.trapPc = 0) ∧
       (∀ outer, level = 1 → hs.getLast? = some outer →
         let frame (o n : Nat) : Nat := s.frameValue T G (outer.frame.toNat - windowBase + o) n
         H.trapCause.toNat = frame 0x1E0 4 % 256 ∧ H.trapInfo.toNat = frame 0x1E4 4 ∧ H.trapPc.toNat = frame 0x1E8 8))

/-! ## The system's words (07_uniform_and_control.md R164 to R171) -/

/-- SYSRD (R164): the register's value as the issuing fragment reads it, in d or the pair d:d+1, with the low 32 bits in q1.
Outside a handler the trap registers, %traplevel too, read as zero (the model's log 21, DEDUCED); what %clock adds to the cycle count is the core's own, %handler
is the group's own view or a later write of another group (R166).

SYSWR (R164, R165, R166, R355): %status clears the named flags in every active lane's status and reported set; %handler
takes the pair, for the team and for the group's own later instructions at once; q1 becomes invalid. A %handler that is
no code address traps ILLEGAL, as does any other number.

SCHED (R168, R169): 0, 0, 0, 8 with no table; else, with the eight entries of its class read, the entry of the smallest
limit that holds the size (the lowest index among equals, an unused one never), as ENTRY, PARAM and its index, or 0, 0, 0, 8 when
none fits. -/
def Obligations.SystemWordsComplete : Prop :=
  (∀ (s : State) (c : Ctx) (e : Bool) (d : Opd) (r : BitVec 16),
     let inside (v : Nat) : Nat := if 0 < c.level then v else 0
     let narrow : List (Nat × Nat) := [(0x000, c.lanes.headD 0), (0x001, c.g), (0x002, c.team.index),
       (0x003, (c.grid.packet.extractLsb' 128 32).toNat), (0x004, c.team.core), (0x005, c.team.cluster),
       (0x006, c.team.pcore), (0x007, c.grid.depth), (0x008, (c.grid.packet.extractLsb' 160 32).toNat),
       (0x009, c.team.ngroup), (0x00A, c.team.limit),
       (0x018, (c.lanes.foldl (fun f l => f ||| (c.grp.lane l).status) (0 : BitVec 6)).toNat),
       (0x021, inside c.grp.trapLevel.toNat), (0x022, inside c.grp.trapCause.toNat), (0x024, inside c.grp.trapInfo.toNat)]
     let wide : List (Nat × Nat) := [(0x00B, pkSched (teamPacket c.grid c.team)),
       (0x010, (s.cycles + Config.clockOffset c.team.pcore) % 2 ^ 64), (0x011, s.time % 2 ^ 64),
       (0x020, (s.handlerFor c.t c.g c.team c.grp).toNat), (0x023, inside c.grp.trapPc.toNat)]
     Executes s c (.sysrd e d r) →
     (∀ v, (r.toNat, v) ∈ narrow →
       exec (.sysrd e d r) s = .next (s.after c (.sysrd e d r) fun G => G.result d (BitVec.ofNat 32 v))) ∧
     (∀ v, (r.toNat, v) ∈ wide → exec (.sysrd e d r) s = .next (s.after c (.sysrd e d r) fun G =>
       G.results d [BitVec.ofNat 32 v, BitVec.ofNat 32 (v / 2 ^ 32)])) ∧
     (∃ v, (r.toNat, v) ∈ narrow ∨ (r.toNat, v) ∈ wide)) ∧
  (∀ (s : State) (c : Ctx) (e : Bool) (d : Opd) (r : BitVec 16),
     let i : Instr := .syswr e d r
     let h := c.grp.sPair d.num
     (Executes s c i → r = 0x018 → exec i s = .next (s.after c i fun G =>
       (G.mapLanes c.lanes (fun _ L => { L with
         status := L.status &&& ~~~ (c.grp.uniVal d).extractLsb' 0 6,
         rpt := L.rpt &&& ~~~ (c.grp.uniVal d).extractLsb' 0 6 })).latchU none)) ∧
     (Executes s c i → r = 0x020 → exec i s = .next ((s.modTeam c.t fun T => { T with handler := BitVec.ofNat 64 h }).after c i
       fun G => { G with handler := BitVec.ofNat 64 h }.latchU none)) ∧
     (Issues s c i → (r = 0x020 ∧ ¬(h % 4 = 0 ∧ canonical h = true ∧ h < windowBase) ∨ r ≠ 0x018 ∧ r ≠ 0x020) →
       exec i s = .next (trapWord s c causeIllegal 0))) ∧
  (∀ (s : State) (c : Ctx) (e : Bool) (d x : Opd) (k : BitVec 4),
     let i : Instr := .sched e d x k
     let tab := pkSched (teamPacket c.grid c.team)
     let n := (c.grp.uniVal x).toNat
     Executes s c i →
     (tab = 0 → exec i s = .next (s.after c i fun G => G.results d [0, 0, 0, 8])) ∧
     (∀ (u : State) (entry : Nat → Nat), tab ≠ 0 →
       Chain (fun v j w => ∃ bs, readLane s v c (c.lanes.headD 0) ((tab + 128 * k.toNat + 16 * j) % 2 ^ 64) 16 = .val w bs ∧
         entry j = leValue bs) (List.range 8) s u →
       let fits (j : Nat) : Prop := entry j / 2 ^ 64 ≠ 0 ∧ n ≤ entry j % 2 ^ 32
       ((∀ j < 8, ¬fits j) → exec i s = .next (u.after c i fun G => G.results d [0, 0, 0, 8])) ∧
       (∀ j < 8, fits j → (∀ m < 8, fits m → entry j % 2 ^ 32 < entry m % 2 ^ 32 ∨
           entry j % 2 ^ 32 = entry m % 2 ^ 32 ∧ j ≤ m) →
         exec i s = .next (u.after c i fun G => G.results d [BitVec.ofNat 32 (entry j / 2 ^ 64),
           BitVec.ofNat 32 (entry j / 2 ^ 96), BitVec.ofNat 32 (entry j / 2 ^ 32), BitVec.ofNat 32 j]))))

/-- LAUNCH (R170, R38, R102, R310): at depth 10 it traps LAUNCH_DEPTH; else, with the packet read, it writes the lowest
failing row of R170 to d and q1 and leaves nothing else behind, or 4 with every child-grid slot in use, or it performs the
group's earlier stores, creates the child grid whole at depth %depth + 1 in its parent's partition, queue and address space,
and writes 0. A LAUNCH whose active lanes are all helper
lanes has no effect (R132). -/
def Obligations.LaunchCompletes : Prop :=
  ∀ (s u : State) (c : Ctx) (e : Bool) (d x : Opd) (bs : List Byte),
    let i : Instr := .launch e d x
    let p : BitVec 1024 := BitVec.ofNat 1024 (leValue bs)
    let f (lo n : Nat) : Nat := (p.extractLsb' lo n).toNat
    let regs := f 200 8
    let m := (f 192 6 + 1 + 3) / 4
    let row1 := regs % 8 ≠ 0 ∨ regs < 8 ∨ 192 < regs
    let row2 := 32 < f 192 6 + 1 ∨ 0 < f 208 7 ∧ (f 192 6 + 1) % 4 ≠ 0
    let row3 := f 704 320 ≠ 0 ∨ f 640 64 ≠ 0 ∨ f 608 16 ≠ 0 ∨ f 244 12 ≠ 0 ∨ f 216 8 ≠ 0 ∨ f 198 2 ≠ 0 ∨ 524288 < f 224 20 ∨
      64 < f 208 7 ∨ f 160 32 = 0 ∨ f 512 64 % 4 ≠ 0 ∨ f 448 64 % 4 ≠ 0 ∨ f 384 64 % 16 ≠ 0 ∨ 64 < m * f 208 7 ∨
      min 16 (2048 / regs) < m
    let answers (t : State) (status : Word) : Prop := exec i s = .next (t.after c i fun G => G.result d status)
    Executes s c i →
    ((∀ l ∈ c.lanes, (c.grp.lane l).helper = true) → exec i s = .next (s.after c i (·.latchU none))) ∧
    ((∃ l ∈ c.lanes, (c.grp.lane l).helper = false) →
    (10 ≤ c.grid.depth → exec i s = .next (trapWord s c causeLaunchDepth 0)) ∧
    (c.grid.depth < 10 → readLane s s c (c.lanes.headD 0) (c.grp.sPair x.num) 128 = .val u bs →
      (row1 → answers u 1) ∧ (¬row1 → row2 → answers u 2) ∧ (¬row1 → ¬row2 → row3 → answers u 3) ∧
      (¬row1 → ¬row2 → ¬row3 → 4096 ≤ u.kidsOf c.grid.part → answers u 4) ∧
      (¬row1 → ¬row2 → ¬row3 → u.kidsOf c.grid.part < 4096 →
        ∃ child : Grid, child.packet = p ∧ child.depth = c.grid.depth + 1 ∧ child.parent = some c.team.grid ∧
          child.part = c.grid.part ∧ child.queue = c.grid.queue ∧ child.asid = c.grid.asid ∧ child.root = c.grid.root ∧
          child.tenant = c.grid.tenant ∧ child.next = 0 ∧ child.liveTeams = 0 ∧ child.liveKids = 0 ∧
          child.depOk = (f 512 64 == 0) ∧ child.stopped = false ∧ child.aborted = c.grid.aborted ∧
          answers ((u.drainGroup c.t c.g).addChild c.team.grid child) 0)))

/-! ## Formats, tiles and the quartet step (11_matrix.md, 02_numbers.md) -/

/-- FMTSET (R223, R55, R56): a valid descriptor goes into fN, with q1 invalid; any other traps ILLEGAL and fN keeps its
value.

ZCLR (R235): the named tile's 1,024 slots become +0; no other slot, lane or register changes.

ZRD and ZWR (R226, R236, R63): by a fragment that holds every live lane of its group, in all 32 lanes, q1 of a lane
taking its lowest result; a fragment that does not traps MMA_STEP subcode 4, and ZRD.q with an invalid fN traps ILLEGAL.
(What q1 takes, and that ILLEGAL comes before MMA_STEP, is the model's log 44, DEDUCED; the flags and signs of a
saturating conversion its log 43.) -/
def Obligations.FormatsAndTiles : Prop :=
  (∀ (s : State) (c : Ctx) (e : Bool) (n : BitVec 3) (x : Opd),
     let v := c.grp.uniVal x
     let f (lo len : Nat) : Nat := v.toNat / 2 ^ lo % 2 ^ len
     let valid := f 20 12 = 0 ∧ f 7 1 = 0 ∧ 1 ≤ f 6 1 + f 3 3 + f 0 3 ∧ f 6 1 + f 3 3 + f 0 3 ≤ (if f 19 1 = 0 then 8 else 4) ∧
       f 16 2 ≠ 3 ∧ (f 16 2 = 1 → 1 ≤ f 3 3) ∧ (f 16 2 = 2 → f 6 1 = 1 ∧ 1 ≤ f 3 3) ∧
       (f 3 3 = 0 → 1 ≤ f 0 3 ∧ f 16 2 = 0 ∧ f 18 1 = 0)
     Executes s c (.fmtset e n x) →
     (valid → exec (.fmtset e n x) s = .next (s.after c (.fmtset e n x) fun G =>
       { G with f := Store.set G.f n.toNat v }.latchU none)) ∧
     (¬valid → exec (.fmtset e n x) s = .next (trapWord s c causeIllegal 0))) ∧
  (∀ (s : State) (c : Ctx) (e : Bool) (z : BitVec 6), Executes s c (.zclr e z) → Store.wf c.grp.z = true →
     ∃ zs : Store 56,
       (∀ k, Store.get zs k = if k / 1024 = z.toNat then 0 else Store.get c.grp.z k) ∧
       exec (.zclr e z) s = .next (s.after c (.zclr e z) fun G => { G with z := zs }.latchU none)) ∧
  (∀ (s : State) (c : Ctx) (e : Bool) (d : BitVec 5) (z : BitVec 6) (b f : BitVec 2) (m n : BitVec 3) (sat : BitVec 1),
     let slot (l j : Nat) : Nat := 1024 * z.toNat + 64 * (l % 16) + (16 * b.toNat + 2 * j + l / 16)
     let fw := Store.get c.grp.f n.toNat
     let out (l j : Nat) : Nat × Flags :=
       let v := (Store.get c.grp.z (slot l j)).toNat
       let float (t : Fmt) : Nat × Flags := if sat = 1 then fcvtSat a56 t (roundMode m.toNat) v else fcvt a56 t (roundMode m.toNat) v
       if f = 0 then float f32 else if f = 1 then float f16 else if f = 2 then float g16
       else (Desc.ofWord fw).ofFloat a56 (roundMode m.toNat) v
     let wide (l j : Nat) : Nat × Flags := fcvt f32 a56 .rne ((c.grp.lane l).vreg (8 * d.toNat + j)).toNat
     let flags (g : Nat → Nat × Flags) : Flags := (List.range 8).foldl (fun fl j => fl ||| (g j).2) 0
     let whole := c.lanes = c.grp.liveLanes
     (let i : Instr := .zrd e d z b f m sat n
      Executes s c i →
       (f = 3 → descValid fw = false → exec i s = .next (trapWord s c causeIllegal 0)) ∧
       ((f = 3 → descValid fw = true) → ¬whole → exec i s = .next (trapWord s c causeMmaStep 0xF4)) ∧
       ((f = 3 → descValid fw = true) → whole → exec i s = .next (s.after c i fun G =>
         (G.mapLanes (List.range 32) (fun l L =>
           (({ L with v := Store.setRange L.v (8 * d.toNat) ((List.range 8).map (fun j => BitVec.ofNat 32 (out l j).1)) } :
             Lane).latch (some (BitVec.ofNat 32 (out l 0).1))).raise (flags (out l)))).latchU none))) ∧
     (let i : Instr := .zwr e d z b
      Executes s c i → Store.wf c.grp.z = true →
       (¬whole → exec i s = .next (trapWord s c causeMmaStep 0xF4)) ∧
       (whole → ∃ zs : Store 56,
         (∀ l < 32, ∀ j < 8, Store.get zs (slot l j) = BitVec.ofNat 56 (wide l j).1) ∧
         (∀ k, (∀ l < 32, ∀ j < 8, k ≠ slot l j) → Store.get zs k = Store.get c.grp.z k) ∧
         exec i s = .next (s.after c i fun G =>
           ({ G with z := zs }.mapLanes (List.range 32) (fun l L => L.raise (flags (wide l)))).latchU none))))

/-- MMA and MMAZ (R228, R229, R230): a fragment that is its whole group binds to the lowest convergence register that is
fixed for its quartet with all four groups and holds a signature of its own group, and its lanes are held there; with no
such register, or a live lane elsewhere, every active lane traps MMA_STEP with subcode 1 or 4.

QUARTET_STEP_START (R229, R230, R233) for a complete convergence register with all four groups held at matrix words bound to
it, none of their quarters in the middle of another group's run, and a lease that admits the step: different containers trap
subcode 2 and a bad format register subcode 5, changing no tile; otherwise the four runs begin, the operands are read as
they stand, and a core with room keys in force pays four operations. An incomplete register starts nothing. -/
def Obligations.QuartetStepStarts : Prop :=
  (∀ (s : State) (c : Ctx) (e : Bool) (z : BitVec 6) (a b : BitVec 5) (p k sa sb : BitVec 2) (i : Instr),
     (i = .mma e z a b p k sa sb ∨ i = .mmaz e z a b p k sa sb) → Executes s c i →
     let fit (n : Nat) : Prop :=
       let r := c.team.convReg n
       r.fixed = true ∧ r.quartet.toNat = c.g / 4 ∧ r.mask = 15 ∧ ∃ l < 32, r.signed.getLsbD (32 * (c.g % 4) + l) = true
     (c.lanes ≠ c.grp.liveLanes → exec i s = .next (trapWord s c causeMmaStep 0xF4)) ∧
     (c.lanes = c.grp.liveLanes → (∀ n < 8, ¬fit n) → exec i s = .next (trapWord s c causeMmaStep 0xF1)) ∧
     (∀ n < 8, c.lanes = c.grp.liveLanes → fit n → (∀ m < n, ¬fit m) → exec i s = .next ((s.modGroup c.t c.g fun G =>
       { (G.dropReplies c.lanes).mapLanes c.lanes (fun _ L =>
           { L with hold := .matrix n i, halt := false, q := Latches.invalid }) with
         runMask := 0, uq := Latches.invalid, heldHandler := s.handlerFor c.t c.g c.team c.grp }).settle c.t))) ∧
  (∀ (s : State) (t cn : Nat) (T : Team) (k : Core) (gr : Grid) (G : Nat → Group) (i : Nat → Instr) (m : Nat → MmaWord),
     Tab.get? s.teams t = some T → Tab.get? s.cores T.pcore = some k → Tab.get? s.grids T.grid = some gr →
     Tab.get? T.steps cn = none →
     let r := T.convReg cn
     let q := r.quartet.toNat
     (r.complete = false → exec (.quartetStepStart t cn) s = .next s) ∧
     (r.complete = true →
       (∀ j < 4, Tab.get? T.groups (4 * q + j) = some (G j) ∧ (G j).liveLanes ≠ [] ∧ (G j).saved = false ∧
         (∀ l ∈ (G j).liveLanes, ((G j).lane l).hold = .matrix cn (i j)) ∧ mmaWord (i j) = some (m j) ∧
         s.quarterBusy T.pcore (G j).quarter t (4 * q + j) = false) →
       (k.key.en = true → k.key.held = true ∧ k.key.holder.toNat = gr.queue ∧ 4 ≤ k.key.remain.toNat) →
       ((∃ j < 4, (m j).c ≠ (m 0).c) →
         exec (.quartetStepStart t cn) s = .next (s.failStep t cn 2 ((List.range 4).map (4 * q + ·)))) ∧
       ((∀ j < 4, (m j).c = (m 0).c) → (∃ j < 4, badFormats (G j) (m j) = true) →
         exec (.quartetStepStart t cn) s = .next (s.failStep t cn 5 ((List.range 4).map (4 * q + ·)))) ∧
       ((∀ j < 4, (m j).c = (m 0).c) → (∀ j < 4, badFormats (G j) (m j) = false) →
         ∃ u T', exec (.quartetStepStart t cn) s = .next u ∧ Tab.get? u.teams t = some T' ∧
           Tab.get? T'.steps cn = some ⟨q, (m 0).c, (List.range 4).map (fun j => (G j).stepWord (m j))⟩ ∧
           (∀ j < 4, ∃ H, Tab.get? T'.groups (4 * q + j) = some H ∧ H.runPos = 1 ∧ H.z = (G j).z ∧
             ∀ l ∈ (G j).liveLanes, (H.lane l).hold = .run ∧ (H.lane l).pc = ((G j).lane l).pc + 4 ∧
               (H.lane l).q = Latches.invalid ∧ (H.lane l).v = ((G j).lane l).v) ∧
           (∀ g, (∀ j < 4, g ≠ 4 * q + j) → Tab.get? T'.groups g = Tab.get? T.groups g) ∧
           u = { s with teams := u.teams, cores := u.cores } ∧
           (∀ c, c ≠ T.pcore → Tab.get? u.cores c = Tab.get? s.cores c) ∧
           Tab.get? u.cores T.pcore = some { k with key := if k.key.en = false then k.key else
             { k.key with remain := k.key.remain - 4, held := decide (8 ≤ k.key.remain.toNat) } })))

/-- QUARTET_STEP_COMPLETE (R231, R62): slot (r, c) of each of the four named tiles takes R61 applied to its input, or to +0 for
MMAZ, and the products of line r of the group's A and line c mod 16 of the B of group 4q + c / 16; every other slot of the
four groups is unchanged; every flag raised is ORed into every live lane of the four; and the convergence register is empty in
its next generation. -/
def Obligations.QuartetStepCompletes : Prop :=
  ∀ (s : State) (t cn q C : Nat) (T : Team) (G : Nat → Group) (w : Nat → StepWord),
    Tab.get? s.teams t = some T → Tab.get? T.steps cn = some ⟨q, C, (List.range 4).map w⟩ → Tab.wf T.steps = true →
    (∀ j < 4, Tab.get? T.groups (4 * q + j) = some (G j) ∧ Store.wf (G j).z = true) →
    let new (j r c : Nat) : Nat × Flags :=
      let x := w j
      let y := w (c / 16)
      mmaSlot (if x.zero then 0 else (Store.get (G j).z (1024 * x.z + 64 * r + c)).toNat)
        (mmaSum (opLine x.a C (x.p / 2 == 1) x.fa x.sa r) (opLine y.b C (y.p % 2 == 1) y.fb y.sb (c % 16)))
    ∃ u T', exec (.quartetStepComplete t cn) s = .next u ∧ Tab.get? u.teams t = some T' ∧
      u = { s with teams := u.teams } ∧ Tab.get? T'.steps cn = none ∧
      Tab.get? T'.conv cn = some ⟨0, (T.convReg cn).gen + 1, false, 0, 0, false⟩ ∧
      ∃ F : Flags, (∀ b < 6, F.getLsbD b = true ↔ ∃ j < 4, ∃ r < 16, ∃ c < 64, (new j r c).2.getLsbD b = true) ∧
        ∀ j < 4, ∃ H, Tab.get? T'.groups (4 * q + j) = some H ∧ H = { G j with z := H.z, lanes := H.lanes } ∧
          (∀ r < 16, ∀ c < 64, Store.get H.z (1024 * (w j).z + 64 * r + c) = BitVec.ofNat 56 (new j r c).1) ∧
          (∀ i, i / 1024 ≠ (w j).z → Store.get H.z i = Store.get (G j).z i) ∧
          (∀ l, H.lane l = { (G j).lane l with
            status := if ((G j).lane l).live then ((G j).lane l).status ||| F else ((G j).lane l).status })

/-- The elements of a step's operand (R203, R60, R57): position k of line i lies in register ⌊c / 2⌋ of the block, in lane
i + 16 × (c mod 2), c = ⌊k / e⌋ being its chunk, lowest position lowest; its block's scale is byte
sel × 16 × KB + i × KB + ⌊k / 16⌋ of the ninth register read across the lanes, and −128 marks a zero block.

The sum of R61's products of finite elements is exact: a zero block's products add nothing, no width bounds it, and
the order of the terms has no effect.

R61's special values and its one rounding. A product with a NaN, or of 0 and ∞, outside a zero block makes the sum NaN; NV comes
from 0 × ∞ and from a signalling element outside its own zero block (what one outside it facing one inside does: the model's log 42,
DEDUCED), and for the slot from a signalling input. NaN comes first, then +∞ with −∞, then the infinity; else the exact total in units of a56's
smallest subnormal is rounded once to nearest-even, and a total of zero is −0 only for an input −0 and products that are all zeros of
negative sign. -/
def Obligations.StepOperandsAndSums : Prop :=
  (∀ (G : Group) (base C sel i k : Nat) (g : Bool) (f : Word),
     C < 3 → i < 16 → k < 512 / (4 * 2 ^ C) → sel < 2 ^ C →
     let w := 4 * 2 ^ C
     let e := 32 / w
     let KB := 512 / w / 16
     let c := k / e
     let code := ((G.lane (i + 16 * (c % 2))).vreg (base + c / 2)).toNat / 2 ^ (w * (k % e)) % 2 ^ w
     let b := sel * 16 * KB + i * KB + k / 16
     let scale := (((G.lane (b / 4)).vreg (base + 8)).extractLsb' (8 * (b % 4)) 8).toInt
     (opLine (G.blockStore base) C g f sel i)[k]? = some
       ⟨decide (scale = -128), ((if C = 2 then (if g then g16 else f16).value code
         else (Desc.ofWord f).value code).scale scale)⟩) ∧
  (∀ (ts : List (Bool × Nat × Int × Bool × Nat × Int × Bool)) (b : Int),
     let la : List Elem := ts.map (fun x => ⟨x.2.2.2.2.2.2, .fin x.1 x.2.1 x.2.2.1⟩)
     let lb : List Elem := ts.map (fun x => ⟨false, .fin x.2.2.2.1 x.2.2.2.2.1 x.2.2.2.2.2.1⟩)
     let value (x : Bool × Nat × Int × Bool × Nat × Int × Bool) : Int :=
       if x.2.2.2.2.2.2 then 0 else
       (if x.1 = x.2.2.2.1 then 1 else -1) * (x.2.1 * x.2.2.2.2.1 : Nat) * 2 ^ (x.2.2.1 + x.2.2.2.2.2.1 - b).toNat
     let r := mmaSum la lb
     (∀ x ∈ ts, b ≤ x.2.2.1 + x.2.2.2.2.2.1) → b ≤ r.sum.e →
     r.nan = false ∧ r.nv = false ∧ r.pos = false ∧ r.neg = false ∧
     r.sum.m * 2 ^ (r.sum.e - b).toNat = (ts.map value).sum) ∧
  (let nan (v : FVal) : Prop := ∃ s, v = .nan s
   let inf (v : FVal) : Prop := ∃ n, v = .inf n
   let zero (v : FVal) : Prop := ∃ n e, v = .fin n 0 e
   let minus (v : FVal) : Bool := match v with
     | .nan _ => false
     | .inf n => n
     | .fin n _ _ => n
   (∀ la lb : List Elem,
     let r := mmaSum la lb
     let out (p : Elem × Elem) : Prop := p ∈ la.zip lb ∧ p.1.zero = false ∧ p.2.zero = false
     let lost (p : Elem × Elem) : Prop := inf p.1.v ∧ zero p.2.v ∨ zero p.1.v ∧ inf p.2.v
     let infinite (p : Elem × Elem) (m : Bool) : Prop := out p ∧ ¬nan p.1.v ∧ ¬nan p.2.v ∧ ¬lost p ∧
       (inf p.1.v ∨ inf p.2.v) ∧ (minus p.1.v != minus p.2.v) = m
     (r.nan = true ↔ ∃ p, out p ∧ (nan p.1.v ∨ nan p.2.v ∨ lost p)) ∧
     (r.nv = true ↔ ∃ p, out p ∧ lost p ∨
       p ∈ la.zip lb ∧ (p.1.zero = false ∧ p.1.v = .nan true ∨ p.2.zero = false ∧ p.2.v = .nan true)) ∧
     (r.pos = true ↔ ∃ p, infinite p false) ∧ (r.neg = true ↔ ∃ p, infinite p true) ∧
     (r.nan = false → r.pos = false → r.neg = false → (r.negZero = true ↔
       ∀ p ∈ la.zip lb, out p ∧ (zero p.1.v ∨ zero p.2.v) ∧ minus p.1.v ≠ minus p.2.v))) ∧
   (∀ (z : Nat) (r : MmaSum), z < 2 * a56.sign → -1066 ≤ r.sum.e →
     let nanZ : Prop := a56.inf < z % a56.sign
     let nv : Flags := if r.nv = true ∨ nanZ ∧ z % a56.sign < a56.nan then flagNV else 0
     let up : Prop := r.pos = true ∨ z = a56.inf
     let down : Prop := r.neg = true ∨ z = a56.sign + a56.inf
     let total : Int := a56.units z + r.sum.m * 2 ^ (r.sum.e + 1066).toNat
     (nanZ ∨ r.nan = true → mmaSlot z r = (a56.nan, nv)) ∧
     (¬nanZ → r.nan = false →
       (up → down → mmaSlot z r = (a56.nan, flagNV)) ∧
       (up → ¬down → mmaSlot z r = (a56.inf, nv)) ∧ (¬up → down → mmaSlot z r = (a56.sign + a56.inf, nv)) ∧
       (¬up → ¬down →
         (total = 0 → mmaSlot z r = (if z = a56.sign ∧ r.negZero = true then a56.sign else 0, nv)) ∧
         (total ≠ 0 → ∃ fl, RoundsOnce a56 total 1 ((mmaSlot z r).1, fl) ∧ (mmaSlot z r).2 = nv ||| fl)))))

/-! ## Facet streams and rays (05_facet_streams_and_rays.md, 12_geometry_instructions.md) -/

/-- FACET.OPEN, FACET.NEXT and FACET.MARK (R237, R238): they complete when every active lane's part does, in ascending
order, their stores making one entry of the group's FIFO and uniform q1 becoming invalid. A DONE context gives the
result word alone (R240, R241); what FACET.MARK writes is a record that passes every test of R119 with the generation asked
for (R242); and a completed symbol leaves a context that passes the tests that apply to one (R115, R119). -/
def Obligations.FacetWordsComplete : Prop :=
  (∀ (s t : State) (c : Ctx) (e : Bool) (d g x y : Opd) (i : Instr) (part : State → Nat → LaneRes),
    (i = .facetOpen e d x ∧ part = openLane c d x ∨ i = .facetNext e d x ∧ part = nextLane c d x ∨
      i = .facetMark e g x y ∧ part = markLane c g x y) →
    Executes s c i → Chain (fun s l u => part s l = .done u) c.lanes (s.modGroup c.t c.g (·.openEntry)) t →
    exec i s = .next (t.after c i fun G => G.closeEntry.latchU none)) ∧
  (∀ (s : State) (c : Ctx) (d x : Opd) (l : Nat) (r : Nat),
    let a := c.grp.pairVal (c.grp.lane l) x
    windowBase ≤ a → a % 512 = 0 → a + 512 ≤ windowBase + c.team.limit →
    lockHit (s.locksOf c.team.pcore) c.t c.space a 512 .load = none →
    r = leValue ((List.range 512).map (fun i => s.loadPlace c (.scratch (a - windowBase + i)))) → fget r fDone = 1 →
    nextLane c d x s l = .done (s.modLane c.t c.g l (·.setVs d.num
      (List.replicate 12 0 ++ [BitVec.ofNat 32 (fget r fClevel * 256 + 2)])))) ∧
  (∀ (r g : Nat), contextOk r = true → r < 2 ^ 4096 → g < 2 ^ 32 →
    recordOk (markRecord r g) = true ∧ fget (markRecord r g) fGen = g ∧
      ∀ f ∈ [fBitoff, fVcount, fDa, fDb, fDo, fDepth, fSide], fget (markRecord r g) f = fget r f) ∧
  (∀ (c : Ctx) (l sym : Nat) (d d' : Dec) (t : Option FacetTri), contextOk d.r = true → d.r < 2 ^ 4096 →
    fget d.r fVcount + 1 < 2 ^ 32 → d.step c l sym = .ok (t, d') →
    contextOk d'.r = true ∧ d'.r < 2 ^ 4096 ∧ fget d'.r fGen = fget d.r fGen ∧ fget d'.r fMesh = fget d.r fMesh ∧
      (fget d.r fRemain = 0 → d'.r = fset d.r fDone 1 ∧ t = none) ∧
      (fget d.r fRemain ≠ 0 → fget d'.r fRemain + 1 = fget d.r fRemain))

/-- BOXT, TRIT, STK.PUSH, STK.POP, RSAVE, RLOAD and MESH.BUMP (R237, R243 to R248) once their accesses pass: the lanes'
registers, the stack and the records move as their rules say, uniform q1 is invalid (MESH.BUMP: the old generation), and
nothing else of the machine changes but what page walks leave and MESH.BUMP's one atomic add. -/
def Obligations.GeometryWordsComplete : Prop :=
  (∀ (s : State) (c : Ctx) (e : Bool) (d x y : Opd), Executes s c (.trit e d x y) →
    exec (.trit e d x y) s = .next (s.after c (.trit e d x y) fun G => (G.mapLanes c.lanes (fun _ L =>
      L.setVs d.num (tritResults (c.grp.floats L x 8) (c.grp.floats L y 9)))).latchU none)) ∧
  (∀ (s t : State) (c : Ctx) (e : Bool) (d x y : Opd), Executes s c (.boxt e d x y) →
    (∀ l ∈ c.lanes, c.grp.pairVal (c.grp.lane l) y % 128 = 0) →
    Chain (fun w l u => ∃ v ps io, lanePath w c .read l (c.grp.pairVal (c.grp.lane l) y) 128 = .ok v ps io ∧ c.Here .read l ps ∧
      u = (v.modGroup c.t c.g (·.dropEarly (sectorsOf ps))).modLane c.t c.g l
        (·.setVs d.num (boxResults (c.grp.floats (c.grp.lane l) x 8) (w.loadedAt c l ps)))) c.lanes s t →
    exec (.boxt e d x y) s = .next (t.after c (.boxt e d x y) (·.latchU none))) ∧
  (∀ (s : State) (c : Ctx) (e : Bool) (p b : Opd),
    let B := c.grp.sPair b.num
    let C := (c.grp.sreg (b.num + 2)).toNat
    let L (l : Nat) : Lane := c.grp.lane l
    let n (l : Nat) : Nat := ((L l).vreg (p.num + 2)).toNat
    let val (l : Nat) : Nat := ((L l).vreg p.num).toNat + 2 ^ 32 * ((L l).vreg (p.num + 1)).toNat
    let at_ (l n : Nat) : List Place := (List.range 8).map (fun i => .scratch (B - windowBase + 256 * n + 8 * l + i))
    windowBase ≤ B → B % 256 = 0 → 0 < C → C ≤ 2048 → B + 256 * C ≤ windowBase + c.team.limit → s.locksOf c.team.pcore = [] →
    (Executes s c (.stkPush e p b) → (∀ l ∈ c.lanes, val l ≠ 0 → n l < C) →
      exec (.stkPush e p b) s = .next (s.after c (.stkPush e p b) fun G =>
        ((G.mapLanes (c.lanes.filter (fun l => val l != 0)) (fun l L => L.setV (p.num + 2) (BitVec.ofNat 32 (n l + 1)))).pushStore
          (storedBytes (fun l => (at_ l (n l)).zipIdx.map (fun q => (q.1, BitVec.ofNat 8 (val l / 2 ^ (8 * q.2)))))
            (c.storers.filter (fun l => val l != 0)))).latchU none)) ∧
    (Executes s c (.stkPop e p b) → (∀ l ∈ c.lanes, n l ≤ C) →
      exec (.stkPop e p b) s = .next (s.after c (.stkPop e p b) fun G =>
        (G.mapLanes c.lanes (fun l L => if n l = 0 then L.setVs p.num [0, 0] else
          let v := s.loadedAt c l (at_ l (n l - 1))
          L.setVs p.num [BitVec.ofNat 32 v, BitVec.ofNat 32 (v / 2 ^ 32), BitVec.ofNat 32 (n l - 1)])).latchU none))) ∧
  (∀ (s t : State) (c : Ctx) (e : Bool) (v : Opd) (a : Opd) (ps : Nat → List Place),
    let at_ (l : Nat) : Nat := match a with
      | .s _ => (c.grp.pairVal (c.grp.lane l) a + 64 * l) % 2 ^ 64
      | _ => c.grp.pairVal (c.grp.lane l) a
    (∀ l ∈ c.lanes, at_ l % 16 = 0) →
    (Executes s c (.rsave e v a) → Reaches c .write 64 at_ ps c.storers s t → (∀ l ∈ c.storers, c.Here .write l (ps l)) →
      exec (.rsave e v a) s = .next (t.after c (.rsave e v a) fun G =>
        (G.pushStore (localBytes (storedBytes (fun l => (ps l).zipIdx.map (fun q =>
          (q.1, (c.grp.blockVal (c.grp.lane l) v (q.2 / 4)).extractLsb' (8 * (q.2 % 4)) 8))) c.storers))).latchU none)) ∧
    (Executes s c (.rload e v a) →
      Chain (fun s l u => ∃ w io, lanePath s c .read l (at_ l) 64 = .ok w (ps l) io ∧ c.Here .read l (ps l) ∧
        u = (w.modGroup c.t c.g (·.dropEarly (sectorsOf (ps l)))).modLane c.t c.g l (·.setVs v.num ((List.range 16).map (fun j =>
          BitVec.ofNat 32 (s.loadedAt c l (ps l) / 2 ^ (32 * j)))))) c.lanes s t →
      exec (.rload e v a) s = .next (t.after c (.rload e v a) (·.latchU none)))) ∧
  (∀ (s : State) (c : Ctx) (e : Bool) (d x : Opd),
    let i : Instr := .meshBump e d x
    let h := c.grp.sPair x.num
    Executes s c i →
    ((∀ l ∈ c.lanes, (c.grp.lane l).helper = true) → exec i s = .next (s.after c i (·.latchU none))) ∧
    ((∃ l ∈ c.lanes, (c.grp.lane l).helper = false) →
      (h % 128 ≠ 0 → exec i s = .next (trapWord s c causeIllegal 0)) ∧
      (∀ u ps io, h % 128 = 0 → lanePath (if inWindow ((h + 16) % 2 ^ 64) = true then s.drainFifo c.t c.g else s.drainGroup c.t c.g)
          c .atomic (c.lanes.headD 0) ((h + 16) % 2 ^ 64) 4 = .ok u ps io →
        c.Here .atomic (c.lanes.headD 0) ps →
        let v := u.spillSectors c.t (sectorsOf ps)
        let old := v.oldAt c (c.lanes.headD 0) ps
        exec i s = .next ((v.exchanged c ps 4 old ((old + 1) % 2 ^ 32)).after c i
          fun G => G.result d (BitVec.ofNat 32 old)))))

/-- The exact tests of R245 and R246, on integer coordinates. A child is hit exactly when some point o + t·d of the ray with
tmin ≤ t ≤ tmax lies in its box, and its entry is the first such t. TRIT hits exactly under R246's conditions on t, u and v,
which satisfy o + t·d = a + u·e1 + v·e2, each rounded once; R245's worked example comes out as it stands there. -/
def Obligations.RayTestsAreExact : Prop :=
  let int (n : Int) : FVal := .fin (decide (n < 0)) n.natAbs 0
  (∀ (o d lo hi : Fin 3 → Int) (tmin tmax : Int),
    let inside (p q : Int) : Prop := tmin * q ≤ p ∧ p ≤ tmax * q ∧
      ∀ j, lo j * q ≤ o j * q + p * d j ∧ o j * q + p * d j ≤ hi j * q
    let hit := boxEntry ([o 0, o 1, o 2, d 0, d 1, d 2, tmin, tmax].map int) ([lo 0, lo 1, lo 2, hi 0, hi 1, hi 2].map int)
    ((∀ p q, 0 < q → ¬inside p q) → hit = none) ∧
    (∀ p q, 0 < q → inside p q → ∃ n : Int, ∃ k : Nat, hit = some (.quot n k 0) ∧ 0 < k ∧ inside n k ∧ n * q ≤ p * k)) ∧
  (∀ (o d a b c : Int × Int × Int) (tmin tmax : Int),
    let sub (x y : Int × Int × Int) : Int × Int × Int := (x.1 - y.1, x.2.1 - y.2.1, x.2.2 - y.2.2)
    let dot (x y : Int × Int × Int) : Int := x.1 * y.1 + x.2.1 * y.2.1 + x.2.2 * y.2.2
    let cross (x y : Int × Int × Int) : Int × Int × Int :=
      (x.2.1 * y.2.2 - x.2.2 * y.2.1, x.2.2 * y.1 - x.1 * y.2.2, x.1 * y.2.1 - x.2.1 * y.1)
    let lin (k : Int) (x : Int × Int × Int) (m : Int) (y : Int × Int × Int) : Int × Int × Int :=
      (k * x.1 + m * y.1, k * x.2.1 + m * y.2.1, k * x.2.2 + m * y.2.2)
    let e1 := sub b a
    let e2 := sub c a
    let D := dot d (cross e1 e2)
    let T := dot (sub a o) (cross e1 e2)
    let U := dot d (cross (sub o a) e2)
    let V := dot d (cross e1 (sub o a))
    let k := D.natAbs
    let sg := D.sign
    let hit := D ≠ 0 ∧ 0 ≤ sg * U ∧ 0 ≤ sg * V ∧ sg * (U + V) ≤ k ∧ tmin * k ≤ sg * T ∧ sg * T ≤ tmax * k
    let list (x : Int × Int × Int) : List Int := [x.1, x.2.1, x.2.2]
    let got := tritResults ((list o ++ list d ++ [tmin, tmax]).map int) ((list a ++ list b ++ list c).map int)
    lin D o T d = lin 1 (lin D a U e1) V e2 ∧
    (hit → got = [T, U, V].map (fun n => BitVec.ofNat 32 (roundQuot f32 .rne (sg * n) k 0).1) ++ [if 0 < D then 3 else 1]) ∧
    (¬hit → got = [0x7F800000, 0, 0, 0])) ∧
  (let f (n : Int) (e : Int) : FVal := .fin (decide (n < 0)) n.natAbs e
   let box (v : List Word) : Nat := leValue (v.flatMap (fun w => toBytes 4 w.toNat))
   boxResults ([0, 0, 0, 1, 2, 0, 0, 10].map (fun n => f n 0))
    (box ([0x3F800000, 0x3F800000, 0xBF800000, 0x40400000, 0x40A00000, 0x3F800000,
      0x40800000, 0, 0xBF800000, 0x40C00000, 0x40000000, 0x3F800000,
      0x3F000000, 0x3F000000, 0, 0x3F800000, 0x3F800000, 0, 0, 0, 0, 0, 0, 0, 2, 0, 2, 0, 2, 0, 0, 0])) =
    [0x0002D205, 0x3F800000, 0x7F800000, 0x3F000000, 0x7F800000])

/-! ## The raster unit (12_geometry_instructions.md R249 to R252; 05_facet_streams_and_rays.md R128 to R133) -/

/-- RAST.TRI and RAST.RATE (R249 to R251): a bad address of the render state, or one whose fields are not good, traps ILLEGAL on
every active lane with no other effect; else RAST.TRI performs the group's earlier stores and has the unit accept the active lanes'
triangles in ascending order, and RAST.RATE stores each lane's rate code as one byte of the rate map, while a lane with a bad
code or tile traps ILLEGAL alone.

What the raster unit accepts (R251): one triangle more at the end of its core's queue, with its state and registers and the
next acceptance number, or nothing for a helper lane, a coordinate that drops it, zero area, or a culled winding; on snapped
integer pixels the area is R251's A. -/
def Obligations.TrianglesAreAccepted : Prop :=
  (∀ (s u : State) (c : Ctx) (e : Bool) (x y : Opd) (r : Nat) (bs : List Byte),
     let a := c.grp.sPair x.num
     let f (lo n : Nat) : Nat := r / 2 ^ lo % 2 ^ n
     let good := f 16 112 = 0 ∧ f 2 7 = 0 ∧ f 12 4 < 8 ∧ f 9 2 ≠ 3
     let tiles := ((f 128 16 + 1 + 15) / 16) * ((f 144 16 + 1 + 15) / 16)
     let index (l : Nat) : Nat := (c.grp.blockVal (c.grp.lane l) y 0).toNat
     let code (l : Nat) : Nat := (c.grp.blockVal (c.grp.lane l) y 1).toNat
     let bad := c.lanes.filter (fun l => decide (6 < code l ∨ tiles ≤ index l))
     let fine := c.lanes.filter (fun l => !bad.contains l)
     let storing := c.storers.filter (fun l => !bad.contains l)
     (∀ i, (i = .rastTri e x y ∨ i = .rastRate e x y) → Executes s c i →
       ¬(a % 64 = 0 ∧ canonical a = true ∧ a < windowBase) → exec i s = .next (trapWord s c causeIllegal 0)) ∧
     (a % 64 = 0 → canonical a = true → a < windowBase → readLane s s c (c.lanes.headD 0) a 64 = .val u bs → r = leValue bs →
       (¬good → c.grp.handlers.length ≤ c.level → ∀ i, (i = .rastTri e x y ∨ i = .rastRate e x y) → Executes s c i →
         exec i s = .next (trapWord u c causeIllegal 0)) ∧
       (good →
       (Executes s c (.rastTri e x y) → exec (.rastTri e x y) s = .next ((c.lanes.foldl (acceptLane c r a y)
         (u.drainGroup c.t c.g)).after c (.rastTri e x y) (·.latchU none))) ∧
       (∀ t ps, Executes s c (.rastRate e x y) →
         Reaches c .write 1 (fun l => (f 256 64 + index l) % 2 ^ 64) ps storing u t → (∀ l ∈ storing, c.Here .write l (ps l)) →
         let stored (G : Group) : Group :=
           (G.pushStore (localBytes (storedBytes (fun l => (ps l).map (fun p => (p, BitVec.ofNat 8 (code l)))) storing))).latchU none
         (bad = [] → exec (.rastRate e x y) s = .next (t.after c (.rastRate e x y) stored)) ∧
         (bad ≠ [] → c.grp.handlers.length ≤ c.level →
           let left := t.modGroup c.t c.g fun G =>
             { ((stored G).mapLanes fine (fun _ L => L.advance (c.pc + 4) (if e then 0 else G.runPos + 1))
                 |>.mapLanes bad (fun _ L => { L with q := Latches.invalid })).dropReplies c.lanes with
               runMask := if e then 0 else laneMask fine, runPos := G.runPos + 1 }
           exec (.rastRate e x y) s = .next ((left.enterTrap c.t c.g bad causeIllegal 0 c.pc (fun _ => c.pc)).settle c.t)))))) ∧
  ((∀ (s : State) (c : Ctx) (r a l : Nat) (y : Opd) (k : Core),
     Tab.get? s.cores c.team.pcore = some k →
     let ws := (List.range 10).map (c.grp.blockVal (c.grp.lane l) y)
     let u := acceptLane c r a y s l
     let taken := (c.grp.lane l).helper = false ∧ ∃ t, triOf ws = some t ∧ t.area ≠ 0 ∧
       (r / 2 ^ 9 % 4 = 1 → t.area ≤ 0) ∧ (r / 2 ^ 9 % 4 = 2 → 0 ≤ t.area)
     (¬taken → u = s) ∧
     (taken → u = { s with cores := u.cores, fresh := s.fresh + 1 } ∧
       (∀ j, j ≠ c.team.pcore → Tab.get? u.cores j = Tab.get? s.cores j) ∧
       Tab.get? u.cores c.team.pcore = some { k with
         raster := k.raster ++ [⟨s.fresh, c.team.grid, c.t, BitVec.ofNat 512 r, a, ws, none⟩] })) ∧
   (∀ a b c : Int × Int, (Tri.mk a b c []).area = (b.1 - a.1) * (c.2 - a.2) - (c.1 - a.1) * (b.2 - a.2)) ∧
   (∀ (a b c d p : Int × Int), let t : Tri := ⟨a, b, c, []⟩; let u : Tri := ⟨b, a, d, []⟩
     0 < t.area → 0 < u.area → edge a b p = 0 → (∃ q n : Int, 0 < q ∧ q < n ∧
       n * (p.1 - a.1) = q * (b.1 - a.1) ∧ n * (p.2 - a.2) = q * (b.2 - a.2)) →
     (t.covers p = true ↔ u.covers p = false)))

/-- RASTER_TRIANGLE (R251, R128, R132): a shading team that waits for room is seated when it fits; else the oldest accepted
triangle is carried out whole, its depths written and its passing samples' parts launched as shading teams, and leaves the
queue; while a page of it does not translate nothing of it happens, and it waits on a token; depths of another device are
confirmed first (log 41). With nothing to do the unit does
nothing; HARDWARE_PREFETCH never does anything (R77).

What the unit finds for a triangle before it acts (R251, R249, R129, R131): the covered samples whose depth at their point passes
against the depth read for them, in order (0 and 7 of DFUNC read none); with DWRITE the new depths of exactly those, at their
places; one rate code for each rate tile with a covered sample, as the map has it where it is 6 or less (what a reserved code
stands for is the model's log 26); and the shading packet where a sample passes.

Coverage, depth and coarse pixels (R129 to R132, R249, R252). A covered sample is one of the pixel's N, in the target and the
scissor, strictly inside the three edges or on a top or left one; its depth is the plane through the snapped vertices, rounded
once, and passes as DFUNC says, a NaN only under 6 and 7. A part is a cell of its rate's grid from the viewport's corner within one
tile, the target and the scissor; its lane starts with R252's registers, and lanes come as quads of parts. (The registers of
helper lanes are open: log 26.) -/
def Obligations.RasterTriangleRuns : Prop :=
  ((∀ (s : State) (core : Nat) (addr : BitVec 64), exec (.hardwarePrefetch core addr) s = .next s) ∧
   (∀ (s : State) (core : Nat) (k : Core), Tab.get? s.cores core = some k →
     (∀ j js u, k.jobs = j :: js → s.dispatchShading core j = some u → exec (.rasterTriangle core) s = .next u) ∧
     ((∀ j js, k.jobs = j :: js → s.dispatchShading core j = none) →
       (k.raster = [] → exec (.rasterTriangle core) s = .next s) ∧
       (∀ x xs, k.raster = x :: xs →
         (x.token.isSome = true → exec (.rasterTriangle core) s = .next s) ∧
         (∀ g t, x.token = none → Tab.get? s.grids x.grid = some g → triOf x.verts = some t →
           (∀ u, examine s core g.space x t = .wait u → exec (.rasterTriangle core) s = .next u) ∧
           (∀ u va kind f, examine s core g.space x t = .fault u va kind f →
             ∃ w, exec (.rasterTriangle core) s = .next w ∧ w.mem = u.mem ∧ w.teams = u.teams ∧ w.grids = u.grids) ∧
           (∀ u pass ws rates pk, examine s core g.space x t = .val u (pass, ws, rates, pk) →
             let places := ws.map (·.2.1)
             let v := (u.performBytes 0 (ws.map (·.2))).popTriangle core x.seq
             (remoteState u.remotes .write x.seq places = .waiting → exec (.rasterTriangle core) s = .next u) ∧
             (remoteState u.remotes .write x.seq places = .ready →
             (pass = [] ∨ shadePacketOk pk = false → exec (.rasterTriangle core) s = .next v) ∧
             (pass ≠ [] → shadePacketOk pk = true → exec (.rasterTriangle core) s = .next (v.launchShading core x.grid g x.seq pk
               (x.verts.getD 9 0) (shadeLanes x.state.toNat t x.seq (x.verts.getD 9 0) rates pass))))))))) ∧
   (∀ (s : State) (core g seq : Nat) (G : Grid) (p : BitVec 1024) (tag : Word) (lanes : List ShadeInit) (k : Core),
     Tab.get? s.grids g = some G → Tab.get? s.cores core = some k → g ≠ s.fresh → lanes ≠ [] →
     let u := s.launchShading core g G seq p tag lanes
     ∃ child, Tab.get? u.grids s.fresh = some child ∧ child.shadesFor = some g ∧ child.parent = some g ∧ child.part = G.part ∧
       child.asid = G.asid ∧ child.depth = G.depth ∧
       Tab.get? u.grids g = some { G with liveKids := G.liveKids + 1 } ∧
       ∃ js, (Tab.get? u.cores core).map (·.jobs) = some (k.jobs ++ js) ∧
         (∀ j ∈ js, j.grid = s.fresh ∧ j.seq = seq ∧ j.lanes.length = 32 * pkGroups p) ∧
         ∃ extra, js.flatMap (·.lanes) = lanes ++ extra ∧
           ∀ l ∈ extra, l.helper = true ∧ l.samples = [] ∧ l.regs[0]? = some tag)) ∧
  (∀ (s u : State) (core : Nat) (sp : Space) (x : RastTri) (t : Tri) (pass : List Smp) (ws : List (Nat × Place × Byte))
     (rates : List ((Nat × Nat) × Nat)) (pk : BitVec 1024),
     examine s core sp x t = .val u (pass, ws, rates, pk) →
     let r := x.state.toNat
     let f (lo n : Nat) : Nat := r / 2 ^ lo % 2 ^ n
     let N := 2 ^ f 0 2
     let va (p : Smp) : Nat := (f 320 64 + ((p.y * (f 128 16 + 1) + p.x) * N + p.i) * 4) % 2 ^ 64
     let new (p : Smp) : Word := t.depth (p.point N)
     let reads (a n : Nat) (bs : List Byte) : Prop := ∃ v w, unitRead v (.core core) core x.seq sp (a % 2 ^ 64) n = .val w bs
     (∃ old : Smp → Word, pass = (coveredSamples r t).filter (fun p => depthPasses (f 12 4) (new p) (old p)) ∧
       (f 12 4 ≠ 0 → f 12 4 ≠ 7 → ∀ p ∈ coveredSamples r t, ∃ bs, reads (va p) 4 bs ∧ old p = BitVec.ofNat 32 (leValue bs))) ∧
     (f 11 1 = 0 → ws = []) ∧
     (f 11 1 = 1 → ∃ at_ : Smp → List Place,
       (∀ p ∈ pass, ∃ v w, unitPlaces v (.core core) sp .store (va p) 4 = .val w (at_ p)) ∧
       ws = pass.flatMap (fun p => ((at_ p).zip (toBytes 4 (new p).toNat)).zipIdx.map (fun e => (va p + e.2, e.1)))) ∧
     rates.map (·.1) = ((coveredSamples r t).map (fun p => (p.x / 16, p.y / 16))).eraseDups ∧
     (∀ e ∈ rates, e.2 < 7 ∧ ∃ bs, reads (f 256 64 + e.1.2 * ((f 128 16 + 1 + 15) / 16) + e.1.1) 1 bs ∧
       (leValue bs ≤ 6 → e.2 = leValue bs)) ∧
     (pass ≠ [] → ∃ bs, reads (f 448 64) 128 bs ∧ pk = BitVec.ofNat 1024 (leValue bs))) ∧
  ((∀ (r : Nat) (t : Tri) (p : Smp),
     let f (lo : Nat) : Nat := r / 2 ^ lo % 2 ^ 16
     (∀ n ∈ [t.a.1, t.a.2, t.b.1, t.b.2, t.c.1, t.c.2], n.natAbs ≤ 2 ^ 28) →
     (p ∈ coveredSamples r t ↔ p.i < 2 ^ (r % 4) ∧ f 192 ≤ p.x ∧ p.x < f 224 ∧ p.x < f 128 + 1 ∧
       f 208 ≤ p.y ∧ p.y < f 240 ∧ p.y < f 144 + 1 ∧ t.covers (p.point (2 ^ (r % 4))) = true)) ∧
   (∀ (t : Tri) (p : Int × Int), t.covers p = true ↔ ∀ e ∈ [(t.a, t.b), (t.b, t.c), (t.c, t.a)],
     let dx := t.area.sign * (e.2.1 - e.1.1)
     let dy := t.area.sign * (e.2.2 - e.1.2)
     let side := dx * (p.2 - e.1.2) - dy * (p.1 - e.1.1)
     0 < side ∨ side = 0 ∧ (dy < 0 ∨ dy = 0 ∧ 0 < dx)) ∧
   ([1, 2, 4, 8].map (fun n => (List.range n).map (fun i => (Smp.mk 0 0 i).point n)) =
     ([[(8, 8)], [(4, 4), (12, 12)], [(6, 2), (14, 6), (2, 10), (10, 14)],
       [(9, 5), (7, 11), (13, 9), (5, 3), (3, 13), (1, 7), (11, 15), (15, 1)]] : List (List (Int × Int))).map (·.map (fun o => (16 * o.1, 16 * o.2)))) ∧
   (∀ (x y i n : Nat), let o := (Smp.mk 0 0 i).point n
     (Smp.mk x y i).point n = (256 * (x : Int) + o.1, 256 * (y : Int) + o.2)) ∧
   (∀ (t : Tri) (p : Int × Int) (za zb zc α β γ : Int) (k : Nat), t.z = [⟨za, 0⟩, ⟨zb, 0⟩, ⟨zc, 0⟩] → t.area ≠ 0 → 0 < k →
     (∀ q ∈ [(t.a, za), (t.b, zb), (t.c, zc)], k * q.2 = α * q.1.1 + β * q.1.2 + γ) →
     ∃ fl, RoundsOnce f32 (2 ^ f32.one * (α * p.1 + β * p.2 + γ)) k ((t.depth p).toNat, fl)) ∧
   (∀ (fn : Nat) (new old : Word), fn < 8 →
     let nan (w : Word) : Prop := 0x7F800000 < w.toNat % 2 ^ 31
     let n := f32.units new.toNat
     let o := f32.units old.toNat
     (f32.Finite new.toNat → f32.Finite old.toNat → depthPasses fn new old =
       [false, decide (n < o), decide (n ≤ o), decide (n = o), decide (o < n), decide (o ≤ n), decide (n ≠ o), true].getD fn false) ∧
     (nan new ∨ nan old → (depthPasses fn new old = true ↔ 6 ≤ fn))) ∧
   ((List.range 7).map rateSize = [(1, 1), (1, 2), (2, 1), (2, 2), (2, 4), (4, 2), (4, 4)]) ∧
   (∀ (r code : Nat) (p : Smp) (rates : List ((Nat × Nat) × Nat)),
     rates.find? (fun e => e.1 == (p.x / 16, p.y / 16)) = some ((p.x / 16, p.y / 16), code) →
     p.part r rates = ⟨p.x / 16, p.y / 16, ((p.x : Int) - (r / 2 ^ 160 % 2 ^ 16 : Nat)) / (rateSize code).1,
       ((p.y : Int) - (r / 2 ^ 176 % 2 ^ 16 : Nat)) / (rateSize code).2⟩) ∧
   (∀ (k : PartKey) (r w h x y : Nat),
     let f (lo : Nat) : Int := ((r / 2 ^ lo % 2 ^ 16 : Nat) : Int)
     let a := k.rect r (w, h)
     (a.x0 ≤ x ∧ x < a.x1 ∧ a.y0 ≤ y ∧ y < a.y1) ↔
       f 160 + k.cx * w ≤ x ∧ x < f 160 + k.cx * w + w ∧ f 176 + k.cy * h ≤ y ∧ y < f 176 + k.cy * h + h ∧
       x / 16 = k.tx ∧ y / 16 = k.ty ∧ f 192 ≤ x ∧ x < f 224 ∧ x < f 128 + 1 ∧ f 208 ≤ y ∧ y < f 240 ∧ y < f 144 + 1) ∧
   (∀ (r seq place : Nat) (t : Tri) (tag : Word) (rates : List ((Nat × Nat) × Nat)) (pass : List Smp) (k : PartKey),
     let code := rateOf rates (k.tx, k.ty)
     let a := k.rect r (rateSize code)
     let mine := pass.filter (fun p => p.part r rates == k)
     let N := 2 ^ (r % 4)
     let pw := (a.x1 - a.x0).toNat
     let ph := (a.y1 - a.y0).toNat
     let σ := t.area.sign
     let L := shadeLane r t seq tag rates pass k place
     let v (j : Nat) : Nat := (L.regs.getD j 0).toNat
     code < 7 → (∀ p ∈ pass, p ∈ coveredSamples r t) → mine ≠ [] →
     L.helper = false ∧ L.regs.length = 11 ∧ L.regs[0]? = some tag ∧
     v 1 = a.x0.toNat + 2 ^ 16 * a.y0.toNat ∧ v 2 = (pw - 1) + 4 * (ph - 1) + 16 * code ∧
     (∀ px py i, px < pw → py < ph → i < N →
       let b := (py * pw + px) * N + i
       ((v (3 + b / 32)).testBit (b % 32) = true ↔ Smp.mk (a.x0.toNat + px) (a.y0.toNat + py) i ∈ mine)) ∧
     (∀ o : Fin 2,
       let weight (p : Int × Int) : Int := σ * (if o = 0 then edge t.c t.a p else edge t.a t.b p)
       let centre : Int × Int := (128 * (a.x0 + a.x1), 128 * (a.y0 + a.y1))
       (∃ fl, RoundsOnce f32 (2 ^ f32.one * weight centre) t.area.natAbs (v (7 + o), fl)) ∧
       ∃ fl, RoundsOnce f32 (2 ^ f32.one * (mine.map (fun p => weight (p.point N))).sum) (t.area.natAbs * mine.length)
         (v (9 + o), fl)) ∧
     L.samples = mine.map (fun p => (r / 2 ^ 384 % 2 ^ 64 + ((p.y * (r / 2 ^ 128 % 2 ^ 16 + 1) + p.x) * N + p.i) * 4) % 2 ^ 64)) ∧
   (∀ (r seq : Nat) (t : Tri) (tag : Word) (rates : List ((Nat × Nat) × Nat)) (pass : List Smp),
     ∃ quads : List PartKey,
       let parts := quads.flatMap (fun q => [⟨q.tx, q.ty, 2 * q.cx, 2 * q.cy⟩, ⟨q.tx, q.ty, 2 * q.cx + 1, 2 * q.cy⟩,
         ⟨q.tx, q.ty, 2 * q.cx, 2 * q.cy + 1⟩, ⟨q.tx, q.ty, 2 * q.cx + 1, 2 * q.cy + 1⟩])
       parts.Nodup ∧ (∀ p ∈ pass, p.part r rates ∈ parts) ∧
       shadeLanes r t seq tag rates pass = parts.zipIdx.map (fun e => shadeLane r t seq tag rates pass e.1 e.2)))

/-! ## Engines and leases (13_engines_and_system.md) -/

/-- KICK and XFORM (R260, R259, R106, R107): a bad count or list address traps ILLEGAL and a list beyond the limit
SCRATCH_RANGE; the records are read by the fragment (DEDUCED, log 33); the first record that fails validation traps with nothing started; else, the group's earlier stores performed,
records start in order until a lock or a room lacks, each taking the lowest two free lock entries of its core (source and
destination: DESIGN CHOICE, log 25), the lowest free room of its die if it has stages, and the next operation number, and d and q1 take how many. A
plain request's, a shape request's and a card's checks are those of R257 to R259 in their order (which lengths can be checked is
DEDUCED, logs 37 and 38); the first failure of the list decides. A helper fragment's has no effect (R132).

SHAPE.SEAL and SHAPE.DROP (R256, R262): a sealed record takes the lowest free of the core's 64 handles for the issuing team,
64 when there is none; an address that is no multiple of 32 traps ILLEGAL (DEDUCED, log 38), and the record is read by the
fragment (log 33), and its stage lengths fit when they do for a tile at either end (log 38); a dropped handle is gone for new uses at once, and from the table when no operation names it. A
record that fails its checks traps JOB_BAD subcode 1, a handle that is free or another team's subcode 2.

LEASE.GET and LEASE.PUT (R263, R322, R303): a request of 0 or above 2^31 traps ILLEGAL; with no room key in force GET
answers the request; with the key free or its own queue's, GET takes it for as much as the queue's limit allows, at least 4;
with another queue's, 0 and nothing changes. PUT frees the key only when its own queue holds it. -/
def Obligations.EngineWordsComplete : Prop :=
  ((∀ (s : State) (c : Ctx) (e : Bool) (d x y : Opd) (i : Instr) (card : Bool) (n : Nat),
     (i = .kick e d x y ∧ card = false ∧ n = (c.grp.uniVal y).toNat ∨ i = .xform e d x ∧ card = true ∧ n = 1) →
     let a := c.grp.sPair x.num
     let listed := 1 ≤ n ∧ n ≤ 32 ∧ windowBase ≤ a ∧ a % 64 = 0
     let vs := (List.range n).map (fun k => leValue ((List.range 64).map (fun j =>
       s.loadPlace c (.scratch (a - windowBase + 64 * k + j)))))
     let checked := validateAll (s.shapesOf c.team.pcore) c.t c.team.limit card 0 vs
     Executes s c i →
     ((∀ l ∈ c.lanes, (c.grp.lane l).helper = true) → exec i s = .next (s.after c i (·.latchU none))) ∧
     ((∃ l ∈ c.lanes, (c.grp.lane l).helper = false) →
       (¬listed → exec i s = .next (trapWord s c causeIllegal 0)) ∧
       (listed → windowBase + c.team.limit < a + 64 * n →
         exec i s = .next (trapWord s c causeScratchRange (scratchInfo a (64 * n) c.team.limit + 2 ^ 25))) ∧
       (listed → a + 64 * n ≤ windowBase + c.team.limit →
         lockHit (s.locksOf c.team.pcore) c.t c.space a (64 * n) .load = none →
         (∀ cause info, checked = .error (cause, info) → exec i s = .next (trapWord s c cause info)) ∧
         (∀ js u k, checked = .ok js → startJobs c (s.drainGroup c.t c.g) js 0 = (u, k) →
           exec i s = .next (u.after c i fun G => G.result d (BitVec.ofNat 32 k)))))) ∧
   (∀ (c : Ctx) (s u : State) (j : Job) (k : Core), Tab.get? s.cores c.team.pcore = some k → startJob c s j = some u →
     ∃ a b room, a < b ∧ b < 32 ∧ (∀ m < b, Tab.get? k.locks m = none ↔ m = a) ∧ Tab.get? k.locks b = none ∧
       (Tab.get? u.cores c.team.pcore).map (fun K => (Tab.get? K.locks a, Tab.get? K.locks b)) =
         some (some ⟨c.t, c.grid.part, c.grid.asid, j.src, j.srcLen, false, room.getD 0⟩,
           some ⟨c.t, c.grid.part, c.grid.asid, j.dst, j.dstLen, true, room.getD 0⟩) ∧
       (j.stages = [] → room = none) ∧ (j.stages ≠ [] → ∃ r < 16, room = some r ∧ Tab.get? (s.roomsOf (c.team.pcore / 128)) r = none ∧
         ∀ m < r, Tab.get? (s.roomsOf (c.team.pcore / 128)) m ≠ none) ∧
       Tab.get? u.ops s.fresh = some ⟨c.t, c.team.grid, c.grid.part, c.team.pcore, c.grid.asid, room, [a, b], j.src, j.srcLen,
         j.dst, j.dstLen, j.shape, j.handle, j.stages.map (BitVec.ofNat 64), j.bobj, j.owes, none, c.grid.aborted, none, []⟩ ∧
       u.mem = s.mem ∧ u.teams = s.teams ∧ u.fresh = s.fresh + 1) ∧
   (∀ (c : Ctx) (s : State) (j : Job),
     startJob c s j = none ↔ (∃ m, ∀ n < 32, n ≠ m → Tab.get? (s.locksOf c.team.pcore) n ≠ none) ∨
       j.stages ≠ [] ∧ ∀ r < 16, Tab.get? (s.roomsOf (c.team.pcore / 128)) r ≠ none) ∧
   (∀ (c : Ctx) (s u : State) (js : List Job) (n : Nat), startJobs c s js 0 = (u, n) →
     ∃ at_ : Nat → State, at_ 0 = s ∧ at_ n = u ∧ n ≤ js.length ∧
       ∀ k (h : k < js.length), startJob c (at_ k) js[k] = if k < n then some (at_ (k + 1)) else if k = n then none else
         startJob c (at_ k) js[k]) ∧
   (∀ (tab : Tab Shape) (team limit : Nat) (card : Bool) (vs : List Nat),
     (∀ js, validateAll tab team limit card 0 vs = .ok js ↔ js.length = vs.length ∧
       ∀ k (h : k < vs.length), ∃ j, js[k]? = some j ∧ validate tab team limit card k vs[k] = .ok j) ∧
     (∀ w, validateAll tab team limit card 0 vs = .error w ↔ ∃ k, ∃ h : k < vs.length,
       validate tab team limit card k vs[k] = .error w ∧
       ∀ m (hm : m < k), ∃ j, validate tab team limit card m vs[m] = .ok j)) ∧
   (∀ (tab : Tab Shape) (team limit k v : Nat),
     let f (lo n : Nat) : Nat := v / 2 ^ lo % 2 ^ n
     let got := validate tab team limit false k v
     let bad : Prop := got = .error (0x11, 1 + 16 * k)
     (f 384 128 ≠ 0 ∨ f 216 40 ≠ 0 ∨ f 207 1 ≠ 0 ∨ f 168 24 ≠ 0 → bad) ∧
     (f 384 128 = 0 → f 216 40 = 0 → f 207 1 = 0 → f 168 24 = 0 →
       (f 214 1 = 0 →
         (f 208 6 ≠ 0 ∨ f 215 1 ≠ 0 ∨ f 128 40 = 0 → bad) ∧
         (f 208 6 = 0 → f 215 1 = 0 → f 128 40 ≠ 0 →
           JobChecked limit k ⟨f 0 64, f 128 40, f 64 64, f 128 40, none, none, [], f 192 15, f 128 40⟩ got)) ∧
       (f 214 1 = 1 →
         let out := f 215 1 = 1
         (f 128 40 ≠ 0 ∨ (out ∧ f 64 64 ≠ 0) ∨ (¬out ∧ f 0 64 ≠ 0) → bad) ∧
         (f 128 40 = 0 → (out → f 64 64 = 0) → (¬out → f 0 64 = 0) →
           ((∀ sh, Tab.get? tab (f 208 6) = some sh → sh.team ≠ team ∨ sh.dropped = true) → got = .error (0x11, 2 + 16 * k)) ∧
           (∀ sh sts, Tab.get? tab (f 208 6) = some sh → sh.team = team → sh.dropped = false →
             IsChain (shStages sh.record.toNat) sts →
             let r := sh.record.toNat
             let side := tileRange r (f 256 128)
             let shape := some (sh.record, BitVec.ofNat 128 (f 256 128), f 215 1 == 1)
             let fits (n : Nat) : Prop := if out then ChainFits sts n (tileLen r) else ChainFits sts (tileLen r) n
             ((∀ n, ¬fits n) ∨ (∃ n m, n ≠ m ∧ fits n ∧ fits m) → bad) ∧
             (∀ n, (∀ m, fits m ↔ m = n) → JobChecked limit k (if out
               then ⟨f 0 64, n, side.1, side.2, shape, some (f 208 6), sts, f 192 15, tileInside r (f 256 128)⟩
               else ⟨side.1, side.2, f 64 64, n, shape, some (f 208 6), sts, f 192 15, n⟩) got)))))) ∧
   (∀ (tab : Tab Shape) (team limit k v : Nat),
     let f (lo n : Nat) : Nat := v / 2 ^ lo % 2 ^ n
     let got := validate tab team limit true k v
     let sts := (List.range 3).map (fun j => f (224 + 64 * j) 64)
     let good (ch : List Nat) : Prop := f 416 96 = 0 ∧ f 223 1 = 0 ∧ f 128 40 ≠ 0 ∧ f 168 40 ≠ 0 ∧ IsChain sts ch ∧ ch ≠ [] ∧
       ChainFits ch (f 128 40) (f 168 40)
     ((∀ ch, ¬good ch) → got = .error (0x11, 1 + 16 * k)) ∧
     (∀ ch, good ch → JobChecked limit k ⟨f 0 64, f 128 40, f 64 64, f 168 40, none, none, ch, f 208 15, f 168 40⟩ got))) ∧
  ((∀ (s u : State) (c : Ctx) (e : Bool) (d x : Opd) (bs : List Byte) (k : Core),
     let a := c.grp.sPair x.num
     let core := c.team.pcore
     (Executes s c (.shapeSeal e d x) → a % 32 ≠ 0 → exec (.shapeSeal e d x) s = .next (trapWord s c causeIllegal 0)) ∧
     (Executes s c (.shapeSeal e d x) → a % 32 = 0 → readLane s s c (c.lanes.headD 0) a 96 = .val u bs →
       Tab.get? u.cores core = some k →
       (shapeOk (leValue bs) = false → exec (.shapeSeal e d x) s = .next (trapWord u c causeJobBad 1)) ∧
       (shapeOk (leValue bs) = true → (∀ h < 64, (Tab.get? k.shapes h).isSome = true) →
         exec (.shapeSeal e d x) s = .next (u.after c (.shapeSeal e d x) fun G => G.result d 64)) ∧
       (∀ h < 64, shapeOk (leValue bs) = true → Tab.get? k.shapes h = none → (∀ m < h, (Tab.get? k.shapes m).isSome = true) →
         exec (.shapeSeal e d x) s = .next ((u.modCore core fun k =>
           { k with shapes := Tab.put k.shapes h ⟨c.t, BitVec.ofNat 768 (leValue bs), false⟩ }).after c (.shapeSeal e d x)
           fun G => G.result d (BitVec.ofNat 32 h)))) ∧
     (Executes s c (.shapeDrop e x) → Tab.get? s.cores core = some k →
       let h := (c.grp.uniVal x).toNat
       ((∀ sh, Tab.get? k.shapes h = some sh → sh.team ≠ c.t ∨ sh.dropped = true) →
         exec (.shapeDrop e x) s = .next (trapWord s c causeJobBad 2)) ∧
       (∀ sh, Tab.get? k.shapes h = some sh → sh.team = c.t → sh.dropped = false → Tab.wf k.shapes = true →
         ∃ (v : State) (K : Core), exec (.shapeDrop e x) s = .next (v.after c (.shapeDrop e x) (·.latchU none)) ∧
           v = { s with cores := v.cores } ∧ Tab.get? v.cores core = some K ∧ K = { k with shapes := K.shapes } ∧
           (∀ m, m ≠ h → Tab.get? K.shapes m = Tab.get? k.shapes m) ∧
           Tab.get? K.shapes h = if ∃ o ∈ s.ops, o.2.pcore = core ∧ o.2.handle = some h then some { sh with dropped := true }
             else none))) ∧
   (∀ r : Nat, shapeOk r = true ↔
     let f (lo n : Nat) : Nat := r / 2 ^ lo % 2 ^ n
     f 640 128 = 0 ∧ f 422 26 = 0 ∧ f 419 1 = 0 ∧ f 416 3 ≤ 3 ∧
     (∀ e < 4, 1 ≤ f (64 + 32 * e) 32 ∧ (f 420 2 < e → f (64 + 32 * e) 32 = 1 ∧ f (384 + 8 * e) 8 = 0)) ∧
     ∃ ch, IsChain ((List.range 3).map (fun j => f (448 + 64 * j) 64)) ch ∧
       let tile := (f 384 8 + 1) * (f 392 8 + 1) * (f 400 8 + 1) * (f 408 8 + 1) * 2 ^ f 416 3
       ∃ n, ChainFits ch n tile ∨ ChainFits ch tile n)) ∧
  (∀ (s : State) (c : Ctx) (e : Bool) (d x : Opd) (k : Core) (P : Part) (Q : Queue),
     Tab.get? s.cores c.team.pcore = some k → Tab.get? s.parts c.grid.part = some P → Tab.get? P.queues c.grid.queue = some Q →
     let ask := (c.grp.uniVal x).toNat
     let r := max ask 4
     let mine := k.key.held = true ∧ k.key.holder.toNat = c.grid.queue
     let i : Instr := .leaseGet e d x
     let put : Instr := .leasePut e
     let answers (t : State) (n : Nat) : Prop := exec i s = .next (t.after c i fun G => G.result d (BitVec.ofNat 32 n))
     let withKey (key : RoomKey) : State := s.modCore c.team.pcore fun k => { k with key := key }
     (Executes s c i →
       (ask = 0 ∨ 2 ^ 31 < ask → exec i s = .next (trapWord s c causeIllegal 0)) ∧
       (1 ≤ ask → ask ≤ 2 ^ 31 →
         (k.key.en = false → answers s r) ∧
         (k.key.en = true → k.key.held = true → ¬mine → answers s 0) ∧
         (k.key.en = true → k.key.held = false ∨ mine →
           let n := min r (max 4 Q.leaseMax.toNat)
           answers (withKey ⟨BitVec.ofNat 32 n, BitVec.ofNat 6 c.grid.queue, true, true⟩) n))) ∧
     (Executes s c put →
       (k.key.en = true → mine → exec put s =
         .next ((withKey { k.key with held := false, remain := 0 }).after c put (·.latchU none))) ∧
       (¬(k.key.en = true ∧ mine) → exec put s = .next (s.after c put (·.latchU none)))))

/-- ENGINE_OP_COMPLETE and ENGINE_OP_STOP (R257, R108, R253, R261), for an operation without a shape, all of it in one step (the
model's log 36): with every page translating, no byte remote and none of the source poisoned, the bytes that its chain gives are
written; then it ends, with no error when they are DSTLEN bytes and nothing stopped the chain, else with the chain's ERR and
ADDR, or LENGTH and the source's end. A plain copy with a poisoned source stops at the first poisoned byte, the bytes before it
written, with ERR 1 and that address; an aborted operation, once its device has
answered what it wrote elsewhere, ends with ERR 4 and writes nothing more (log 36); a page that does not
translate has it wait on a token; bytes for another device are confirmed before it ends (log 41).

The stages of a chain (R255, R259, R274, R275). DICT expands its tokens and checks them in stream order: one that runs past the
input and a match from before the output stop it with DATA, one past the expected output length with LENGTH, each at the
token, and an input that ends below that length with LENGTH at the source's end; that length is DSTLEN for the last stage,
and not known before another DICT. CVT converts element by element, TRANS transposes, EXPAND gives Round(Value × 2^k), or +0
for k = −128.

The end of an operation (R108 steps 2 and 3, R253): its locks and its room are free, the operation is gone, and its barrier
object has lost the bytes owed, modulo 2^40; what was noted for loads of its core's groups is forgotten (R107, log 6); the first operation to stop writes ERR and ADDR, later stops leave both. -/
def Obligations.OperationsComplete : Prop :=
  (∀ (s u v : State) (n : Nat) (o : EngineOp) (T : Team) (g : Grid) (P Q : Nat → Place),
     Tab.get? s.ops n = some o → Tab.get? s.teams o.team = some T → Tab.get? s.grids o.grid = some g →
     let addresses (a m : Nat) : List (Option Nat) := (List.range m).map (fun i => some (a + i))
     let at_ (F : Nat → Place) (m : Nat) : List (Option Place) := (List.range m).map (fun i => some (F i))
     let local_ (F : Nat → Place) (m : Nat) : Prop := ∀ i < m, ∀ a, F i = .phys a → remotePa a = false
     let source (i : Nat) : Byte := v.stored T (P i)
     let lost (i : Nat) : Prop := ∃ a, (P i = .phys a ∨ P i = .enc a) ∧ v.poisoned a = true
     let unanswered : Prop := ∃ r ∈ o.remote, r.kind = .write ∧ r.answer = none
     (o.aborted = true → exec (.engineOpComplete n) s = .next s ∧ (unanswered → exec (.engineOpStop n) s = .next s) ∧
       (¬unanswered → exec (.engineOpStop n) s = .next (s.endOp n o (some (4, 0))))) ∧
     (o.aborted = false → o.token.isSome = true → exec (.engineOpComplete n) s = .next s ∧ exec (.engineOpStop n) s = .next s) ∧
     (o.aborted = false → o.token = none → o.shape = none → o.out = none →
       (∀ w va f, enginePlaces g.space (dieOf o.pcore) .engineRead s (addresses o.src o.srcLen) = .error (w, va, f) →
         exec (.engineOpComplete n) s = .next (w.waitOp n o g.space va .engineRead f)) ∧
       (enginePlaces g.space (dieOf o.pcore) .engineRead s (addresses o.src o.srcLen) = .ok (u, at_ P o.srcLen) →
         enginePlaces g.space (dieOf o.pcore) .engineWrite u (addresses o.dst o.dstLen) = .ok (v, at_ Q o.dstLen) →
         local_ P o.srcLen →
         (∀ (out : List Byte) (stop : Option Stop), (∀ i < o.srcLen, ¬lost i) →
           runChain (.known o.dstLen) (o.stages.map BitVec.toNat) true ⟨(List.range o.srcLen).map (fun i => .ok (source i)), none⟩ =
             ⟨out.map .ok, stop⟩ →
           let m := min out.length o.dstLen
           let ends : Option Stop := match stop with
             | some x => some x
             | none => if out.length = o.dstLen then none else some (2, none)
           let done (w : State) : State := w.performEntry o.team ⟨(List.range m).map (fun i => (Q i, out.getD i 0))⟩
           (ends = none → exec (.engineOpStop n) s = .next s) ∧
           (∀ w, enginePlaces g.space (dieOf o.pcore) .engineWrite v (addresses o.dst m) = .ok (w, at_ Q m) →
             (local_ Q m → ends = none → exec (.engineOpComplete n) s = .next ((done w).endOp n o none)) ∧
             (¬local_ Q m → ends = none → o.remote = [] →
               ∃ t, exec (.engineOpComplete n) s = .next t ∧ (Tab.get? t.ops n).isSome = true) ∧
             (∀ code i, local_ Q m → ends = some (code, i) → (∀ k, i = some k → k < o.srcLen) →
               exec (.engineOpComplete n) s = .next s ∧
               exec (.engineOpStop n) s = .next ((done w).endOp n o (some (code, o.src + i.getD o.srcLen)))))) ∧
         (∀ j < o.srcLen, o.stages = [] → o.dstLen = o.srcLen → lost j → (∀ i < j, ¬lost i) → local_ Q j →
           ∀ w, enginePlaces g.space (dieOf o.pcore) .engineWrite v (addresses o.dst j) = .ok (w, at_ Q j) →
           exec (.engineOpComplete n) s = .next s ∧
           exec (.engineOpStop n) s = .next ((w.performEntry o.team ⟨(List.range j).map (fun i => (Q i, source i))⟩).endOp n o
             (some (1, o.src + j))))))) ∧
  ((∀ (want : Len) (at_ : Nat → Option Nat) (inp out : List Byte), Expands inp [] out →
     let got (more : List Byte) : Feed := runStage 1 want at_ ⟨(inp ++ more).map .ok, none⟩
     (∀ w, want = .known w → out.length ≤ w) → want ≠ .bad →
     (want = .unknown ∨ want = .known out.length → got [] = ⟨out.map .ok, none⟩) ∧
     (∀ w, want = .known w → out.length < w → got [] = ⟨out.map .ok, some (2, none)⟩) ∧
     (∀ t more,
       let stops (code : Nat) : Prop := got (t :: more) = ⟨out.map .ok, some (code, at_ inp.length)⟩
       let L := t.toNat % 128 + 1
       let whole := if t.toNat < 128 then L ≤ more.length else more ≠ []
       let d := (more.headD 0).toNat + 1
       (¬whole → stops 3) ∧
       (whole → 128 ≤ t.toNat → out.length < d → stops 3) ∧
       (∀ w, whole → (128 ≤ t.toNat → d ≤ out.length) → want = .known w → w < out.length + L → stops 2))) ∧
   (∀ (sts : List Nat) (n : Len), wantedLen [] n = n ∧ ((∃ st ∈ sts, st % 2 ^ 8 = 1) → wantedLen sts n = .unknown)) ∧
   (∀ (st : Nat) (want : Len) (at_ : Nat → Option Nat) (xs : List Nat),
     let src := st / 2 ^ 8 % 2 ^ 3
     let dst := st / 2 ^ 12 % 2 ^ 3
     let d : Desc := Desc.ofWord (BitVec.ofNat 32 (st / 2 ^ 32 % 2 ^ 32))
     let width (t : Nat) : Nat := if t = 0 then 32 else if t < 3 then 16 else if d.c = true then 4 else 8
     let fmt (t : Nat) : Fmt := if t = 0 then f32 else if t = 1 then f16 else g16
     let mode := roundMode (st / 2 ^ 16 % 2 ^ 3)
     let conv (x : Nat) : Nat := (if dst = 3 then d.ofFloat (fmt src) mode x
       else if src = 3 then d.toFloat (fmt dst) mode x else fcvt (fmt src) (fmt dst) mode x).1
     st % 2 ^ 8 = 2 → src ≤ 3 → dst ≤ 3 → ¬(src = 3 ∧ dst = 3) → (∀ x ∈ xs, x < 2 ^ width src) →
     (width src = 4 ∨ width dst = 4 → xs.length % 2 = 0) →
     runStage st want at_ ⟨(packedCodes (width src) xs).map .ok, none⟩ = ⟨(packedCodes (width dst) (xs.map conv)).map .ok, none⟩) ∧
   (∀ (st : Nat) (want : Len) (at_ : Nat → Option Nat) (inp : List Byte),
     let n := 2 ^ (st / 2 ^ 8 % 2 ^ 3)
     let rows := st / 2 ^ 16 % 2 ^ 16 + 1
     let cols := st / 2 ^ 32 % 2 ^ 16 + 1
     st % 2 ^ 8 = 3 → inp.length = rows * cols * n →
     ∃ out : List Byte, runStage st want at_ ⟨inp.map .ok, none⟩ = ⟨out.map .ok, none⟩ ∧ out.length = inp.length ∧
       ∀ i j b, i < rows → j < cols → b < n → out[(j * rows + i) * n + b]? = inp[(i * cols + j) * n + b]?) ∧
   (∀ (st : Nat) (want : Len) (at_ : Nat → Option Nat) (blocks : List (Byte × List Nat)),
     let d : Word := BitVec.ofNat 32 (st / 2 ^ 32 % 2 ^ 32)
     let width := if (Desc.ofWord d).c = true then 4 else 8
     st % 2 ^ 8 = 4 → (∀ b ∈ blocks, b.2.length = 16 ∧ ∀ x ∈ b.2, x < 2 ^ width) →
     runStage st want at_ ⟨(blocks.flatMap (fun b => b.1 :: packedCodes width b.2)).map .ok, none⟩ =
       ⟨(blocks.flatMap (fun b => b.2.flatMap (fun x => toBytes 4 (expandElement d b.1.toInt x)))).map .ok, none⟩) ∧
   (∀ (d : Word) (k : Int) (x : Nat), (k = -128 → expandElement d k x = 0) ∧
     (∀ neg m e, k ≠ -128 → (Desc.ofWord d).value x = .fin neg m e → ∀ a j : Nat, (a : Int) - j = e + k + f32.one →
       ∃ fl, RoundsOnce f32 ((if neg = true then -1 else 1) * m * 2 ^ a) (2 ^ j) (expandElement d k x, fl)))) ∧
  ((∀ (s : State) (n : Nat) (o : EngineOp) (stop : Option (Nat × Nat)) (k : Core), Tab.get? s.cores o.pcore = some k →
     Tab.wf k.locks = true → Tab.wf s.ops = true → o.handle = none →
     let u := s.endOp n o stop
     Tab.get? u.ops n = none ∧ (∀ m, m ≠ n → Tab.get? u.ops m = Tab.get? s.ops m) ∧
     (∃ K, Tab.get? u.cores o.pcore = some K ∧ K = { k with locks := K.locks } ∧
       ∀ m, Tab.get? K.locks m = if m ∈ o.locks then none else Tab.get? k.locks m) ∧
     (∀ T, Tab.get? s.teams o.team = some T → ∃ U, Tab.get? u.teams o.team = some U ∧
       U = { countDown T o.bobj o.owes stop with groups := U.groups } ∧
       (T.pcore ≠ o.pcore → U.groups = T.groups) ∧
       (T.pcore = o.pcore → U.groups = T.groups.map (fun g => (g.1, { g.2 with early := [], ahead := [] })))) ∧
     u.mem = s.mem ∧ u.grids = s.grids ∧ u.tokens = s.tokens) ∧
   (∀ (T : Team) (bobj owes : Nat) (stop : Option (Nat × Nat)), Store.wf T.scratch = true → (∀ x, stop = some x → x.1 < 256) →
     let object (T : Team) : Nat := leValue ((List.range 16).map (fun i => Store.get T.scratch (16 * bobj + i)))
     let U := countDown T bobj owes stop
     let count (v : Nat) : Nat := v % 2 ^ 40
     let err (v : Nat) : Nat := v / 2 ^ 40 % 2 ^ 8
     let addr (v : Nat) : Nat := v / 2 ^ 64
     (count (object U) + owes) % 2 ^ 40 = count (object T) ∧
     (stop = none ∨ err (object T) ≠ 0 → err (object U) = err (object T) ∧ addr (object U) = addr (object T)) ∧
     (∀ code a, stop = some (code, a) → err (object T) = 0 → err (object U) = code ∧ addr (object U) = a % 2 ^ 64) ∧
     (∀ o, o < 16 * bobj ∨ 16 * bobj + 16 ≤ o → Store.get U.scratch o = Store.get T.scratch o) ∧
     U = { T with scratch := U.scratch }))

/-! ## The Concierge (22_queues_and_dispatch.md) -/

/-- QUEUE_TAIL_WRITE, QUEUE_ERR_CLEAR and PACKET_TAKE (R303 to R306), and DEPENDENCE_POLL (R309). The Concierge takes packet
HEAD of an enabled queue whose ERR is 0, that is not busy with its context, whose root names Sv57 and whose ring holds one: a packet that
fails a row of R170's table sets ERR and ESTAT, the lowest such row, and leaves HEAD and everything else; an accepted one moves HEAD on and is a grid of depth 0
in its queue's address space that has admitted nothing. A dependence word met lets its grid start. -/
def Obligations.QueuesTakePackets : Prop :=
  (∀ (s : State) (p q : Nat) (Q : Queue), s.queue? p q = some Q →
    let only (i : Instr) (Q' : Queue) : Prop := ∃ u, exec i s = .next u ∧ OnlyQueue s u p q Q'
    let pk : BitVec 1024 := BitVec.ofNat 1024 (leValue (s.bytes (Q.qbase.toNat + 128 * (Q.head.toNat % 2 ^ Q.qlog.toNat)) 128))
    let takes := s.partUp p = true ∧ Q.en = true ∧ Q.err = false ∧ Q.cmd = 0 ∧ Q.rootMode = 10 ∧ Q.head ≠ Q.tail ∧ Q.wait = .none
    (∀ val, only (.queueTailWrite p q val) { Q with tail := val }) ∧
    only (.queueErrClear p q) { Q with err := false } ∧
    (¬takes → exec (.packetTake p q) s = .next s) ∧
    (takes → packetStatus pk ≠ 0 →
      only (.packetTake p q) { Q with err := true, estat := BitVec.ofNat 32 (packetStatus pk) }) ∧
    (takes → packetStatus pk = 0 → pk.extractLsb' 640 64 = 0 → ∃ u G, exec (.packetTake p q) s = .next u ∧
      u = { s with grids := u.grids, parts := u.parts, fresh := s.fresh + 1 } ∧ EntryOnly s.grids u.grids s.fresh G ∧
      OnlyQueue s { s with parts := u.parts } p q { Q with head := Q.head + 1 } ∧
      G.packet = pk ∧ G.depth = 0 ∧ G.parent = none ∧ G.part = p ∧ G.queue = q ∧ G.tenant = pk.extractLsb' 624 16 ∧
      G.asid = Q.rootAsid ∧ G.root = Q.rootPpn ∧ G.next = 0 ∧ G.liveTeams = 0 ∧ G.liveKids = 0 ∧
      (G.depOk = true ↔ pk.extractLsb' 512 64 = 0) ∧ G.stopped = false ∧ G.aborted = false ∧ G.wg = none)) ∧
  (∀ (s u : State) (n : Nat) (g : Grid) (bs : List Byte), Tab.get? s.grids n = some g →
    let waits := g.depOk = false ∧ g.aborted = false ∧ g.wait = .none ∧ s.partUp g.part = true
    (¬waits → exec (.dependencePoll n) s = .next s) ∧
    (waits → conciergeRead s n g.space (g.packet.extractLsb' 512 64).toNat 4 = .val u bs → u.grids = s.grids →
      ∃ v, exec (.dependencePoll n) s = .next v ∧ v = { u with grids := v.grids, remotes := v.remotes } ∧
        EntryOnly s.grids v.grids n { g with depOk := decide (0 ≤
          (BitVec.ofNat 32 (leValue bs) - g.packet.extractLsb' 576 32).toInt) })) ∧
  (∀ pk : BitVec 1024,
    let f (lo n : Nat) : Nat := pk.toNat / 2 ^ lo % 2 ^ n
    let regs := f 200 8
    let groups := f 192 6 + 1
    let tiles := f 208 7
    let m := (groups + 3) / 4
    let row1 : Prop := regs % 8 ≠ 0 ∨ regs < 8 ∨ 192 < regs
    let row2 : Prop := 32 < groups ∨ 0 < tiles ∧ groups % 4 ≠ 0
    let row3 : Prop := f 704 320 ≠ 0 ∨ f 608 16 ≠ 0 ∨ f 244 12 ≠ 0 ∨ f 216 8 ≠ 0 ∨ f 198 2 ≠ 0 ∨ 524288 < f 224 20 ∨ 64 < tiles ∨
      f 160 32 = 0 ∨ f 512 64 % 4 ≠ 0 ∨ f 448 64 % 4 ≠ 0 ∨ f 384 64 % 16 ≠ 0 ∨ 64 < m * tiles ∨ min 16 (2048 / regs) < m
    (row1 → packetStatus pk = 1) ∧ (¬row1 → row2 → packetStatus pk = 2) ∧ (¬row1 → ¬row2 → row3 → packetStatus pk = 3) ∧
    (¬row1 → ¬row2 → ¬row3 → packetStatus pk = 0))

/-- TEAM_ADMIT and a team's start (R20, R308, R311). With no room in the window of a team that a queue puts forward, or nothing to
admit, nothing changes; an admitted team of an ordinary grid takes the next %team, the next place in the round robin
and the next number, on the core and seats that the placement found, its core then serves its tenant tag, and the
grid counts it. Every register, tile, mask and scratchpad byte of a team at its start is zero but for s0:s1 and s58:s59; every lane
is live at the entry, in one fragment, with invalid latches and zero status. Queues are served by PRIO, at equal ones those that put
a child grid or a restored team forward first (R310), then in turn from the last one served; a queue puts forward its
lowest child grid with teams to admit, else its earliest packet; the place is the lowest score within 8 of the round-robin
position, ties to the lower core (the temperature is open, log 51). -/
def Obligations.TeamsAreAdmitted : Prop :=
  (∀ (s : State) (p : Nat) (P : Part), Tab.get? s.parts p = some P →
    let order := serveOrder P (s.goesAhead p)
    (s.partUp p = false ∨ (∀ x ∈ s.grids, x.2.part = p → x.2.wantsGraph = false) ∧ (∀ q ∈ order, s.admitNext p q = none) → exec (.teamAdmit p) s = .next s) ∧
    (∀ (before after : List Nat) (q : Nat) (Q : Queue) (n : Nat) (g : Grid) (ahead : Bool) (i : Nat) (seats : List Seat)
        (block : Nat × Nat) (k : Core),
      s.partUp p = true → (∀ x ∈ s.grids, x.2.part = p → x.2.wantsGraph = false) → order = before ++ q :: after → (∀ r ∈ before, s.admitNext p r = none) →
      Tab.get? P.queues q = some Q → Q.restore = [] → Q.cmd ≠ 1 → Q.cmd ≠ 3 → s.forward p q = some (n, g, ahead) →
      Tab.get? s.grids n = some g → g.queue = q → g.wg = none → g.next < (g.packet.extractLsb' 160 32).toNat →
      s.placeTeam P (packetNeed g.packet g.tenant) = some (i, seats, block) →
      Tab.get? s.cores (P.cfg.cores.getD i 0) = some k →
      let pcore := P.cfg.cores.getD i 0
      ∃ u, exec (.teamAdmit p) s = .next u ∧
        u = { s with teams := u.teams, grids := u.grids, cores := u.cores, parts := u.parts, fresh := s.fresh + 1 } ∧
        EntryOnly s.teams u.teams s.fresh
          (newTeam n g.next p i pcore g.packet (g.packet.extractLsb' 64 64).toNat seats block none) ∧
        EntryOnly s.grids u.grids n { g with next := g.next + 1, liveTeams := g.liveTeams + 1 } ∧
        EntryOnly s.cores u.cores pcore { k with tag := some g.tenant } ∧
        EntryOnly s.parts u.parts p { P with placed := P.placed + 1, lastQueue := q })) ∧
  (∀ (P : Part) (ahead : Nat → Bool), P.lastQueue < 64 →
    let prio (q : Nat) : Nat := ((Tab.get? P.queues q).map (·.prio.toNat)).getD 0
    let turn (q : Nat) : Nat := (q + 63 - P.lastQueue) % 64
    (∀ q, q ∈ serveOrder P ahead ↔ q < 64) ∧
    (serveOrder P ahead).Pairwise (fun a b => prio b < prio a ∨ prio a = prio b ∧
      (ahead a = true ∧ ahead b = false ∨ ahead a = ahead b ∧ turn a < turn b))) ∧
  (∀ (s : State) (p q n : Nat) (g : Grid), Tab.wf s.grids = true →
    let waits (m : Nat) (h : Grid) : Prop := (m, h) ∈ s.grids ∧ h.part = p ∧ h.queue = q ∧ h.unadmitted = true
    let child (h : Grid) : Prop := h.parent.isSome = true ∧ h.shadesFor = none
    (waits n g → child g → (∀ m h, waits m h → child h → n ≤ m) →
      s.forward p q = if s.gridReady g = true then some (n, g, true) else none) ∧
    ((∀ m h, waits m h → ¬child h) → waits n g → g.parent = none →
      (∀ m h, waits m h → h.parent = none → m ≠ n → g.order < h.order) →
      s.forward p q = if s.gridReady g = true then some (n, g, false) else none) ∧
    (s.gridReady g = true ↔ g.depOk = true ∧ g.wait = .none ∧ g.wantsGraph = false ∧ (g.parent.isSome = true ∨
      g.packet.extractLsb' 215 1 = 0 ∨ ∀ m h, (m, h) ∈ s.grids → h.part = g.part → h.queue = g.queue → h.parent = none →
        g.order ≤ h.order))) ∧
  (∀ (s : State) (P : Part) (need : Need),
    let N := P.cfg.cores.length
    let pos := P.placed % N
    let dist (i : Nat) : Nat := min ((i + N - pos) % N) ((pos + N - i) % N)
    let core (i : Nat) : Nat := P.cfg.cores.getD i 0
    let fit (i : Nat) : Option (List Seat × (Nat × Nat)) := s.fits (core i) (Config.rotation s.fresh) need
    let droops (i : Nat) : Nat := ((Tab.get? s.cores (core i)).map (fun k =>
      (k.droops.filter (fun d => s.cycles < d + 2 ^ 16)).length)).getD 0
    let score (i : Nat) : Nat := P.tw.toNat * Config.heat (core i) s.cycles + P.dw.toNat * droops i + dist i
    (s.placeTeam P need = none ↔ ∀ i < N, dist i ≤ 8 → fit i = none) ∧
    ∀ i a, s.placeTeam P need = some (i, a) → i < N ∧ dist i ≤ 8 ∧ fit i = some a ∧
      ∀ j < N, dist j ≤ 8 → fit j ≠ none → score i < score j ∨ score i = score j ∧ i ≤ j) ∧
  (∀ (grid index part core pcore param : Nat) (pk : BitVec 1024) (seats : List Seat) (block : Nat × Nat) (wg : Option WgTeam),
    seats.length = (pk.extractLsb' 192 6).toNat + 1 → param < 2 ^ 64 → (pk.extractLsb' 224 20).toNat ≤ 524288 →
    let T := newTeam grid index part core pcore pk param seats block wg
    let top := (windowBase + T.limit) % 2 ^ 64
    T.index = index ∧ T.core = core ∧ T.cluster = core / 8 ∧ T.pcore = pcore ∧ T.ngroup = seats.length ∧
    T.regs = (pk.extractLsb' 200 8).toNat ∧ T.ztiles = (pk.extractLsb' 208 7).toNat ∧ T.handler = pk.extractLsb' 320 64 ∧
    (∀ o, Store.get T.scratch o = 0) ∧ (∀ b < 17, T.barrier b = ⟨0, 0, 0⟩) ∧ (∀ c < 8, T.convReg c = ⟨0, 0, false, 0, 0, false⟩) ∧
    (∀ g < T.ngroup, ∃ G, Tab.get? T.groups g = some G ∧ G.Whole ∧ G.sPair 0 = param ∧ G.sPair 58 = top ∧
      (∀ r < 60, r ≠ 0 → r ≠ 1 → r ≠ 58 → r ≠ 59 → G.sreg r = 0) ∧ (∀ j, Store.get G.k j = 0) ∧ (∀ j, Store.get G.f j = 0) ∧
      (∀ j, Store.get G.z j = 0) ∧ G.uq = Latches.invalid ∧ G.handlers = [] ∧ G.trapCause = 0 ∧ G.trapPc = 0 ∧ G.trapInfo = 0 ∧
      (∀ l < 32, (G.lane l).live = true ∧ (G.lane l).pc = pk.extractLsb' 0 64 ∧ (∀ r, (G.lane l).vreg r = 0) ∧
        (G.lane l).q = Latches.invalid ∧ (G.lane l).status = 0 ∧ (G.lane l).rpt = 0 ∧ (G.lane l).meet = 0 ∧
        (G.lane l).arrive = true ∧ ∀ m < 32, (G.lane m).frag = (G.lane l).frag)))

/-- TEAM_END and GRID_RETIRE (R39, R262, R307, R310, R323), CORE_SCRUB (R316), COMPACTOR_MOVE (R315). A team ends when every group
of it has ended and no engine operation of it is in flight: its stores are performed, it is gone with its shape handles, and its grid
counts it no more; a key that its queue leaves is free, its count 0 (log 57). A grid retires once all its teams are admitted and ended, its child grids retired and its triangles
finished: what its partition's rings wait for is placed (R389, log 47), then the completion record (STATUS 2 before 1: DESIGN CHOICE, log 67), then the counter, then RETIRED, and a child grid
frees its slot. A scrubbed core has no tag, shape, filter entry or waystation entry (what else starts at zero anyway: log 55); the compactor changes no value of any group, only where its blocks lie. -/
def Obligations.TeamsAndGridsEnd : Prop :=
  (∀ (s : State) (t : Nat) (T : Team) (g : Grid) (k : Core), Tab.get? s.teams t = some T → Tab.get? s.grids T.grid = some g →
    Tab.get? s.cores T.pcore = some k → Tab.wf s.teams = true → T.wg = none → g.wg = none →
    let ended := (∀ G ∈ T.groups, G.2.ended = true) ∧ ∀ o ∈ s.ops, o.2.team ≠ t
    (¬ended → exec (.teamEnd t) s = .next s) ∧
    (ended → ∃ (u : State) (K : Core), exec (.teamEnd t) s = .next u ∧ Tab.get? u.teams t = none ∧
      (∀ m, m ≠ t → Tab.get? u.teams m = Tab.get? s.teams m) ∧ u.mem = (s.drainTeam t).mem ∧
      EntryOnly s.grids u.grids T.grid { g with liveTeams := g.liveTeams - 1 } ∧
      EntryOnly s.cores u.cores T.pcore K ∧ K = { k with shapes := K.shapes, key := K.key } ∧
      (∀ e, e ∈ K.shapes ↔ e ∈ k.shapes ∧ e.2.team ≠ t) ∧
      let last := k.key.held = true ∧ ∀ m R h, Tab.get? u.teams m = some R → R.pcore = T.pcore →
        Tab.get? u.grids R.grid = some h → h.queue ≠ k.key.holder.toNat
      (last → K.key = { k.key with held := false, remain := 0 }) ∧ (¬last → K.key = k.key))) ∧
  (∀ (s : State) (n : Nat) (g : Grid) (P : Part) (Q : Queue), Tab.get? s.grids n = some g → Tab.wf s.grids = true →
    Tab.get? s.parts g.part = some P → Tab.get? P.queues g.queue = some Q → Q.cmd ≠ 3 → g.shadesFor = none → g.wg = none →
    g.recordDone = false → g.counterDone = false → g.wait = .none →
    let ended := g.liveTeams = 0 ∧ (g.aborted = true ∨ (g.packet.extractLsb' 160 32).toNat ≤ g.next ∧
      g.packet.extractLsb' 640 64 = 0) ∧ g.liveKids = 0 ∧
      ∀ k ∈ s.cores, ∀ t ∈ k.2.raster, t.grid ≠ n
    let placed := s.placeAll g.part
    let crec := (g.packet.extractLsb' 384 64).toNat
    let cnt := (g.packet.extractLsb' 448 64).toNat
    let status := if g.aborted = true then 2 else if g.stopped = true then 1 else 0
    let record := toBytes 8 placed.time ++ toBytes 4 (g.packet.extractLsb' 128 32).toNat ++ toBytes 4 status
    let here (ps : List Place) : Prop := ∀ a, .phys a ∈ ps → remotePa a = false
    let same (s v : State) : Prop := v = { s with mem := v.mem, enc := v.enc, prot := v.prot }
    let gone (v u : State) : Prop := Tab.get? u.grids n = none ∧ u.mem = v.mem ∧
      (∀ m, m ≠ n → g.parent ≠ some m → Tab.get? u.grids m = Tab.get? s.grids m) ∧
      (∀ m G, g.parent = some m → m ≠ n → Tab.get? s.grids m = some G →
        Tab.get? u.grids m = some { G with liveKids := G.liveKids - 1 }) ∧
      ∃ P', Tab.get? u.parts g.part = some P' ∧ P'.kids = (if g.parent.isSome then P.kids - 1 else P.kids) ∧
        EntryOnly P.queues P'.queues g.queue { Q with retired := Q.retired + 1 }
    (¬ended → exec (.gridRetire n) s = .next s) ∧
    (ended → crec = 0 → cnt = 0 → ∃ u, exec (.gridRetire n) s = .next u ∧ gone placed u) ∧
    (∀ v ps, ended → crec ≠ 0 → unitPlaces placed .none g.space .store crec 16 = .val v ps → same placed v → here ps →
      let w := v.performBytes 0 (ps.zip record)
      (cnt = 0 → ∃ u, exec (.gridRetire n) s = .next u ∧ gone w u) ∧
      (cnt ≠ 0 → ∀ x a rest,
        let w := (w.dropReplies n).modGrid n fun g => { g with recordDone := true }
        unitPlaces w .none g.space .atomic cnt 4 = .val x (.phys a :: rest) → same w x → here (.phys a :: rest) →
        ∃ u, exec (.gridRetire n) s = .next u ∧ gone (x.writePhys a (toBytes 4 (x.physValue a 4 + 1))) u)) ∧
    (∀ v a rest, ended → crec = 0 → cnt ≠ 0 → unitPlaces placed .none g.space .atomic cnt 4 = .val v (.phys a :: rest) →
      same placed v → here (.phys a :: rest) → ∃ u, exec (.gridRetire n) s = .next u ∧
        gone (v.writePhys a (toBytes 4 (v.physValue a 4 + 1))) u)) ∧
  (∀ (s : State) (c : Nat) (k : Core), Tab.get? s.cores c = some k →
    let due := ∃ tag, k.tag = some tag ∧ (∀ T ∈ s.teams, T.2.pcore ≠ c) ∧ s.wantsScrub c tag = true
    (¬due → exec (.coreScrub c) s = .next s) ∧
    (due → ∃ u, exec (.coreScrub c) s = .next u ∧ OnlyCore s u c { k with tag := none, shapes := [], filter := [], way := [] }) ∧
    (∃ u, exec (.compactorMove c) s = .next u ∧ u = { s with teams := u.teams } ∧
      let values (T : Team) : Team := { T with block := (0, 0), groups := T.groups.map (fun (G : Nat × Group) =>
        (G.1, { G.2 with regBlocks := [], zBlocks := [] })) }
      ∀ t, (Tab.get? u.teams t).map values = (Tab.get? s.teams t).map values))

/-- WG.RESERVE, WG.EMIT and WG.DONE (R264), lane by lane in ascending order, helper lanes left out (R132), uniform q1 invalid
after them; outside a work-graph node they trap WG_FAULT subcode 4, and 5 after WG.DONE; RESERVE traps 3 on a port that is not declared
and 1 on the lanes that find its reservation used up, EMIT 2 on an address that is no bunk the team holds. A team's end performs
WG.DONE, returns its bunks and settles which nodes are closed: node 0 when all its teams have ended, another when it has no
live team, no record and only closed producers; the grid does not retire before all are. WG_NODE_TEAM_FORM and WG_RECORD_TIMEOUT (R321): a node
forms a team of its oldest records, THRESH at most, when THRESH of them wait or its producers are closed, or when the
oldest has waited TIMEOUT cycles; else nothing changes. -/
def Obligations.WorkGraphsRun : Prop :=
  (∀ (s t : State) (c : Ctx) (e : Bool) (d x : Opd),
    let acts (i : Instr) (R : State → Nat → State → Prop) : Prop := Executes s c i →
      Chain (fun s l u => ((c.grp.lane l).helper = true ∧ u = s) ∨ ((c.grp.lane l).helper = false ∧ R s l u)) c.lanes s t →
      exec i s = .next (t.after c i (·.latchU none))
    let team (s : State) (f : WgTeam → WgTeam) : State := s.modTeam c.t fun T => { T with wg := T.wg.map f }
    let open_ (s : State) (T : Team) (w : WgTeam) (N : WgNode) : Prop := Tab.get? s.teams c.t = some T ∧ T.wg = some w ∧
      w.done = false ∧ ∃ g G, Tab.get? s.grids T.grid = some g ∧ g.wg = some G ∧ Tab.get? G.nodes w.node = some N
    acts (.wgReserve e d x) (fun s l u => ∃ T w N b pool left node most, open_ s T w N ∧
      N.ports[(c.grp.uniVal x).toNat]? = some (node, most) ∧ most ≠ 0 ∧ w.pool = b :: pool ∧
      Tab.get? w.left (c.grp.uniVal x).toNat = some (left + 1) ∧
      u = (team s fun w => { w with
        pool := pool, left := Tab.put w.left (c.grp.uniVal x).toNat left,
        held := w.held ++ [(b, (c.grp.uniVal x).toNat)] }).modLane c.t c.g l
        (·.setVs d.num [BitVec.ofNat 32 b, BitVec.ofNat 32 (b / 2 ^ 32)])) ∧
    acts (.wgEmit e x) (fun s l u => ∃ T w N port node most, open_ s T w N ∧
      let b := c.grp.pairVal (c.grp.lane l) x
      w.held.find? (fun h => h.1 == b) = some (b, port) ∧ N.ports[port]? = some (node, most) ∧
      u = (team (s.drainGroup c.t c.g) fun w => { w with held := w.held.filter (fun h => h.1 != b) }).modNode T.grid node
        fun M => { M with pending := M.pending ++ [⟨b, s.cycles⟩] }) ∧
    acts (.wgDone e) (fun s _ u => ∃ T w, Tab.get? s.teams c.t = some T ∧ T.wg = some w ∧
      u = (team s fun w => { w with done := true, pool := [], held := [], left := [] }).modGrid T.grid fun g =>
        { g with wg := g.wg.map fun G => { G with free := G.free ++ (w.pool ++ w.held.map (·.1)) } })) ∧
  (∀ (s : State) (c : Ctx) (e : Bool) (d x : Opd) (i : Instr) (T : Team),
    (i = .wgReserve e d x ∨ i = .wgEmit e x ∨ i = .wgDone e) → Executes s c i → Tab.get? s.teams c.t = some T → T.wg = none →
    (∀ l ∈ c.lanes, (c.grp.lane l).helper = false) → c.lanes ≠ [] → c.grp.handlers.length ≤ c.level →
    exec i s = .next (trapWord (s.modGroup c.t c.g (·.latchU none)) c causeWgFault 4)) ∧
  (∀ (s : State) (c : Ctx) (e : Bool) (d x : Opd) (T : Team) (w : WgTeam) (g : Grid) (G : WorkGraph) (N : WgNode),
    Tab.get? s.teams c.t = some T → T.wg = some w → Tab.get? s.grids T.grid = some g → g.wg = some G →
    Tab.get? G.nodes w.node = some N → (∀ l ∈ c.lanes, (c.grp.lane l).helper = false) → c.lanes ≠ [] →
    c.grp.handlers.length ≤ c.level →
    let traps (i : Instr) (sub : Nat) : Prop :=
      Executes s c i → exec i s = .next (trapWord (s.modGroup c.t c.g (·.latchU none)) c causeWgFault sub)
    let p := (c.grp.uniVal x).toNat
    let declared : Prop := ∃ node most, N.ports[p]? = some (node, most) ∧ most ≠ 0
    (w.done = true → traps (.wgReserve e d x) 5 ∧ traps (.wgEmit e x) 5) ∧
    (w.done = false → ¬declared → traps (.wgReserve e d x) 3) ∧
    (w.done = false → (∀ l ∈ c.lanes, ∀ h ∈ w.held, h.1 ≠ c.grp.pairVal (c.grp.lane l) x) → traps (.wgEmit e x) 2) ∧
    (w.done = false → declared → ∀ before rest, c.lanes = before ++ rest →
      let used := w.pool.take before.length
      let count := (Tab.get? w.left p).getD 0
      before.length ≤ count → used.length = before.length → count = before.length ∨ w.pool = used → rest ≠ [] → before ≠ [] →
      let v := (s.modTeam c.t fun T => { T with wg := some { w with
        pool := w.pool.drop before.length, left := Tab.put w.left p (count - before.length),
        held := w.held ++ used.map (fun b => (b, p)) } }).modGroup c.t c.g fun G =>
          (G.mapLanes before (fun l L => let b := used.getD (before.idxOf l) 0
            L.setVs d.num [BitVec.ofNat 32 b, BitVec.ofNat 32 (b / 2 ^ 32)])).latchU none
      Executes s c (.wgReserve e d x) → exec (.wgReserve e d x) s = .next (finish s c e
        { Ran.init v with done := before, traps := rest.map (fun l => (l, causeWgFault, 1)) } (fun _ => c.pc + 4))) ∧
    (w.done = false → declared → (Tab.get? w.left p).getD 0 = 0 ∨ w.pool = [] → traps (.wgReserve e d x) 1)) ∧
  (∀ (s : State) (t : Nat) (T : Team) (w : WgTeam) (g : Grid) (G : WorkGraph), Tab.get? s.teams t = some T → T.wg = some w →
    Tab.get? s.grids T.grid = some g → g.wg = some G → Tab.wf G.nodes = true →
    (∀ n N, Tab.get? G.nodes n = some N → ∀ p ∈ N.ports, p.2 ≠ 0 → ∀ M, Tab.get? G.nodes p.1 = some M → N.depth < M.depth) →
    (∀ A ∈ T.groups, A.2.ended = true) → (∀ o ∈ s.ops, o.2.team ≠ t) →
    ∃ u h H, exec (.teamEnd t) s = .next u ∧ Tab.get? u.grids T.grid = some h ∧ h.wg = some H ∧
      h = { g with wg := h.wg, liveTeams := g.liveTeams - 1 } ∧
      H.free = G.free ++ (w.pool ++ w.held.map (·.1)) ++ w.consumed ∧
      ∀ n N, Tab.get? G.nodes n = some N → ∃ M, Tab.get? H.nodes n = some M ∧
        M = { N with live := if n = w.node then N.live - 1 else N.live, closed := M.closed } ∧
        (n = 0 → (M.closed = true ↔ g.next = (g.packet.extractLsb' 160 32).toNat ∧ M.live = 0)) ∧
        (n ≠ 0 → (M.closed = true ↔ M.live = 0 ∧ M.pending = [] ∧ M.formed = [] ∧ ∀ m K, Tab.get? H.nodes m = some K →
          (∃ p ∈ K.ports, p.2 ≠ 0 ∧ p.1 = n) → K.closed = true))) ∧
  (∀ (s : State) (n : Nat) (g : Grid) (G : WorkGraph), Tab.get? s.grids n = some g → g.wg = some G → g.aborted = false →
    (∃ m ∈ G.nodes, m.2.closed = false) → exec (.gridRetire n) s = .next s) ∧
  (∀ (s : State) (g n : Nat) (G : Grid) (w : WorkGraph) (N : WgNode), Tab.get? s.grids g = some G → G.wg = some w →
    Tab.get? w.nodes n = some N →
    let forms (i : Instr) : Prop := ∃ u nodes, exec i s = .next u ∧ OnlyGrid s u g { G with wg := some { w with nodes := nodes } } ∧
      EntryOnly w.nodes nodes n
        { N with formed := N.formed ++ [N.pending.take N.thresh], pending := N.pending.drop N.thresh }
    let shut := ∀ m ∈ w.nodes, (∃ p ∈ m.2.ports, p.2 ≠ 0 ∧ p.1 = n) → m.2.closed = true
    let due := N.pending ≠ [] ∧ (N.thresh ≤ N.pending.length ∨ shut)
    let late := N.timeout ≠ 0 ∧ ∃ r rs, N.pending = r :: rs ∧ r.since + N.timeout ≤ s.cycles
    (due → forms (.wgNodeTeamForm g n)) ∧ (¬due → exec (.wgNodeTeamForm g n) s = .next s) ∧
    (late → forms (.wgRecordTimeout g n)) ∧ (¬late → exec (.wgRecordTimeout g n) s = .next s))

/-! ## Faults and records (23_translation_and_residency.md, 26_partitions_and_fleet.md) -/

/-- A lane parks (R10, R24, R335): it keeps its program counter and everything else but its latches, and waits on a fault
token of its page and class, or for one to become free. A waiting engine operation raises its fault as its unit's (R383), with its
room. A fault whose key is that of an outstanding token joins it (R335); another takes the lowest free one (which: log 13) and
leaves a record of R334's fields for its partition's ring; with none free there is no record.

FAULT_RECORD_WRITE and ERROR_RECORD_WRITE (R333, R377, R370): with room in an enabled ring the oldest waiting record is written at
BASE + 32 × (PRODUCE mod 2^LOG), PRODUCE moves on and vector 0 or 17 is raised once more; with none, a fault record waits, and an error
ring drops its first waiting record of class 0 (DESIGN CHOICE, log 52) and counts it in CEDROP, which stays at its largest. RESUME_RETRY and RESUME_ABORT
(R336): a token that is not outstanding in the partition changes nothing; else the token is free, a retried lane runs its
word again, an aborted one's grid is aborted (that a waiting engine operation stops with it: log 54; parking without a token:
log 13). -/
def Obligations.FaultsParkAndResume : Prop :=
  ((∀ (s : State) (c : Ctx) (l va : Nat) (k : AccKind) (f : XFail) (T : Team) (G : Group) (L : Lane),
     Tab.get? s.teams c.t = some T → Tab.get? T.groups c.g = some G → Tab.get? G.lanes l = some L →
     Tab.wf s.tokens = true →
     let raised := raiseFault s c.space va k f c.team.pcore 0
     ∃ T' G' L', Tab.get? (s.parkLane c l va k f).teams c.t = some T' ∧ Tab.get? T'.groups c.g = some G' ∧
       Tab.get? G'.lanes l = some L' ∧ s.parkLane c l va k f = { raised.1 with teams := (s.parkLane c l va k f).teams } ∧
       L' = { L with q := Latches.invalid, halt := false, stalled := false, hold := match raised.2 with
         | some tok => .parked tok
         | none => .parkedFree va k.code f.cause f.level f.lod }) ∧
   (∀ (s : State) (n : Nat) (o : EngineOp) (sp : Space) (va : Nat) (k : AccKind) (f : XFail), Tab.get? s.ops n = some o →
     let raised := raiseFault s sp va k f (0x100 + o.pcore / 128 + if o.room.isSome = true then 2 else 0) (o.room.getD 0)
     s.waitOp n o sp va k f = { raised.1 with ops := (s.waitOp n o sp va k f).ops } ∧
     EntryOnly s.ops (s.waitOp n o sp va k f).ops n { o with token := raised.2 }) ∧
   (∀ (s : State) (sp : Space) (va : Nat) (k : AccKind) (f : XFail) (source room : Nat) (P : Part), Tab.wf s.tokens = true →
     Tab.get? s.parts sp.part = some P →
     let key : Token := ⟨sp.part, sp.asid, va / 4096, decide (k = .store ∨ k = .atomic ∨ k = .engineWrite)⟩
     let raised := raiseFault s sp va k f source room
     ((∃ tok, Tab.get? s.tokens tok = some key) → ∃ tok, Tab.get? s.tokens tok = some key ∧ raised = (s, some tok)) ∧
     ((∀ tok, Tab.get? s.tokens tok ≠ some key) →
       ((∀ i < 1024, Tab.get? s.tokens i ≠ none) → raised = (s, none)) ∧
       ∀ i < 1024, Tab.get? s.tokens i = none → (∀ m < i, Tab.get? s.tokens m ≠ none) → ∃ u x, raised = (u, some i) ∧
         u = { s with tokens := u.tokens, parts := u.parts } ∧ EntryOnly s.tokens u.tokens i key ∧
         OnlyPart s { s with parts := u.parts } sp.part { P with fault := { P.fault with waiting := P.fault.waiting ++ [x] } } ∧
         (va < 2 ^ 64 → source < 2 ^ 12 → room < 2 ^ 4 → f.cause < 2 ^ 4 → f.level < 2 ^ 3 →
           let field (lo n : Nat) : Nat := x.toNat / 2 ^ lo % 2 ^ n
           field 192 64 = s.time % 2 ^ 64 ∧ field 128 64 = va ∧ field 112 16 = i ∧ field 96 16 = sp.asid.toNat ∧ field 84 12 = source ∧
           field 80 4 = (match k with
             | .load => 0
             | .store => 1
             | .atomic => 2
             | .fetch => 3
             | .engineRead => 4
             | .engineWrite => 5) ∧
           field 76 4 = f.cause ∧ field 75 1 = (if f.lod = true then 1 else 0) ∧ field 72 3 = f.level ∧ field 68 4 = room ∧
           field 0 68 = 0)))) ∧
  ((∀ (s : State) (p : Nat) (P : Part), Tab.get? s.parts p = some P →
     let room (r : Ring) : Prop := r.en = true ∧ (r.produce - r.consume).toNat < 2 ^ r.log.toNat
     let written (i : Instr) (r : Ring) (x : BitVec 256) (P' : Part) : Prop := ∃ u, exec i s = .next u ∧
       OnlyPart (s.performBytes 0 ((toBytes 32 x.toNat).zipIdx.map (fun e =>
         (.phys (r.base.toNat + 32 * (r.produce.toNat % 2 ^ r.log.toNat) + e.2), e.1)))) u p P'
     let next (r : Ring) (rest : List (BitVec 256)) : Ring := { r with produce := r.produce + 1, waiting := rest }
     let sent (v : Nat) : Store 32 := Store.set P.msix v (Store.get P.msix v + 1)
     (P.fault.waiting = [] ∨ ¬room P.fault → exec (.faultRecordWrite p) s = .next s) ∧
     (∀ x rest, P.fault.waiting = x :: rest → room P.fault →
       written (.faultRecordWrite p) P.fault x { P with fault := next P.fault rest, msix := sent 0 }) ∧
     (∀ x rest, P.error.waiting = x :: rest → room P.error →
       written (.errorRecordWrite p) P.error x { P with error := next P.error rest, msix := sent 17 }) ∧
     (P.error.waiting = [] ∨ ¬room P.error ∧ (∀ x ∈ P.error.waiting, x.extractLsb' 0 2 ≠ 0#2) → exec (.errorRecordWrite p) s = .next s) ∧
     (∀ before x after, ¬room P.error → P.error.waiting = before ++ x :: after → (∀ y ∈ before, y.extractLsb' 0 2 ≠ 0#2) →
       x.extractLsb' 0 2 = 0#2 → ∃ u, exec (.errorRecordWrite p) s = .next u ∧
         OnlyPart s u p { P with
           error := { P.error with waiting := before ++ after },
           cedrop := if P.cedrop = 0xFFFFFFFF then P.cedrop else P.cedrop + 1 })) ∧
   (∀ (s : State) (p : Nat) (tok : BitVec 16), (∀ k, Tab.get? s.tokens tok.toNat = some k → k.part ≠ p) →
     exec (.resumeRetry p tok) s = .next s ∧ exec (.resumeAbort p tok) s = .next s) ∧
   (∀ (s : State) (p : Nat) (tok : BitVec 16) (k : Token), Tab.get? s.tokens tok.toNat = some k → k.part = p →
     Tab.wf s.tokens = true → s.Whole →
     (∀ T ∈ s.teams, ∀ G ∈ T.2.groups, ∀ L ∈ G.2.lanes, ∀ va kind cause level lod, L.2.hold ≠ .parkedFree va kind cause level lod) →
     let parked (L : Lane) : Prop := L.hold = .parked tok.toNat
     let settled (u : State) : Prop := Tab.get? u.tokens tok.toNat = none ∧ u.mem = s.mem ∧ ∀ t g T G, Tab.get? s.teams t = some T →
       Tab.get? T.groups g = some G → ∃ T' H, Tab.get? u.teams t = some T' ∧ Tab.get? T'.groups g = some H ∧
         ∀ l < 32, (parked (G.lane l) → H.lane l = { G.lane l with hold := .run }) ∧ (¬parked (G.lane l) → H.lane l = G.lane l)
     (∃ u, exec (.resumeRetry p tok) s = .next u ∧ settled u) ∧
     (∃ u, exec (.resumeAbort p tok) s = .next u ∧ settled u ∧
       (∀ t T, Tab.get? s.teams t = some T → (∃ g G l, Tab.get? T.groups g = some G ∧ l < 32 ∧ (G.lane l).live = true ∧
         parked (G.lane l)) → (Tab.get? s.grids T.grid).isSome = true → (Tab.get? u.grids T.grid).map (·.aborted) = some true) ∧
       (∀ o O, Tab.get? s.ops o = some O → O.token = some tok.toNat →
         ∃ O', Tab.get? u.ops o = some O' ∧ O' = { O with aborted := true, token := none }))))

/-- The invalidation register (R331, R332): GO starts an invalidation of the scope written, or is ignored while one is in
progress; it waits for the answers of requests to other devices; when it is done, no translation cache of the device, leaves or paging
structures, holds an entry of its scope, every other entry is where it was, and every store that had issued is performed
(every store of the device: the model's log 63). GUESTBOOK_OVF_CLEAR and the filter (R340, R341).

Migration slots (R343, R345): a start is ignored while a copy is in progress, refused with STATE 3 outside R343's conditions, and
else STATE is 1 with the copy as it was asked for. A copy done gives every destination byte the source's, its poison and its
named encoding, and changes no byte outside the destination, where every source frame is read under its own encoding (which is
the frame's first use: log 18). -/
def Obligations.InvalidationsAndMigrations : Prop :=
  ((∀ (s : State) (p : Nat) (P : Part), Tab.get? s.parts p = some P →
     let only (i : Instr) (P' : Part) : Prop := ∃ u, exec i s = .next u ∧ OnlyPart s u p P'
     (∀ i scope, (i = .invalidateRange p ∧ scope = 0 ∨ i = .invalidateAsid p ∧ scope = 1 ∨ i = .invalidatePartition p ∧ scope = 2) →
       (P.inval.done = true → only i { P with inval := { P.inval with
         scope := scope, done := false, job := some (scope, P.inval.asid, P.inval.npages, P.inval.va) } }) ∧
       (P.inval.done = false → only i { P with inval := { P.inval with scope := scope } })) ∧
     (P.inval.job = none → exec (.invalidationDone p) s = .next s) ∧
     ((∃ f ∈ s.flowsOut, f.unanswered ≠ []) → exec (.invalidationDone p) s = .next s) ∧
     (∀ scope asid npages va, P.inval.job = some (scope, asid, npages, va) → (∀ f ∈ s.flowsOut, f.unanswered = []) →
       let first := va.toNat / 4096 * 4096
       let bytes := 4096 * max 1 npages.toNat
       let named (x : TlbEntry) : Prop := x.part = p ∧ (scope.toNat = 0 → (x.global = true ∨ x.asid = asid) ∧
           x.vpn * leafSize x.level < first + bytes ∧ first < x.vpn * leafSize x.level + leafSize x.level) ∧
         (scope.toNat = 1 → x.global = false ∧ x.asid = asid)
       ∃ u, exec (.invalidationDone p) s = .next u ∧
         (∀ c k, Tab.get? s.cores c = some k → ∃ K, Tab.get? u.cores c = some K ∧ K = { k with tlb := K.tlb, walks := K.walks } ∧
           ∀ x, (x ∈ K.tlb ↔ x ∈ k.tlb ∧ ¬named x) ∧ (x ∈ K.walks ↔ x ∈ k.walks ∧ ¬named x)) ∧
         (∀ c k, Tab.get? s.dies c = some k → ∃ K, Tab.get? u.dies c = some K ∧ K = { k with tlb := K.tlb, walks := K.walks } ∧
           ∀ x, (x ∈ K.tlb ↔ x ∈ k.tlb ∧ ¬named x) ∧ (x ∈ K.walks ↔ x ∈ k.walks ∧ ¬named x)) ∧
         (∀ t g T G, Tab.get? u.teams t = some T → T.buffer = [] ∧ (Tab.get? T.groups g = some G → G.fifo = [] ∧ G.early = [] ∧ G.ahead = [])) ∧
         EntryOnly s.parts u.parts p { P with inval := { P.inval with done := true, job := none } } ∧ u.mem = s.drainAll.mem) ∧
     (∀ r R, Tab.get? P.rings r = some R → ∃ rings, only (.guestbookOvfClear p r) { P with rings := rings } ∧
       EntryOnly P.rings rings r { R with ovf := false }) ∧
     only (.filterClear p) { P with fclr := true } ∧
     (P.fclr = false → exec (.filterClearDone p) s = .next s) ∧
     (P.fclr = true → ∃ u, exec (.filterClearDone p) s = .next u ∧ u = { s with parts := u.parts, cores := u.cores } ∧
       EntryOnly s.parts u.parts p { P with fclr := false } ∧
       ∀ c, Tab.get? u.cores c = (Tab.get? s.cores c).map fun k => if c ∈ P.cfg.cores then { k with filter := [] } else k))) ∧
  (∀ (s : State) (p j : Nat) (P : Part) (m : MigSlot), Tab.get? s.parts p = some P → Tab.get? P.mig j = some m →
     let only (s : State) (P : Part) (u : State) (m' : MigSlot) : Prop := ∃ P', OnlyPart s u p P' ∧ P' = { P with mig := P'.mig } ∧
       EntryOnly P.mig P'.mig j m'
     let n := if m.size = 0 then 2 ^ 12 else if m.size = 1 then 2 ^ 21 else 2 ^ 30
     let good := m.size ≠ 3 ∧ m.src.toNat % n = 0 ∧ m.dst.toNat % n = 0 ∧ m.src ≠ m.dst ∧ s.ownRange p m.src.toNat n = true ∧
       s.ownRange p m.dst.toNat n = true
     (m.state = 1 → exec (.migrationStart p j) s = .next s) ∧
     (m.state ≠ 1 → ¬good → ∃ u, exec (.migrationStart p j) s = .next u ∧ only s P u { m with state := 3 }) ∧
     (m.state ≠ 1 → good → ∃ u, exec (.migrationStart p j) s = .next u ∧
       only s P u { m with state := 1, job := some (m.src.toNat, m.dst.toNat, m.size.toNat, m.zsrc, m.zdst) }) ∧
     (m.job = none → exec (.migrationDone p j) s = .next s) ∧
     (∀ a b size za zb, m.job = some (a, b, size, za, zb) → s.Canonical →
       let len := if size = 0 then 2 ^ 12 else if size = 1 then 2 ^ 21 else 2 ^ 30
       let code (z : Bool) : BitVec 2 := if z then 2 else 1
       a % len = 0 → b % len = 0 → a ≠ b →
       (∀ i < len / 4096, Store.get s.enc (a / 4096 + i) = 0 ∨ Store.get s.enc (a / 4096 + i) = code za) →
       ∃ u, exec (.migrationDone p j) s = .next u ∧ only { s with mem := u.mem, poison := u.poison, enc := u.enc } P u
           { m with state := 2, job := none } ∧
         (∀ i < len, u.byte (b + i) = s.byte (a + i) ∧ u.poisoned (b + i) = s.poisoned (a + i)) ∧
         (∀ i < len / 4096, Store.get u.enc (b / 4096 + i) = code zb) ∧
         (∀ x, ¬(b ≤ x ∧ x < b + len) → u.byte x = s.byte x ∧ u.poisoned x = s.poisoned x)))

/-! ## Context save and restore (24_traps_and_preemption.md R356 to R363) -/

/-- CONTEXT_SAVE, GROUP_PREEMPT_STOP and CONTEXT_SAVE_DONE (R22, R110, R357, R358), QUEUE_ABORT (R363). A save asks every team of the
queue's grids to stop; a group stops between runs, one of an aborted grid ends there. With all stopped and their engine work done, no
grid part-way through an abort, a retirement or its triangles, and what its rings wait for placed (log 47), the area of NEED bytes is written where CBASE stood at the command and teams and grids are gone, or with CSIZE below NEED nothing is
written, RSTAT is 2 and the teams go on. A busy register or an area that cannot be used changes nothing (log 48). An abort
leaves no saved team to be made again.

The layout of the area (R358 to R360): the header, a record of 256 bytes for each grid, then the teams' blocks by grid and %team;
what stands at each offset of a team block, a group block and a lane record. -/
def Obligations.SavesWriteTheArea : Prop :=
  ((∀ (s : State) (p q : Nat) (P : Part) (Q : Queue), Tab.get? s.parts p = some P → Tab.get? P.queues q = some Q →
     Tab.wf s.teams = true → Tab.wf s.grids = true →
     let gs := s.savedGrids p q
     let usable := Q.cbase.toNat % 4096 = 0 ∧ s.ownRange p Q.cbase.toNat (max Q.csize.toNat 1) = true
     let queue (s u : State) (Q' : Queue) : Prop := OnlyQueue s { s with parts := u.parts } p q Q'
     (∀ n, n ∈ gs ↔ ∃ g, Tab.get? s.grids n = some g ∧ g.part = p ∧ g.queue = q ∧ g.shadesFor = none) ∧
     (Q.rstat = 1 ∨ ¬usable → exec (.contextSave p q) s = .next s) ∧
     (Q.rstat ≠ 1 → usable → ∃ u, exec (.contextSave p q) s = .next u ∧ u = { s with teams := u.teams, parts := u.parts } ∧
       queue s u { Q with rstat := 1, cmd := 1, areaBase := Q.cbase.toNat, areaSize := Q.csize.toNat } ∧ ∀ t T, Tab.get? s.teams t = some T →
         Tab.get? u.teams t = some (if T.grid ∈ gs then { T with groups := T.groups.map (fun (G : Nat × Group) =>
           (G.1, { G.2 with stopping := true, saved := false })) } else T)) ∧
     (Q.cmd ≠ 1 ∨ s.saveReady p q gs = false → exec (.contextSaveDone p q) s = .next s) ∧
     (Q.cmd = 1 → s.saveReady p q gs = true →
       let v := (s.finishTeams ((s.teamsOfGrids gs).map (·.1))).placeAll p
       let need := v.areaNeed gs
       let area := v.contextArea P.cfg.cores.length gs
       (Q.areaSize < need → ∃ u, exec (.contextSaveDone p q) s = .next u ∧ u.mem = v.mem ∧ u.grids = s.grids ∧
         queue v u { Q with need := BitVec.ofNat 64 need, rstat := 2, cmd := 0 } ∧ ∀ t T, Tab.get? s.teams t = some T → T.grid ∈ gs →
           ∃ T', Tab.get? u.teams t = some T' ∧ ∀ G ∈ T'.groups, G.2.stopping = false) ∧
       (need ≤ Q.areaSize → Memory.wf v.mem = true → (∀ i < area.length, remotePa (Q.areaBase + i) = false) →
         ∃ u, exec (.contextSaveDone p q) s = .next u ∧
           (∀ i (h : i < area.length), u.byte (Q.areaBase + i) = area[i]) ∧
           (∀ a, ¬(Q.areaBase ≤ a ∧ a < Q.areaBase + area.length) → u.byte a = v.byte a) ∧
           (∀ n, Tab.get? u.grids n = if n ∈ gs then none else Tab.get? s.grids n) ∧
           (∀ t T, Tab.get? s.teams t = some T → T.grid ∈ gs → Tab.get? u.teams t = none) ∧
           ∃ P', Tab.get? u.parts p = some P' ∧ EntryOnly P.queues P'.queues q { Q with
             need := BitVec.ofNat 64 need, nteam := BitVec.ofNat 32 (s.teamsOfGrids gs).length,
             ngrid := BitVec.ofNat 32 gs.length, rstat := 0, cmd := 0 })) ∧
     (Q.rstat = 1 → exec (.queueAbort p q) s = .next s) ∧
     (Q.rstat ≠ 1 → let rest := Q.restore.filter (fun r => !(s.gridsOf p q).any (fun x => x.1 == r.2))
       ∃ u, exec (.queueAbort p q) s = .next u ∧ u.mem = s.mem ∧
       queue s u (if s.gridsOf p q = [] then { Q with rstat := 0, cmd := 0 } else { Q with
         rstat := 1, cmd := 3, restore := rest, area := if rest = [] then [] else Q.area }) ∧
       ∀ n g, Tab.get? s.grids n = some g → Tab.get? u.grids n =
         some (if g.part = p ∧ g.queue = q then { g with
           aborted := true, wait := .none, liveTeams := g.liveTeams - (Q.restore.filter (fun r => r.2 == n)).length } else g))) ∧
   (∀ (s : State) (p q : Nat) (gs : List Nat), s.saveReady p q gs = true ↔
     (∀ e ∈ s.teams, e.2.grid ∈ gs → (∀ G ∈ e.2.groups, G.2.saved = true ∨ G.2.ended = true) ∧ ∀ o ∈ s.ops, o.2.team ≠ e.1) ∧
     ∀ g ∈ s.grids, g.2.part = p → g.2.queue = q → g.2.shadesFor = none ∧ g.2.aborted = false ∧ g.2.recordDone = false ∧
       ∀ k ∈ s.cores, ∀ x ∈ k.2.raster, x.grid ≠ g.1) ∧
   (∀ (s : State) (t g : Nat) (T : Team) (G : Group) (gr : Grid), Tab.get? s.teams t = some T → Tab.get? T.groups g = some G →
     Tab.get? s.grids T.grid = some gr → G.Whole →
     let stops := G.stopping = true ∧ G.runMask = 0 ∧ G.ended = false
     let i : Instr := .groupPreemptStop t g
     (¬stops → exec i s = .next s) ∧
     (stops → gr.aborted = false → ∃ u T', exec i s = .next u ∧ OnlyTeam s u t T' ∧ T' = { T with groups := T'.groups } ∧
       EntryOnly T.groups T'.groups g { G with saved := true }) ∧
     (stops → gr.aborted = true → ∃ u T' H, exec i s = .next u ∧ Tab.get? u.teams t = some T' ∧ Tab.get? T'.groups g = some H ∧
       u.mem = (s.drainGroup t g).mem ∧ H.ended = true ∧ H.fifo = [] ∧ ∀ l < 32, (H.lane l).live = false)) ∧
   (∀ (s : State) (ncore : Nat) (gs : List Nat), gs.Nodup → (∀ n ∈ gs, (Tab.get? s.grids n).isSome = true) →
     (∀ T ∈ s.teams, T.2.grid ∈ gs → T.2.groups.length = T.2.ngroup) →
     (s.contextArea ncore gs).length = s.areaNeed gs)) ∧
  (let val (A : List Byte) (off n : Nat) : Nat := leValue ((A.drop off).take n)
   (∀ (s : State) (ncore : Nat) (gs : List Nat), gs.Nodup → gs.length < 2 ^ 32 → ncore < 2 ^ 32 →
     (s.teamsOfGrids gs).length < 2 ^ 32 → (∀ n ∈ gs, (Tab.get? s.grids n).isSome = true) →
     let A := s.contextArea ncore gs
     val A 0 2 = 0xC7A5 ∧ val A 2 2 = 1 ∧ val A 4 4 = gs.length ∧ val A 8 4 = (s.teamsOfGrids gs).length ∧ val A 12 4 = ncore ∧
     val A 16 2 = 0 ∧ val A 20 236 = 0 ∧ (∀ n G, gs.head? = some n → Tab.get? s.grids n = some G → val A 18 2 = G.tenant.toNat) ∧
     (∀ i n G, gs[i]? = some n → Tab.get? s.grids n = some G → let o := 256 + 256 * i
       val A o 128 = G.packet.toNat ∧ val A (o + 0x80) 4 = G.depth % 2 ^ 32 ∧
       val A (o + 0x84) 4 = (match G.parent with
         | some m => gs.idxOf m % 2 ^ 32
         | none => 0xFFFFFFFF) ∧
       val A (o + 0x88) 4 = G.next % 2 ^ 32 ∧ val A (o + 0x8C) 4 = G.liveTeams % 2 ^ 32 ∧ val A (o + 0x90) 4 = G.liveKids % 2 ^ 32 ∧
       val A (o + 0x94) 108 = 0) ∧
     ∃ ts : List (Nat × Team), ts.Perm (s.teamsOfGrids gs) ∧
       ts.Pairwise (fun a b => gs.idxOf a.2.grid < gs.idxOf b.2.grid ∨ a.2.grid = b.2.grid ∧ a.2.index ≤ b.2.index) ∧
       A.drop (256 + 256 * gs.length) = ts.flatMap (fun t => teamBlock (gs.idxOf t.2.grid) (s.teamShapes t.1 t.2) t.2)) ∧
   (∀ (i : Nat) (shapes : Tab (BitVec 768)) (T : Team), T.groups.map (·.1) = List.range T.ngroup → Tab.wf shapes = true →
     (∀ h, 64 ≤ h → Tab.get? shapes h = none) →
     let B := teamBlock i shapes T
     let each := 1024 + 128 * T.regs + 8192 * T.ztiles
     let size := 0x1A00 + T.ngroup * each + T.limit
     B.length = size ∧
     (∀ e ∈ [i, T.index, T.core, T.cluster, T.ngroup, T.regs, T.ztiles, T.limit].zipIdx, val B (4 * e.2) 4 = e.1 % 2 ^ 32) ∧
     val B 0x20 8 = T.handler.toNat ∧ (∀ h < 64, (val B 0x28 8).testBit h = (Tab.get? shapes h).isSome) ∧ val B 0x30 16 = 0 ∧
     (∀ b < 17, let v := val B (0x40 + 8 * b) 8
       v % 2 ^ 32 = (T.barrier b).arrived.toNat ∧ v / 2 ^ 32 % 2 ^ 6 = (T.barrier b).count.toNat ∧ v / 2 ^ 38 % 2 ^ 2 = 0 ∧
       v / 2 ^ 40 = (T.barrier b).gen.toNat) ∧ val B 0xC8 56 = 0 ∧
     (∀ c < 8, val B (0x100 + 32 * c) 32 = convValue (T.convReg c)) ∧
     (∀ h < 64, val B (0x200 + 96 * h) 96 = ((Tab.get? shapes h).map (·.toNat)).getD 0) ∧
     (∀ g G, Tab.get? T.groups g = some G → (B.drop (0x1A00 + each * g)).take each = groupBlock T G) ∧
     (∀ o < T.limit, B[size - T.limit + o]? = some (Store.get T.scratch o))) ∧
   (∀ (T : Team) (G : Group),
     let B := groupBlock T G
     B.length = 1024 + 128 * T.regs + 8192 * T.ztiles ∧
     (∀ r < 60, val B (4 * r) 4 = (G.sreg r).toNat) ∧ (∀ j < 12, val B (0xF0 + 4 * j) 4 = (Store.get G.k j).toNat) ∧
     (∀ j < 8, val B (0x120 + 4 * j) 4 = (Store.get G.f j).toNat) ∧ val B 0x140 4 = G.trapLevel.toNat ∧
     val B 0x144 4 = G.trapCause.toNat ∧ val B 0x148 4 = G.trapInfo.toNat ∧ val B 0x14C 4 = 0 ∧ val B 0x150 8 = G.trapPc.toNat ∧
     val B 0x158 40 = 0 ∧ val B 0x380 128 = 0 ∧
     (∀ l < 32, (∀ r < T.regs, val B (0x400 + 128 * r + 4 * l) 4 = ((G.lane l).vreg r).toNat) ∧
       let v := val B (0x180 + 16 * l) 16
       let L := G.lane l
       let hold := v / 2 ^ 33 % 2 ^ 3
       G.fragLane l < 32 → v % 2 ^ 12 = L.meet.toNat ∧ v / 2 ^ 12 % 2 ^ 5 = G.fragLane l ∧ v / 2 ^ 17 % 2 ^ 15 = 0 ∧
         (v / 2 ^ 32 % 2 = 1 ↔ L.live = true) ∧ v / 2 ^ 36 % 2 ^ 6 = L.status.toNat ∧ v / 2 ^ 42 % 2 ^ 6 = L.rpt.toNat ∧
         v / 2 ^ 48 % 2 ^ 16 = 0 ∧ v / 2 ^ 64 = L.pc.toNat ∧
         (hold = 0 ↔ L.hold = .run) ∧ (hold = 1 ↔ (∃ k, L.hold = .wait k) ∨ ∃ b n, L.hold = .barrier b n) ∧
         (hold = 3 ↔ ∃ c n, L.hold = .matrix c n) ∧ hold < 4) ∧
     (∀ i < 1024 * T.ztiles, val B (0x400 + 128 * T.regs + 8 * i) 8 = (Store.get G.z i).toNat)))

/-- CONTEXT_RESTORE and CONTEXT_RESTORE_DONE (R361): refused with RSTAT 6, 4, 3 or 5 where R361 says so, changing nothing else; else every
grid of the area is there again and the saved teams wait for admission, the restore done once none waits. RSTAT 4 refuses an area
that is not right (logs 27 and 48); of one that a save wrote, what is read are its grids and its teams' blocks. A saved team is
admitted before its queue's packets, from the area as the restore found it (log 48), with its shape handles; what the device
has left of it besides gives the lanes' fragments, places and handlers their entries back (R362, log 27). What a group
block holds is what the group made from it has: s registers, k, f, tiles, and of each lane its registers, program counter,
status, reported set, meeting register and liveness (R359, R360); inside a handler its frames in the scratchpad give back the
lanes that entered, their masks, return points and fragments (R351; f at entry: log 27). -/
def Obligations.RestoresBringBack : Prop :=
  (∀ (s : State) (p q : Nat) (P : Part) (Q : Queue), Tab.get? s.parts p = some P → Tab.get? P.queues q = some Q →
    let usable := Q.cbase.toNat % 4096 = 0 ∧ s.ownRange p Q.cbase.toNat 256 = true
    let i : Instr := .contextRestore p q
    let refused (code : BitVec 4) : Prop := ∃ u, exec i s = .next u ∧ OnlyQueue s u p q { Q with rstat := code }
    (Q.rstat = 1 ∨ ¬usable → exec i s = .next s) ∧
    (Q.rstat ≠ 1 → usable →
      (Q.en = true ∨ s.gridsOf p q ≠ [] → refused 6) ∧
      (Q.en = false → s.gridsOf p q = [] →
        (s.readArea p Q.cbase.toNat = none → refused 4) ∧
        (∀ recs heads, s.readArea p Q.cbase.toNat = some (recs, heads) →
          let ncore := bitsOf (s.physValue Q.cbase.toNat 256) 96 32
          let kids := (recs.filter (fun r => r.parent != 0xFFFFFFFF)).length
          let need := heads.foldl (fun n h => n + h.size) (256 + 256 * recs.length)
          (P.cfg.cores.length < ncore → refused 3) ∧
          (ncore ≤ P.cfg.cores.length → 4096 < P.kids + kids → refused 5) ∧
          (ncore ≤ P.cfg.cores.length → P.kids + kids ≤ 4096 → ∃ u P', exec i s = .next u ∧
            u = { s with grids := u.grids, parts := u.parts, fresh := s.fresh + recs.length } ∧
            EntryOnly s.parts u.parts p P' ∧ P' = { P with kids := P.kids + kids, queues := P'.queues } ∧
            EntryOnly P.queues P'.queues q { Q with
              rstat := 1, cmd := 2, areaBase := Q.cbase.toNat, areaSize := Q.csize.toNat, restore := heads.map (fun h => (h.at_, s.fresh + h.grid)),
              area := if heads = [] then [] else s.bytes Q.cbase.toNat need, need := BitVec.ofNat 64 need,
              nteam := BitVec.ofNat 32 heads.length, ngrid := BitVec.ofNat 32 recs.length } ∧
            ∀ j (h : j < recs.length), ∃ g, Tab.get? u.grids (s.fresh + j) = some g ∧ g.packet = recs[j].packet ∧
              g.depth = recs[j].depth ∧ g.next = recs[j].next ∧ g.liveTeams = recs[j].live ∧ g.liveKids = recs[j].kids ∧
              g.parent = (if recs[j].parent = 0xFFFFFFFF then none else some (s.fresh + recs[j].parent)) ∧
              g.part = p ∧ g.queue = q ∧ g.asid = Q.rootAsid ∧ g.root = Q.rootPpn)))) ∧
    (∃ u, exec (.contextRestoreDone p q) s = .next u ∧
      OnlyQueue s u p q (if Q.cmd = 2 ∧ Q.restore = [] then { Q with rstat := 0, cmd := 0 } else Q))) ∧
  (∀ (s : State) (p base : Nat),
    (∀ recs heads, s.readArea p base = some (recs, heads) ↔ GoodArea s p base recs heads) ∧
    (s.readArea p base = none ↔ ∀ recs heads, ¬GoodArea s p base recs heads)) ∧
  (∀ (s v : State) (p base ncore : Nat) (gs : List Nat) (recs : List GridRec) (heads : List BlockHead), gs.Nodup →
    gs.length < 2 ^ 32 → (s.teamsOfGrids gs).length < 2 ^ 32 → (∀ n ∈ gs, (Tab.get? s.grids n).isSome = true) →
    (∀ T ∈ s.teams, T.2.grid ∈ gs → T.2.groups.length = T.2.ngroup ∧ T.2.index < 2 ^ 32 ∧ T.2.core < 2 ^ 32 ∧ T.2.cluster < 2 ^ 32 ∧
      T.2.ngroup < 2 ^ 32 ∧ T.2.regs < 2 ^ 32 ∧ T.2.ztiles < 2 ^ 32 ∧ T.2.limit < 2 ^ 32) →
    let A := s.contextArea ncore gs
    v.bytes base A.length = A → v.readArea p base = some (recs, heads) →
    recs.length = gs.length ∧
    (∀ (i n : Nat) (g : Grid) (r : GridRec), gs[i]? = some n → Tab.get? s.grids n = some g → recs[i]? = some r → r.packet = g.packet ∧
      (g.depth < 2 ^ 32 → r.depth = g.depth) ∧ (g.next < 2 ^ 32 → r.next = g.next) ∧ (g.liveTeams < 2 ^ 32 → r.live = g.liveTeams) ∧
      (g.liveKids < 2 ^ 32 → r.kids = g.liveKids) ∧ (g.parent = none → r.parent = 0xFFFFFFFF) ∧
      (∀ m, g.parent = some m → m ∈ gs → gs[r.parent]? = some m)) ∧
    ∃ ts : List (Nat × Team), ts.Perm (s.teamsOfGrids gs) ∧ heads.length = ts.length ∧
      ∀ (i t : Nat) (T : Team) (h : BlockHead), ts[i]? = some (t, T) → heads[i]? = some h → gs[h.grid]? = some T.grid ∧ h.index = T.index ∧ h.core = T.core ∧
        h.cluster = T.cluster ∧ h.groups = T.ngroup ∧ h.regs = T.regs ∧ h.tiles = T.ztiles ∧ h.limit = T.limit ∧
        v.bytes h.at_ h.size = teamBlock h.grid (s.teamShapes t T) T) ∧
  (∀ (s : State) (p q off n : Nat) (P : Part) (Q : Queue) (g : Grid) (rest : List (Nat × Nat)), Tab.get? s.parts p = some P →
    Tab.get? P.queues q = some Q → Q.restore = (off, n) :: rest → Tab.get? s.grids n = some g → g.wantsGraph = false →
    let v := s.writePhys Q.areaBase Q.area
    let h := v.blockHead off
    let named (m : Nat) : Prop := m < 64 ∧ h.shapes.testBit m = true
    let need : Need := ⟨h.groups, h.regs, h.tiles, h.limit, g.tenant, (List.range 64).filter h.shapes.testBit⟩
    (s.placeTeam P need = none → s.admitSaved p q = none) ∧
    (∀ i seats block k, s.placeTeam P need = some (i, seats, block) → Tab.get? s.cores (P.cfg.cores.getD i 0) = some k →
      let pcore := P.cfg.cores.getD i 0
      let R := v.restoredTeam g n h pcore seats block
      ∃ u T K, s.admitSaved p q = some u ∧ u = { s with teams := u.teams, cores := u.cores, parts := u.parts, fresh := s.fresh + 1 } ∧
        EntryOnly s.teams u.teams s.fresh T ∧ T = { R with groups := T.groups, wg := T.wg } ∧
        (v.shelfAt Q.areaBase = none → T = R) ∧
        (∀ e H, Tab.get? R.groups e = some H → ∃ H', Tab.get? T.groups e = some H' ∧
          H' = { H with lanes := H'.lanes, handlers := H'.handlers, handler := H'.handler, heldHandler := H'.heldHandler,
                        nextBase := H'.nextBase } ∧
          ∀ l, H'.lane l = { H.lane l with frag := (H'.lane l).frag, arrive := (H'.lane l).arrive, inRun := (H'.lane l).inRun,
                                           level := (H'.lane l).level, hold := (H'.lane l).hold }) ∧
        EntryOnly s.cores u.cores pcore K ∧ K = { k with tag := some g.tenant, shapes := K.shapes } ∧
        (∀ m, ¬named m → Tab.get? K.shapes m = Tab.get? k.shapes m) ∧
        (∀ m, named m → Tab.get? K.shapes m = some ⟨s.fresh, BitVec.ofNat 768 (v.physValue (off + 0x200 + 96 * m) 96), false⟩) ∧
        ∃ P', EntryOnly s.parts u.parts p P' ∧ P' = { P with placed := P.placed + 1, lastQueue := q, queues := P'.queues } ∧
          EntryOnly P.queues P'.queues q { Q with restore := rest, area := if rest = [] then [] else Q.area }) ∧
    (∀ before after u, s.partUp p = true → (∀ x ∈ s.grids, x.2.part = p → x.2.wantsGraph = false) →
      serveOrder P (s.goesAhead p) = before ++ q :: after → (∀ r ∈ before, s.admitNext p r = none) → s.admitSaved p q = some u →
      exec (.teamAdmit p) s = .next u)) ∧
  (∀ (s : State) (sp : Space) (pa : Nat) (scratch : Store 8) (handler : Word64) (seat : Seat) (T : Team) (G : Group),
    s.bytes pa (1024 + 128 * T.regs + 8192 * T.ztiles) = groupBlock T G → G.Whole →
    let H := s.restoredGroup sp pa T.regs T.ztiles scratch handler seat
    let inside := G.trapLevel.toNat
    let frame (i : Nat) : Nat := G.sPair 58 + 1024 * (inside - 1 - i)
    let held (i o n : Nat) : Nat := leValue (Store.getRange scratch (frame i - windowBase + o) n)
    H.Whole ∧ (∀ r < 60, H.sreg r = G.sreg r) ∧ (∀ j < 12, Store.get H.k j = Store.get G.k j) ∧
    (∀ j < 8, Store.get H.f j = Store.get G.f j) ∧ (∀ i < 1024 * T.ztiles, Store.get H.z i = Store.get G.z i) ∧
    H.trapLevel = G.trapLevel ∧ H.trapCause = G.trapCause ∧ H.trapInfo = G.trapInfo ∧ H.trapPc = G.trapPc ∧
    H.handlers.length = inside ∧
    (∀ i h, H.handlers[i]? = some h → h.frame = BitVec.ofNat 64 (frame i) ∧
      (∀ l < 32, h.enter.getLsbD l = (held i 0x1B0 4).testBit l) ∧
      (∀ j < 12, Store.get h.masks j = BitVec.ofNat 32 (held i (0x180 + 4 * j) 4)) ∧ (∀ j < 8, Store.get h.f j = Store.get G.f j) ∧
      (∀ l < 32, h.runs[l]? = some (BitVec.ofNat 64 (held i (8 * l) 8), none)) ∧
      ∀ l < 32, ∀ m < 32, held i (0x1C0 + l) 1 % 32 = held i (0x1C0 + m) 1 % 32 →
        h.keys[l]? = h.keys[m]? ∧ (h.enter.getLsbD m = false → (G.lane m).live = true →
          (∀ x < m, h.enter.getLsbD x = false → (G.lane x).live = true → held i (0x1C0 + x) 1 % 32 ≠ held i (0x1C0 + m) 1 % 32) →
          h.keys[l]? = some (H.lane m).frag)) ∧
    ∀ l < 32, (∀ r < T.regs, (H.lane l).vreg r = (G.lane l).vreg r) ∧ (H.lane l).pc = (G.lane l).pc ∧
      (H.lane l).status = (G.lane l).status ∧ (H.lane l).rpt = (G.lane l).rpt ∧ (H.lane l).meet = (G.lane l).meet ∧
      (H.lane l).live = (G.lane l).live ∧ (H.lane l).q = Latches.invalid ∧
      (H.lane l).level = ((List.range inside).filter (fun i => (held i 0x1B0 4).testBit l)).length ∧
      ((G.lane l).holdCode ≠ 1 → (H.lane l).hold = .run) ∧
      ∀ m < 32, (H.lane m).frag = (H.lane l).frag ↔ G.fragLane m = G.fragLane l)

/-! ## Boot, host ports and registers (25_boot_host_security.md, 26_partitions_and_fleet.md) -/

/-- POWER_ON_BOOT (R367): a module that is off boots with the accepted firmware, configuration and helper records, each valid
partition's queues, rings and registers at their reset values, its system cores running when its kind 5 record is accepted (NOOS
when not) and every core scrubbed; with no such records it is in recovery; else nothing changes. STANDBY_ENTRY and
LOCKSTEP_MISMATCH (R376, R381) lose everything but the flash and the time, and memory reads 0 again (log 2); the latter boots again.
PCIE_CONFIG_REQUEST is retried until the systems start; the function of a partition that does not exist is retried for as long
as the module runs (log 70). -/
def Obligations.BootsFromTheFlash : Prop :=
  (∀ (s : State), let flash := s.boot.flash
    (s.boot.phase ≠ .off → exec .powerOnBoot s = .next s) ∧
    (s.boot.phase = .off → (validKind flash 1 = [] ∨ validKind flash 2 = [] ∨ validKind flash 3 = []) →
      exec .powerOnBoot s = .next { s with boot := { s.boot with phase := .recovery } }) ∧
    (∀ fw cf hp, s.boot.phase = .off → best (validKind flash 1) = some fw → best (validKind flash 2) = some cf →
      best (validKind flash 3) = some hp → ∃ u, exec .powerOnBoot s = .next u ∧ u.boot.phase = .running ∧ u.boot.flash = flash ∧
        let body : Store 8 := Store.setRange [] 0 (cf.body flash)
        u.boot.body = body ∧ u.boot.devnum = BitVec.ofNat 22 (leValue (Store.getRange body 0 4)) ∧ u.mem = s.mem ∧
        (∀ c < 256, Tab.get? u.cores c = some Core.reset) ∧
        (∀ p < 8, bitsOf (leValue (Store.getRange body (0x280 + 128 * p + 0xC) 4)) 0 1 ≠ 1 → Tab.get? u.parts p = none) ∧
        ∀ p < 8, bitsOf (leValue (Store.getRange body (0x280 + 128 * p + 0xC) 4)) 0 1 = 1 → ∃ P, Tab.get? u.parts p = some P ∧
          P.running = !P.noos ∧ (P.noos = true ↔ validOs flash body p = []) ∧ P.halted = false ∧ P.kids = 0 ∧ P.placed = 0 ∧
          P.tw = 0 ∧ P.dw = 0 ∧ P.quoteBusy = false ∧ P.quoteAddr = 0 ∧ P.cedrop = 0 ∧ P.fclr = false ∧ P.inval.done = true ∧
          P.inspect.done = true ∧ P.fault.en = false ∧ P.fault.produce = 0 ∧ P.error.en = false ∧ P.error.produce = 0 ∧
          (∀ r < 16, Tab.get? P.rings r = some ⟨0, 0, false, false, 0, 0, 0, []⟩) ∧
          (∀ j < 8, (Tab.get? P.mig j).map (·.state) = some 0) ∧
          ∀ q < 64, ∃ Q, Tab.get? P.queues q = some Q ∧ Q.en = false ∧ Q.err = false ∧ Q.prio = 0 ∧ Q.tail = 0 ∧ Q.head = 0 ∧
            Q.retired = 0 ∧ Q.leaseMax = 0x100 ∧ Q.rootMode = 0 ∧ Q.rstat = 0 ∧ Q.csize = 0)) ∧
  (∀ (rs : List Rec) (r : Rec), best rs = some r → r ∈ rs ∧ ∀ x ∈ rs, x.version ≤ r.version) ∧
  (∀ s : State, let lost (u : State) : Prop := u.boot.flash = s.boot.flash ∧ u.teams = [] ∧ u.grids = [] ∧ u.ops = [] ∧
      u.tokens = [] ∧ u.flowsOut = [] ∧ u.flowsIn = [] ∧ u.systems = [] ∧ u.mem = [] ∧ s.time ≤ u.time
    (∃ u, exec .standbyEntry s = .next u ∧ lost u ∧ u.boot.phase = .off ∧ u.parts = []) ∧
    (∃ u, exec .lockstepMismatch s = .next u ∧ lost u ∧ u.boot.phase ≠ .off)) ∧
  (∀ (s : State) (p : Nat), ∃ u, exec (.pcieConfigRequest p) s = .next u ∧ u = { s with hostRetry := u.hostRetry } ∧
    (u.hostRetry = true ↔ s.boot.phase = .off ∨ s.boot.phase = .recovery ∧ p ≠ 0 ∨
      s.boot.phase = .running ∧ Tab.get? s.parts p = none))

/-- HOST_WRITE and HOST_READ (R370, R371): while the partitions run, a write by the PCIe port or an upstream CXL port is posted;
it is performed after the earlier ones of its path. Performed, a whole word of BAR0 is a register write, and BAR2's bytes are
the partition's memory, one range after another (log 29: the order of the ranges, and an access of part of a word). A read comes
after the posted writes of its path and leaves its bytes as the reply; in recovery a write of function 0 goes to the flash.
A system core's
stores wait until they are performed, those to the same bytes in order, or until its FENCE performs them (R103, R304; log 64).
QUOTE_REQUEST and QUOTE_DONE (R369; how DEVNUM and PART share their field: log 39): a quote with its fields in order replaces the nonce where QADDR stood at GO, then BUSY clears. -/
def Obligations.HostAccessesComplete : Prop :=
  (∀ (s : State) (port p bar off : Nat) (data : List (BitVec 8)) (A : Nat → Nat) (P : Part), Tab.get? s.parts p = some P →
    s.boot.phase = .running →
    let mapped (v : State) (n : Nat) : Prop := Tab.get? v.parts p = some P ∧ ∀ i < n,
      apertureAddr P.cfg.ranges (off + i) = some (A i) ∧ remotePa (A i) = false ∧ Store.get v.enc (A i / 4096) ≠ 2
    let up := port = 0 ∨ 1 ≤ port ∧ port ≤ 4 ∧ s.boot.cxlRole.toNat / 2 ^ (2 * (port - 1)) % 4 = 1
    let x : Posted := ⟨port, p, bar, off, data⟩
    let v := (s.posted.filter (fun y => y.path == x.path)).foldl (fun s y => s.hostApply y)
      { s with posted := s.posted.filter (fun y => y.path != x.path) }
    (up → exec (.hostWrite ⟨port, p⟩ bar off data) s = .next { s with posted := s.posted ++ [x] }) ∧
    (¬up → exec (.hostWrite ⟨port, p⟩ bar off data) s = .next s) ∧
    (bar ≠ 0 → mapped s data.length → (∀ j k, j < data.length → k < data.length → A j = A k → j = k) →
      Memory.wf s.mem = true → let u := s.hostApply x
        u = { s with mem := u.mem } ∧ (∀ j (h : j < data.length), u.byte (A j) = data[j]) ∧
        ∀ a, (∀ j < data.length, a ≠ A j) → u.byte a = s.byte a) ∧
    (∀ w : Word, bar = 0 → off % 4 = 0 → data = toBytes 4 w.toNat → exec (.registerWrite p off w) s = .next (s.hostApply x)) ∧
    (∀ n, up → bar ≠ 0 → mapped v n → v.boot = s.boot →
      exec (.hostRead ⟨port, p⟩ bar off n) s = .next { v with hostReply := (List.range n).map (fun j => v.byte (A j)) }) ∧
    (up → bar = 0 → off % 4 = 0 → Tab.get? v.parts p = some P → v.boot = s.boot →
      exec (.hostRead ⟨port, p⟩ bar off 4) s = .next { v with hostReply := toBytes 4 (v.windowRead p off).toNat })) ∧
  (∀ (s : State) (n : Nat) (w : Posted), s.posted[n]? = some w →
    let early := s.posted.take (n + 1)
    s.postOne n = (early.filter (fun y => y.path == w.path)).foldl (fun s y => s.hostApply y)
      { s with posted := early.filter (fun y => y.path != w.path) ++ s.posted.drop (n + 1) }) ∧
  (∀ (s : State) (core : Nat),
    let at_ (s : State) (w : SystemStore) : State := s.writePhys w.pa w.data
    (∀ pa data, s.systemAct core (.store pa data) = if s.boot.phase = .running ∧ ∃ P ∈ s.parts,
        P.2.cfg.sysCores.getLsbD core = true ∧ s.ownRange P.1 pa data.length = true
      then { s with systems := s.systems ++ [⟨core, pa, data⟩] } else s) ∧
    s.systemAct core .fence = (s.systems.filter (fun w => w.core == core)).foldl at_
      { s with systems := s.systems.filter (fun w => w.core != core) } ∧
    ∀ n w, s.systems[n]? = some w →
      let before (x : SystemStore) : Bool := x.core == w.core && overlaps x.pa x.data.length w.pa w.data.length
      let early := s.systems.take n
      s.performOne n = at_ ((early.filter before).foldl at_
        { s with systems := early.filter (fun x => !before x) ++ s.systems.drop (n + 1) }) w) ∧
  (∀ (s : State) (bar off : Nat) (data : List (BitVec 8)), s.boot.phase = .recovery → Memory.wf s.boot.flash = true →
    ∃ u, exec (.hostWrite ⟨0, 0⟩ bar off data) s = .next u ∧ u = { s with boot := { s.boot with flash := u.boot.flash } } ∧
      ∀ a, Store.get u.boot.flash a = if h : off ≤ a ∧ a - off < data.length then data[a - off] else Store.get s.boot.flash a) ∧
  (∀ (s : State) (p : Nat) (P : Part), Tab.get? s.parts p = some P →
    let usable := P.quoteAddr.toNat % 4096 = 0 ∧ s.ownRange p P.quoteAddr.toNat 17348 = true
    (P.quoteBusy = true ∨ ¬usable → exec (.quoteRequest p) s = .next s) ∧
    (P.quoteBusy = false → usable → ∃ u, exec (.quoteRequest p) s = .next u ∧
      OnlyPart s u p { P with quoteBusy := true, quoteAt := P.quoteAddr.toNat }) ∧
    (P.quoteBusy = false → exec (.quoteDone p) s = .next s) ∧
    (P.quoteBusy = true → ∃ u v m, exec (.quoteDone p) s = .next u ∧ OnlyPart v u p { P with quoteBusy := false } ∧
      v = s.performBytes 0 ((m ++ toBytes 17088 (Config.deviceSign s.boot.seed m).toNat).zipIdx.map (fun e =>
        (.phys (P.quoteAt + e.2), e.1))) ∧
      m.take 8 = toBytes 2 0x48F2 ++ toBytes 2 (if P.idFail then 1 else 0) ++ toBytes 4 (s.boot.devnum.toNat + p * 2 ^ 22) ∧
      (m.drop 8).take 8 = toBytes 8 s.time ∧ (m.drop 16).take 32 = s.bytes P.quoteAt 32 ∧
      m.drop 48 = [1, 2, 3, 4, 5].flatMap (fun k => measured s.boot k p) ++ toBytes 32 (Config.deviceKey s.boot.seed).toNat))

/-- REGISTER_WRITE (R9, R303, R312, R322, R325, R331, R369, R385): a word written to the control window changes the fields it covers that take a
write, and starts what its GO, CMD, ACTION or W1C bit starts as the event of that name does; a read-only word changes
nothing. So for the queue, context, root, Concierge, identity, RESUME, FCLR, invalidation, ring, guestbook, migration, CEDROP and
inspection registers; a ring is enabled only with a base and a size that can be used (log 48), and of a guestbook that is disabled what waits is
placed first (log 47); a word that no rule lists is kept for the partition's engines and heads, if it owns some (log 49). ROOM_KEY_HELD_CLEAR and ROOM_KEY_ENABLE (R322, R323): the key is freed, and its count
reads 0 (log 57); clearing EN frees it too and admits every held step. -/
def Obligations.RegistersTakeWrites : Prop :=
  ∀ (s : State) (p : Nat) (P : Part) (w : Word), Tab.get? s.parts p = some P → P.cfg.cores.length ≤ 256 →
    let part (off : Nat) (P' : Part) : Prop := ∃ u, exec (.registerWrite p off w) s = .next u ∧ OnlyPart s u p P'
    let lo (v : Word64) : Word64 := v.extractLsb' 32 32 ++ w
    let hi (v : Word64) : Word64 := w ++ v.extractLsb' 0 32
    (∀ q Q, q < 64 → Tab.get? P.queues q = some Q →
      let queue (off : Nat) (Q' : Queue) : Prop := ∃ u, exec (.registerWrite p off w) s = .next u ∧ OnlyQueue s u p q Q'
      let base := 0x10000 + 64 * q
      let log := if Q.en = true then Q.qlog else w.extractLsb' 0 5
      (Q.en = false → queue base { Q with qbase := lo Q.qbase } ∧ queue (base + 4) { Q with qbase := hi Q.qbase }) ∧
      (Q.en = true → queue base Q ∧ queue (base + 4) Q) ∧
      (∃ en, queue (base + 8) { Q with
          qlog := log, en := en, prio := w.extractLsb' 12 3, err := Q.err && !w.getLsbD 15 } ∧
        (en = true ↔ w.getLsbD 7 = true ∧ 4 ≤ log.toNat ∧ log.toNat ≤ 16 ∧ Q.qbase.toNat % 4096 = 0 ∧
          s.ownRange p Q.qbase.toNat (128 * 2 ^ log.toNat) = true)) ∧
      queue (base + 24) { Q with tail := w } ∧ queue (base + 44) { Q with leaseMax := w } ∧
      (∀ o, o < 16 → o ≠ 0 → o ≠ 1 → o ≠ 2 → o ≠ 6 → o ≠ 11 → queue (base + 4 * o) Q) ∧
      queue (0x40020 + 64 * q) { Q with cbase := lo Q.cbase } ∧ queue (0x40024 + 64 * q) { Q with cbase := hi Q.cbase } ∧
      queue (0x40028 + 64 * q) { Q with csize := lo Q.csize } ∧ queue (0x4002C + 64 * q) { Q with csize := hi Q.csize } ∧
      queue (0x31000 + 16 * q) { Q with rootPpn := w.setWidth 44 ||| (Q.rootPpn >>> 32 <<< 32) } ∧
      queue (0x31004 + 16 * q) { Q with
        rootPpn := (w.extractLsb' 0 12 ++ Q.rootPpn.extractLsb' 0 32), rootAsid := w.extractLsb' 12 16,
        rootMode := w.extractLsb' 28 4 } ∧
      exec (.registerWrite p (0x40000 + 64 * q) w) s = (if w.extractLsb' 2 2 = 1#2 then exec (.contextSave p q) s
        else if w.extractLsb' 2 2 = 2#2 then exec (.contextRestore p q) s
        else if w.extractLsb' 2 2 = 3#2 then exec (.queueAbort p q) s else .next s)) ∧
    part 0x100 { P with tw := w.extractLsb' 4 4, dw := w.extractLsb' 8 4 } ∧ part 0x104 P ∧
    part 8 { P with quoteAddr := lo P.quoteAddr } ∧ part 12 { P with quoteAddr := hi P.quoteAddr } ∧
    exec (.registerWrite p 4 w) s = (if w.getLsbD 0 then exec (.quoteRequest p) s else .next s) ∧
    exec (.registerWrite p 0x30440 w) s = (if w.extractLsb' 16 2 = 0#2 then exec (.resumeRetry p (w.extractLsb' 0 16)) s
      else if w.extractLsb' 16 2 = 1#2 then exec (.resumeAbort p (w.extractLsb' 0 16)) s else .next s) ∧
    exec (.registerWrite p 0x30460 w) s = (if w.getLsbD 0 then exec (.filterClear p) s else .next s) ∧
    (w.getLsbD 0 = true → w.extractLsb' 2 2 = 0#2 → exec (.registerWrite p 0x30480 w) s = exec (.invalidateRange p) s) ∧
    (w.getLsbD 0 = true → w.extractLsb' 2 2 = 1#2 → exec (.registerWrite p 0x30480 w) s = exec (.invalidateAsid p) s) ∧
    (w.getLsbD 0 = true → w.extractLsb' 2 2 = 2#2 → exec (.registerWrite p 0x30480 w) s = exec (.invalidatePartition p) s) ∧
    (w.getLsbD 0 = false ∨ w.extractLsb' 2 2 = 3#2 → part 0x30480 { P with inval := { P.inval with scope := w.extractLsb' 2 2 } }) ∧
    part 0x30488 { P with inval := { P.inval with asid := w.extractLsb' 0 16 } } ∧
    part 0x3048C { P with inval := { P.inval with npages := w } } ∧
    part 0x30490 { P with inval := { P.inval with va := lo P.inval.va } } ∧
    part 0x30494 { P with inval := { P.inval with va := hi P.inval.va } } ∧
    (∀ (base : Nat) (r : Ring) (put : Ring → Part),
      (base = 0x30400 ∧ r = P.fault ∧ put = (fun r => { P with fault := r }) ∨
        base = 0x30600 ∧ r = P.error ∧ put = fun r => { P with error := r }) →
      let ok (r : Ring) : Prop := 6 ≤ r.log.toNat ∧ r.log.toNat ≤ 16 ∧ r.base.toNat % 4096 = 0 ∧
        s.ownRange p r.base.toNat (32 * 2 ^ r.log.toNat) = true
      (∀ e ∈ [(0, { r with base := lo r.base }), (4, { r with base := hi r.base })],
        (e.2.en = false ∨ ok e.2 → part (base + e.1) (put e.2)) ∧ (e.2.en = true → ¬ok e.2 → part (base + e.1) (put r))) ∧
      (∃ en, part (base + 8) (put { r with log := w.extractLsb' 0 5, en := en }) ∧
        (en = true ↔ w.getLsbD 5 = true ∧ ok { r with log := w.extractLsb' 0 5 })) ∧
      part (base + 20) (put { r with consume := w }) ∧ ∀ o ∈ [12, 16], part (base + o) (put r)) ∧
    (∀ r R, r < 16 → Tab.get? P.rings r = some R →
      let ring (off : Nat) (R' : GbRing) : Prop := ∃ rings, part (0x30000 + 64 * r + off) { P with rings := rings } ∧
        EntryOnly P.rings rings r R'
      let cap := if R.en = true then R.cap else w.extractLsb' 0 5
      ring 0 (if R.en = true then R else { R with base := lo R.base }) ∧
      ring 4 (if R.en = true then R else { R with base := hi R.base }) ∧
      (∃ en, (en = true ↔ w.getLsbD 5 = true ∧ 6 ≤ cap.toNat ∧ cap.toNat ≤ 24 ∧ R.base.toNat % 4096 = 0 ∧
          s.ownRange p R.base.toNat (16 * 2 ^ cap.toNat) = true) ∧
        let set (R : GbRing) : GbRing := { R with cap := cap, en := en, ovf := R.ovf && !w.getLsbD 6 }
        (R.en = false ∨ en = true → ring 8 (set R)) ∧
        (R.en = true → en = false → let v := s.placeAll p
          ∀ P' R', Tab.get? v.parts p = some P' → Tab.get? P'.rings r = some R' → ∃ u rings,
            exec (.registerWrite p (0x30000 + 64 * r + 8) w) s = .next u ∧ OnlyPart v u p { P' with rings := rings } ∧
            EntryOnly P'.rings rings r (set R'))) ∧
      ring 24 { R with consume := w } ∧ ring 28 { R with ovfCount := w } ∧ ring 20 R) ∧
    (∀ j m, j < 8 → Tab.get? P.mig j = some m →
      let slot (t : State) (m' : MigSlot) : Prop := ∃ mig, OnlyPart s t p { P with mig := mig } ∧ EntryOnly P.mig mig j m'
      let wrote (off : Nat) (m' : MigSlot) : Prop := ∃ t, exec (.registerWrite p (0x30500 + 32 * j + off) w) s = .next t ∧ slot t m'
      wrote 0 { m with src := lo m.src } ∧ wrote 4 { m with src := hi m.src } ∧
      wrote 8 { m with dst := lo m.dst } ∧ wrote 12 { m with dst := hi m.dst } ∧
      ∃ t, slot t { m with size := w.extractLsb' 0 2, zsrc := w.getLsbD 2, zdst := w.getLsbD 3 } ∧
        exec (.registerWrite p (0x30510 + 32 * j) w) s = if w.getLsbD 6 = true then exec (.migrationStart p j) t else .next t) ∧
    part 0x30640 { P with cedrop := w } ∧
    (∀ off, 0x110 ≤ off → off < 0x400 → part off (if P.cfg.encode = 0 ∧ P.cfg.heads = 0 then P
      else { P with media := P.media ++ [(off / 4 * 4, w)] })) ∧
    (let I : Inspect := { P.inspect with unit := w.extractLsb' 12 4, index := w.extractLsb' 16 8 }
     (w.getLsbD 0 = false ∨ I.done = false ∨ 4 < I.unit.toNat → part 0x80000 { P with inspect := I }) ∧
     (w.getLsbD 0 = true → I.done = true → I.unit.toNat ≤ 4 →
       part 0x80000 { P with inspect := { I with done := false, job := some (I.unit.toNat, I.index.toNat) } })) ∧
    (P.inspect.done = true → P.inspect.unit.toNat ≤ 4 → ∃ u, exec (.snapshotRequest p) s = .next u ∧ OnlyPart s u p { P with
      inspect := { P.inspect with done := false, job := some (P.inspect.unit.toNat, P.inspect.index.toNat) } }) ∧
    (P.inspect.done = false ∨ 4 < P.inspect.unit.toNat → ∃ u, exec (.snapshotRequest p) s = .next u ∧ OnlyPart s u p P) ∧
    (∀ i c k, P.cfg.cores[i]? = some c → Tab.get? s.cores c = some k →
      let only (j : Instr) (k' : Core) : Prop := ∃ u, exec j s = .next u ∧ OnlyCore s u c k'
      let free : RoomKey := { k.key with held := false, remain := 0 }
      (only (.roomKeyHeldClear p i) (if k.key.held = true then { k with key := free } else k)) ∧
      only (.roomKeyEnable p i true) { k with key := { k.key with en := true } } ∧
      ∃ u, OnlyCore s u c { k with key := { free with en := false } } ∧
        exec (.roomKeyEnable p i false) s = .next (u.tryCoreSteps c))

/-! ## Errors, links and other devices (26_partitions_and_fleet.md) -/

/-- Errors by class (R346, R376, R377). A corrected one leaves a record alone, which is dropped and counted when the ring is full or
disabled. One of memory goes by the page's P: tracked, it poisons its sector, or the sectors of its compressed unit, with no byte
changed; untracked or in the pool, it stops its partition, or every partition: its grids aborted, its system cores told; where no
leaf has named the frame yet, as the event that tells of it says (DESIGN CHOICE, log 65). An uncontained one of a core aborts every grid with a team
there and takes the core out (DEDUCED, logs 53, 54). (The ends of the memories: log 3, GB as 10^9 bytes; the SOURCE of a
memory's record: log 52.) Each record carries its class, action, unit and source. -/
def Obligations.ErrorsAreContained : Prop :=
  ∀ (s : State) (p : Nat) (P : Part), Tab.get? s.parts p = some P → Tab.wf s.parts = true →
    let record (r : BitVec 256) (addr source unit action cls : Nat) : Prop := (r.extractLsb' 192 64).toNat = s.time % 2 ^ 64 ∧
      (r.extractLsb' 128 64).toNat = addr % 2 ^ 64 ∧ r.extractLsb' 37 22 = s.boot.devnum ∧
      (r.extractLsb' 25 12).toNat = source ∧ (r.extractLsb' 12 5).toNat = unit ∧ (r.extractLsb' 8 4).toNat = action ∧
      (r.extractLsb' 0 2).toNat = cls ∧ r.extractLsb' 2 6 = 0 ∧ r.extractLsb' 17 8 = 0 ∧ r.extractLsb' 59 69 = 0
    let told (u : State) (r : BitVec 256) : Prop := (Tab.get? u.parts p).map (·.error.waiting) = some (P.error.waiting ++ [r])
    let room : Prop := P.error.en = true ∧ (P.error.produce - P.error.consume).toNat < 2 ^ P.error.log.toNat
    let its (pa : Nat) : Prop := s.inPool pa 1 = true ∨ s.memOwner pa = some p
    (∀ unit source addr, unit < 32 → source < 4096 →
      (if unit = 6 ∨ unit = 7 then its addr else s.unitOwner source = some p ∨ s.unitOwner source = none) →
      ∃ u r, exec (.correctedError unit source addr) s = .next u ∧ u = { s with parts := u.parts } ∧
        record r addr source unit 1 0 ∧ (room → told u r) ∧
        (¬room → Tab.get? u.parts p = some { P with cedrop := if P.cedrop = 0xFFFFFFFF then P.cedrop else P.cedrop + 1 })) ∧
    (∀ (pa : Nat) (i : Instr), i = .containedError pa ∨ i = .uncontainedMemoryError pa → its pa →
      let source := if pa < 256000000000 then 0x1A0 + pa / 32000000000 else 0x1B0
      let unit := if pa < 256000000000 then 6 else 7
      let tracked := Store.get s.prot (pa / 4096)
      let stops : Prop := s.inPool pa 1 = true ∨ tracked = 1 ∨ (tracked = 0 ∧ i = .uncontainedMemoryError pa)
      ∃ u r, exec i s = .next u ∧ told u r ∧ u.mem = s.mem ∧
        (¬stops → u = { s with poison := u.poison, parts := u.parts } ∧ record r pa source unit 2 1 ∧
          (Store.wf s.poison = true → ∀ a, u.poisoned a = true ↔ s.poisoned a = true ∨
            (if Store.get s.enc (pa / 4096) = 2 then a / 256 = pa / 256 else a / 32 = pa / 32))) ∧
        (stops → record r pa source unit 4 2 ∧ u.poison = s.poison ∧ (Tab.get? u.parts p).map (·.halted) = some true ∧
          (Tab.get? u.parts p).map (·.mcheck) = some (P.mcheck + 1) ∧
          ∀ n g, Tab.get? s.grids n = some g → g.part = p → (Tab.get? u.grids n).map (·.aborted) = some true)) ∧
    (∀ core unit k, core < 256 → unit < 32 → s.coreOwner core = some p → Tab.get? s.cores core = some k →
      ∃ u r K, exec (.uncontainedCoreError core unit) s = .next u ∧ told u r ∧ record r 0 core unit 3 2 ∧ u.mem = s.mem ∧
        Tab.get? u.cores core = some K ∧ K.dead = true ∧
        ∀ t T, Tab.get? s.teams t = some T → T.pcore = core → (Tab.get? s.grids T.grid).isSome = true →
          (Tab.get? u.grids T.grid).map (·.aborted) = some true)

/-- Links (R379) and flows out of the device (R380, R381). A bad flit and a link that is down change nothing; a good one counts when it is
the one expected, acknowledges, and brings a training link up at 8 lanes or 4. Up to 16 times a flit is sent again (class 0); then the
link trains, and a link that cannot train is down and the requests routed through it fail. A reply, and the eighth
timeout, end a request for its requester; before that it is only sent again. That a link which trains comes up with its first good flit is
the model's choice (log 31), so are the class and the partitions of a link's records (log 52), and the one byte of a write's reply
(log 41). A first sending counts as the first of the eight. -/
def Obligations.LinksAndFlows : Prop :=
  (∀ (s : State) (n : Nat) (k : Link) (f : FlitIn), Tab.get? s.links n = some k →
    let only (u : State) (k' : Link) : Prop := EntryOnly s.links u.links n k' ∧ u = { s with links := u.links, parts := u.parts } ∧
      u.parts.map (·.1) = s.parts.map (·.1)
    let told (u : State) (action : Nat) : Prop := ∃ r : BitVec 256, (r.extractLsb' 25 12).toNat = (0x160 + n) % 4096 ∧
      (r.extractLsb' 12 5).toNat = 8 ∧ (r.extractLsb' 8 4).toNat = action ∧ (r.extractLsb' 0 2).toNat = 0 ∧
      ∀ p P, Tab.get? s.parts p = some P → Tab.get? u.parts p = some (
        if P.error.en = true ∧ (P.error.produce - P.error.consume).toNat < 2 ^ P.error.log.toNat then
          { P with error := { P.error with waiting := P.error.waiting ++ [r] } }
        else { P with cedrop := if P.cedrop = 0xFFFFFFFF then P.cedrop else P.cedrop + 1 })
    (f.good = false → exec (.flitReceive n f) s = .next s) ∧
    (f.good = true → k.state = 2 → ∃ u, exec (.flitReceive n f) s = .next u ∧ only u k ∧ u.parts = s.parts) ∧
    (f.good = true → k.state ≠ 2 → ∃ u k', exec (.flitReceive n f) s = .next u ∧ only u k' ∧ u.parts = s.parts ∧
      (k.state = 1 → k'.state = 0 ∧ (k'.lanes = 8 ∨ k'.lanes = 4)) ∧ (k.state ≠ 1 → k'.state = k.state ∧ k'.lanes = k.lanes) ∧
      k'.nextRecv = (if f.seq = k.nextRecv then k.nextRecv + 1 else k.nextRecv) ∧
      (∀ a, f.ack = some a → k'.lastAck = a ∧ k'.retries = 0) ∧
      (f.ack = none → k'.lastAck = k.lastAck ∧ k'.retries = k.retries)) ∧
    (k.state ≠ 0 → exec (.flitAckTimeout n) s = .next s) ∧
    (n < 18 → k.state = 0 → k.retries < 16 → ∃ u, exec (.flitAckTimeout n) s = .next u ∧
      only u { k with retries := k.retries + 1 } ∧ told u 1) ∧
    (n < 18 → k.state = 0 → 16 ≤ k.retries → ∃ u, exec (.flitAckTimeout n) s = .next u ∧
      only u { k with retries := 0, state := 1 } ∧ told u 5) ∧
    (k.state ≠ 1 → exec (.linkTrainTimeout n) s = .next s) ∧
    (n < 18 → k.state = 1 → ∃ u, exec (.linkTrainTimeout n) s = .next u ∧ EntryOnly s.links u.links n { k with state := 2 } ∧
      told u 6 ∧ u.mem = s.mem ∧ (∀ f ∈ u.flowsOut, s.route f.dest = some n → f.unanswered = []))) ∧
  (∀ (s : State) (source dev : Nat) (seq : BitVec 32) (data : ReplyBytes),
    let reply : Instr := .remoteReplyReceive source dev seq data
    let late : Instr := .requestReplyTimeout source dev seq
    let mine (f : FlowOut) : Prop := f.source = source ∧ f.dest = dev
    let ends (u : State) (failed : Bool) (bs : ReplyBytes) : Prop := u.mem = s.mem ∧
      (∀ f ∈ u.flowsOut, mine f → ∀ x ∈ f.unanswered, x.seq ≠ seq) ∧
      ∀ t g T G, Tab.get? s.teams t = some T → Tab.get? T.groups g = some G → ∃ T' H, Tab.get? u.teams t = some T' ∧
        Tab.get? T'.groups g = some H ∧ H = { G with remote := H.remote } ∧ H.remote = G.remote.map (fun r =>
          if r.flowSource = source ∧ r.flowDest = dev ∧ r.seq = seq ∧ r.answer = none then { r with answer := some (failed, bs) }
          else r)
    (s.pendingReq source dev seq = none → exec reply s = .next s ∧ exec late s = .next s) ∧
    (∀ x, s.pendingReq source dev seq = some x →
      let asked : Nat := (match x.req with
        | .read _ len => len
        | .write _ _ => 1
        | .atomic _ wide _ _ _ _ => if wide then 8 else 4)
      (∃ u, exec reply s = .next u ∧ ends u (decide (data.bytes.length < asked)) data) ∧
      (8 ≤ x.tries → ∃ u, exec late s = .next u ∧ ends u true ⟨[], []⟩) ∧
      (x.tries < 8 → ∃ u, exec late s = .next u ∧ u = { s with flowsOut := u.flowsOut } ∧
        u.flowsOut.map (fun f => (f.source, f.dest, f.next)) = s.flowsOut.map (fun f => (f.source, f.dest, f.next)) ∧
        ∀ y, u.pendingReq source dev seq = some y → y = { x with tries := x.tries + 1 }))) ∧
  (∀ (s : State) (source dest : Nat) (r : RemoteReq),
    let flow := s.flowsOut.find? (fun f => f.source == source && f.dest == dest)
    let number := (flow.map (·.next)).getD 0
    ((∃ f, flow = some f ∧ 256 ≤ f.unanswered.length) → s.sendRequest source dest r = (s, none)) ∧
    ((∀ f, flow = some f → f.unanswered.length < 256) → s.pendingReq source dest number = none →
      ∃ u, s.sendRequest source dest r = (u, some number) ∧ u = { s with flowsOut := u.flowsOut } ∧
        u.pendingReq source dest number = some ⟨number, r, 1⟩))

/-- Requests of other devices and Stewards (R200, R378, R380, R381). Only the flow's next expected number is applied, once, and its reply
kept; every other number changes nothing. A write to a used EXPORT unit changes exactly its bytes, a store's or engine's clears the
poison of the sectors it covers (log 41), a read's reply is the bytes read with the poisoned ones marked (R346), an atomic is its Steward's,
unless its sector is poisoned: then it is not applied and marked (log 41), and an unused unit takes
nothing and answers with no byte. A Steward applies an atomic's function at its address, answers with the old value, and does
not apply again one that it has answered for that source among the last 256 (log 40). -/
def Obligations.RequestsApplyOnce : Prop :=
  (∀ (s : State) (dev source : Nat) (seq : BitVec 32) (req : RemoteReq),
    let f := s.flowIn dev source
    let i : Instr := .remoteRequestReceive dev source seq req
    let base (off : Nat) : Nat := leValue (Store.getRange s.boot.body (0x20 + 8 * (off / 2 ^ 30 % 8)) 8)
    let addr (off : Nat) : Nat := base off + off % 2 ^ 30
    let fits (off n : Nat) : Prop := base off ≠ 0 ∧ off % 2 ^ 30 + n ≤ 2 ^ 30 ∧
      ∀ j < n, remotePa (addr off + j) = false ∧ Store.get s.enc ((addr off + j) / 4096) ≠ 2
    (seq ≠ f.expect ∨ s.boot.phase ≠ .running → exec i s = .next s) ∧
    (seq = f.expect → s.boot.phase = .running → ∃ u bs, exec i s = .next u ∧ (u.flowIn dev source).expect = f.expect + 1 ∧
      (u.flowIn dev source).kept.getLast? = some (seq, bs) ∧ (u.flowIn dev source).kept.length ≤ 256 ∧
      (∀ d c, (d ≠ dev ∨ c ≠ source) → u.flowIn d c = s.flowIn d c) ∧ exec i u = .next u ∧
      (∀ off len, req = .read off len → u = { s with flowsIn := u.flowsIn } ∧ (base off = 0 → 0 < len → bs = ⟨[], []⟩) ∧
        (fits off len → bs.bytes = (List.range len).map (fun j => s.byte (addr off + j)) ∧
          ∀ j, j ∈ bs.lost ↔ j < len ∧ s.poisoned (addr off + j) = true)) ∧
      (∀ off data, req = .write off data → base off = 0 → data ≠ [] → u = { s with flowsIn := u.flowsIn } ∧ bs = ⟨[], []⟩) ∧
      (∀ off data, req = .write off data → fits off data.length → Memory.wf s.mem = true → Store.wf s.poison = true →
        u = { s with mem := u.mem, poison := u.poison, flowsIn := u.flowsIn } ∧ bs.bytes.length = 1 ∧ bs.lost = [] ∧
        (∀ a, u.byte a = if addr off ≤ a ∧ a < addr off + data.length then data.getD (a - addr off) 0 else s.byte a) ∧
        ∀ a, u.poisoned a = true ↔ s.poisoned a = true ∧
          ¬(source < 0x104 ∧ addr off ≤ a / 32 * 32 ∧ a / 32 * 32 + 32 ≤ addr off + data.length)) ∧
      (∀ off wide fn nat val new, req = .atomic off wide fn nat val new →
        (base off = 0 → u = { s with flowsIn := u.flowsIn } ∧ bs = ⟨[], []⟩) ∧
        (base off ≠ 0 → s.poisoned (addr off) = true →
          u = { s with flowsIn := u.flowsIn } ∧ bs = ⟨List.replicate (if wide then 8 else 4) 0, [0]⟩) ∧
        (base off ≠ 0 → s.poisoned (addr off) = false → remotePa (addr off) = false → addr off % (if wide then 8 else 4) = 0 →
          let home := s.stewardOf (addr off)
          let key := dev * 4096 + source
          (∃ w, exec (.stewardAtomic home key seq (addr off) wide fn nat val new) s = .next w ∧
            u = { w with flowsIn := u.flowsIn }) ∧
          bs.lost = [] ∧ bs.bytes = toBytes (if wide then 8 else 4) (match (s.keptFor home key).find? (fun r => r.1 == seq) with
            | some r => r.2.toNat
            | none => s.physValue (addr off) (if wide then 8 else 4)))))) ∧
  (∀ (s : State) (cluster source : Nat) (seq : BitVec 32) (pa : Nat) (wide : Bool) (fn : BitVec 3) (nat : Bool)
      (val new : BitVec 64),
    let i : Instr := .stewardAtomic cluster source seq pa wide fn nat val new
    let n := if wide then 8 else 4
    let its := cluster = s.stewardOf pa ∧ remotePa pa = false ∧ pa % n = 0
    let old := s.physValue pa n
    let v := val.toNat % 2 ^ (8 * n)
    let key (a : Nat) : Int := if nat = false ∧ 2 ^ (8 * n - 1) ≤ a then (a : Int) - 2 ^ (8 * n) else a
    (¬its → exec i s = .next s) ∧
    (∀ r, its → (s.keptFor cluster source).find? (fun r => r.1 == seq) = some r → exec i s = .next s) ∧
    (its → (s.keptFor cluster source).find? (fun r => r.1 == seq) = none → Store.get s.enc (pa / 4096) ≠ 2 →
      (Tab.get? s.stewards cluster).isSome = true → Memory.wf s.mem = true →
      ∃ u, exec i s = .next u ∧ u = { s with mem := u.mem, stewards := u.stewards } ∧
        (∀ a, ¬(pa ≤ a ∧ a < pa + n) → u.byte a = s.byte a) ∧
        (u.keptFor cluster source).getLast? = some (seq, BitVec.ofNat 64 old) ∧
        u.physValue pa n = (match fn.toNat with
          | 0 => (old + v) % 2 ^ (8 * n)
          | 1 => if key v < key old then v else old
          | 2 => if key old < key v then v else old
          | 3 => old &&& v
          | 4 => old ||| v
          | 5 => old ^^^ v
          | 6 => v
          | _ => if old = v then new.toNat % 2 ^ (8 * n) else old) ∧
        exec i u = .next u)) ∧
  (∀ (s : State) (pa : Nat), (∃ c < 32, s.boot.disabled.getLsbD c = false) →
    ∃ j < 32, s.stewardOf pa = (pa / 4096 % 32 + j) % 32 ∧ s.boot.disabled.getLsbD (s.stewardOf pa) = false ∧
      ∀ i < j, s.boot.disabled.getLsbD ((pa / 4096 % 32 + i) % 32) = true)

/-- The time bound's records (R382), SNAPSHOT_DONE (R385), DROOP_EVENT (R311) and BRANCH_RESOLVE (R35, R294): the bound lost or
regained posts one record of UNIT 13, of class 0, to every partition (log 52); a snapshot sets DONE and STAMP and its page shows the unit that was selected
when GO was written: of a core what R386 lists (in the model's order of teams and cache entries: log 50), of another unit bytes
that depend on what R386 names for it alone (log 50); a droop counts for its core; a resolved branch enters its outcome for its lanes into the predictor, and nothing else of the group changes. -/
def Obligations.WatchfulEventsComplete : Prop :=
  (∀ (s : State),
    let posts (i : Instr) (bound : Bool) (action : Nat) : Prop := ∃ u r, exec i s = .next u ∧
      u = { s with timeBound := bound, parts := u.parts } ∧ (r : BitVec 256).extractLsb' 12 5 = 13#5 ∧
      (r.extractLsb' 8 4).toNat = action ∧ (r.extractLsb' 0 2).toNat = 0 ∧ ∀ p P, Tab.get? s.parts p = some P →
        Tab.get? u.parts p = some (
          if P.error.en = true ∧ (P.error.produce - P.error.consume).toNat < 2 ^ P.error.log.toNat then
            { P with error := { P.error with waiting := P.error.waiting ++ [r] } }
          else { P with cedrop := if P.cedrop = 0xFFFFFFFF then P.cedrop else P.cedrop + 1 })
    (s.timeBound = true → posts .timeBoundLost false 0 ∧ exec .timeBoundRegained s = .next s) ∧
    (s.timeBound = false → posts .timeBoundRegained true 7 ∧ exec .timeBoundLost s = .next s)) ∧
  (∀ (s : State) (p : Nat) (P : Part), Tab.get? s.parts p = some P →
    (P.inspect.job = none → exec (.snapshotDone p) s = .next s) ∧
    (∀ unit index, P.inspect.job = some (unit, index) → ∃ u P', exec (.snapshotDone p) s = .next u ∧ OnlyPart s u p P' ∧
      (let shown := { P.inspect with done := true, job := none, stamp := BitVec.ofNat 64 s.time, page := P'.inspect.page }
       P' = { P with inspect := shown }) ∧
      let page := P'.inspect.page
      let val (o n : Nat) : Nat := leValue (Store.getRange page o n)
      (∀ c k, unit = 0 → P.cfg.cores[index]? = some c → Tab.get? s.cores c = some k → Tab.wf k.shapes = true →
        let ts := (s.teams.filter (fun T => T.2.pcore == c)).map (·.2)
        let holds (b : Nat × Nat) (i : Nat) : Prop := b.1 ≤ i ∧ i < b.1 + b.2
        (∀ q < 4, ∀ i < 256, (val (32 * q) 32).testBit i = true ↔
          ∃ T ∈ ts, ∃ G ∈ T.groups, G.2.quarter = q ∧ ∃ b ∈ G.2.regBlocks, holds b i) ∧
        (∀ q < 4, ∀ i < 64, (val (0x80 + 8 * q) 8).testBit i = true ↔
          ∃ T ∈ ts, ∃ G ∈ T.groups, G.2.quarter = q ∧ ∃ b ∈ G.2.zBlocks, holds b i) ∧
        (∀ i < 128, (val 0xA0 16).testBit i = true ↔ ∃ T ∈ ts, holds T.block i) ∧
        (∀ h < 64, (val 0xB0 8).testBit h = (Tab.get? k.shapes h).isSome) ∧
        val 0xB8 8 = (if k.key.en = true then 1 else 0) + (if k.key.held = true then 2 ^ 8 else 0) + k.key.holder.toNat * 2 ^ 16 +
          k.key.remain.toNat * 2 ^ 32 ∧ val 0xC0 64 = 0 ∧
        (∀ i < 32, val (0x100 + 16 * i) 16 = match Tab.get? k.locks i with
          | none => 0
          | some x => x.base % 2 ^ 64 + 2 ^ 64 * ((x.len % 2 ^ 40 + (if x.dst = true then 2 ^ 40 else 0) + 2 ^ 41 +
              x.room * 2 ^ 42) % 2 ^ 64)) ∧
        (∀ i < 64, val (0x300 + 16 * i) 16 = match ts[i]? with
          | none => 0
          | some T =>
            let g := Tab.get? s.grids T.grid
            (g.map (fun g => (g.packet.extractLsb' 128 32).toNat)).getD 0 + 2 ^ 32 * (T.index % 2 ^ 32) +
              2 ^ 64 * (((g.map (·.queue)).getD 0 + (T.ngroup - 1) * 2 ^ 8 + 2 ^ 31) % 2 ^ 32)) ∧
        (∀ i < 64, val (0x700 + 16 * i) 16 = match k.way[i]? with
          | none => 0
          | some w => w.addr % 2 ^ 64 + 2 ^ 64 * ((w.gen.toNat + 2 ^ 63) % 2 ^ 64)) ∧
        ∀ o, 0xB00 ≤ o → Store.get page o = 0) ∧
      (unit ≠ 0 → ∃ named : List Nat, (∀ o < 4096, Store.get page o = Config.inspectByte unit named o) ∧
        (∀ d, unit = 1 → Tab.get? s.dies index = some d → named = (List.range 16).flatMap (fun r =>
          match (Tab.get? d.rooms r).bind (Tab.get? s.ops) with
          | some o => [1, o.src, o.srcLen, o.dst, o.dstLen, o.bobj] ++ o.stages.map (·.toNat) ++
              [if o.out.isSome = true then o.srcLen else 0]
          | none => [0]) ++ [d.tlb.length]) ∧
        (∀ ks, unit = 2 → Tab.get? s.stewards index = some ks →
          named = ks.flatMap (fun k => k.source :: k.replies.map (·.1.toNat))) ∧
        (∀ l, unit = 3 → Tab.get? s.links index = some l → named = [l.lanes, l.state, l.retries, l.lastAck.toNat]) ∧
        (unit = 4 → named = (List.range 16).flatMap (fun i =>
          let n := 16 * index + i
          match Tab.get? s.tokens n with
          | none => [0]
          | some t => [1, t.part, t.asid.toNat, t.page, if t.write = true then 1 else 0,
              (s.teams.flatMap (fun T => T.2.groups.flatMap (fun G => G.2.lanes.filter (·.2.waitsOn n)))).length +
              (s.ops.filter (fun o => o.2.token == some n)).length +
              (s.cores.flatMap (fun k => k.2.raster.filter (fun x => x.token == some n))).length +
              (s.grids.filter (fun g => g.2.wait.on n)).length +
              (s.parts.flatMap (fun P => P.2.queues.filter (fun Q => Q.2.wait.on n))).length]))))) ∧
  (∀ (s : State) (c : Nat) (k : Core), Tab.get? s.cores c = some k →
    ∃ u k', exec (.droopEvent c) s = .next u ∧ OnlyCore s u c k' ∧ k' = { k with droops := k'.droops } ∧
      u.recentDroops c = s.recentDroops c + 1) ∧
  (∀ (s : State) (t g : Nat) (T : Team) (G : Group), Tab.get? s.teams t = some T → Tab.get? T.groups g = some G →
    Store.wf G.history = true → ∃ u T' H, exec (.branchResolve t g) s = .next u ∧ OnlyTeam s u t T' ∧
      T' = { T with groups := T'.groups } ∧ EntryOnly T.groups T'.groups g H ∧ H = { G with pending := none, history := H.history } ∧
      (G.pending = none → H = G) ∧ ∀ b, G.pending = some b → ∀ a l, l < 32 → (Store.get H.history a).getLsbD l =
        if a = b.addr.toNat ∧ (b.active.getLsbD l = true ∨ b.taken.getLsbD l = true) then b.taken.getLsbD l
        else (Store.get G.history a).getLsbD l)

/-! ## Words and their encodings (06_formats_and_opcode_map.md) -/

/-- Every instruction that is a word has one, well-formed or not, and an event has none. Decoding the word that an instruction is
encoded in gives the instruction back, every field at every value it can take; so do its four bytes in memory, whatever
follows them (R134, R138, R140, R144). -/
def Obligations.DecodeOfEncode : Prop :=
  (∀ i : Instr, (encode i).isSome = i.isWord) ∧
  ∀ (i : Instr) (w : BitVec 32), encode i = some w →
    decodeWord w = .ok i ∧ ∀ rest, decodeBytes (leBytes 4 w.toNat ++ rest) = .ok (i, rest)

/-- Every word that decodes is the word of the instruction it decodes to: no two words are one instruction, and no bit
of a word is passed over. -/
def Obligations.EncodeOfDecode : Prop :=
  ∀ (w : BitVec 32) (i : Instr), decodeWord w = .ok i → encode i = some w

/-- Words of several formats written out from the spec's fields: SET, E, MAJOR and body (R134, R138), operand codes (R140), and the
fields of the shared majors. -/
def Obligations.EncodingsOfTheTable : Prop :=
  (∀ c : Nat, (∀ h : c < 192, Opd.ofCode c = .v ⟨c, h⟩) ∧ (∀ h : c < 60, Opd.ofCode (192 + c) = .s ⟨c, h⟩) ∧
    (∀ h : c < 4, Opd.ofCode (252 + c) = .q ⟨c, h⟩)) ∧
  decodeWord 0x00000000 = .error .unallocatedMajor ∧
  decodeWord (0x40000000 + 0x01 * 2 ^ 24 + 5 * 2 ^ 16 + 6 * 2 ^ 8 + 0xC7) = .ok (.iadd true (.v 5) (.v 6) (.s 7)) ∧
  decodeWord (0x12 * 2 ^ 24 + 0xFF * 2 ^ 16 + 0xFC * 2 ^ 8 + 0xF0) = .ok (.iaddImm false (.q 3) (.q 0) 0xF0) ∧
  decodeWord (0x2A * 2 ^ 24 + 1 * 2 ^ 16 + 2 * 2 ^ 8 + 0x80 + 3 * 8 + 4) = .ok (.fcvtQF32 false (.v 1) (.v 2) 3 4) ∧
  decodeWord (0x31 * 2 ^ 24 + 8 * 2 ^ 16 + 4 * 2 ^ 8 + 0xFF) = .ok (.ldW false (.v 8) (.v 4) 0xFF) ∧
  decodeWord (0x3B * 2 ^ 24 + 9 * 2 ^ 16 + 2 * 2 ^ 8 + 1 * 2 ^ 8 + 7 * 2 ^ 5 + 1 * 2 ^ 3 + 4) = .ok (.atomW false (.v 9) 1 1 7 1 4) ∧
  decodeWord (0x40000000 + 0x3E * 2 ^ 24 + 2 * 2 ^ 22 + 3 * 2 ^ 14 + 0x3FFE) = .ok (.brnz 2 (.v 3) 0x3FFE) ∧
  decodeWord (0x40000000 + 0x3F * 2 ^ 24 + 5 * 2 ^ 16 + 3) = .ok (.wait 5) ∧
  decodeWord (0x80000000 + 0x02 * 2 ^ 24 + 0xC3 * 2 ^ 16 + 0x8001) = .ok (.umovi false (.s 3) 0x8001) ∧
  decodeWord (0xC0000000 + 0x1F * 2 ^ 24 + 0xC8 * 2 ^ 16 + 0x7FFF) = .ok (.ucall (.s 8) 0x7FFF) ∧
  decodeWord (0x80000000 + 0x29 * 2 ^ 24 + 3 * 2 ^ 18 + 4 * 2 ^ 13 + 6 * 2 ^ 8 + 2 * 2 ^ 6 + 1 * 2 ^ 4 + 2 * 2 ^ 2 + 3) =
    .ok (.mma false 3 4 6 2 1 2 3) ∧
  decodeWord (0x80000000 + 0x39 * 2 ^ 24 + 0xC0 * 2 ^ 16 + 0xC2 * 2 ^ 8 + 0xC4) = .ok (.kick false (.s 0) (.s 2) (.s 4)) ∧
  decodeWord (0x80000000 + 0x3C * 2 ^ 24 + 1 * 2 ^ 20 + 10 * 2 ^ 4) = .ok (.wgEmit false (.v 10))

/-! ## The step (01_execution_model.md) -/

/-- Time passes, and a step takes the turn that is planned (log 4 says how turns are chosen). In an issue slot that can be used, the word that
the fragment comes to is decoded and executed; one that decodes to nothing traps ILLEGAL on every active lane (R149; before any hold: DEDUCED, log 22); a
slot that cannot be used passes. Around it a step only counts what the bounds of R27, R28 and R171 need, and an
access of the team that was put off is performed first, or the word passes it, or its own is put off (R99; the model's log 6). A fragment whose place in its run is
known comes to the word whose four bytes lie at its program counter, translated for fetch, lowest byte first (R134, R135; memory as it stands
then: the model's log 69). Other turns perform stores of groups, teams, the host and the system cores, note a
sector or a piece for later loads, put off or perform accesses (log 6), forget cached walks (log 14), write what an encode engine
may (log 49), or are an event. -/
def Obligations.StepRunsDecoded : Prop :=
  (∀ (s : State) (x : Turn) (xs : List Turn), s.sched.plan = x :: xs →
    let u : State := { s.settled with sched := { s.settled.sched with plan := xs } }
    (∀ t g l, x = .issue t g l →
      (u.slotUsable t g l = false → step s = .next u) ∧
      (∀ v w, u.slotUsable t g l = true →
        let first : Bool := (u.groupAt t g).map (·.runMask) == some 0
        prepare (((if first then u.countRun t g l else u).setCur (some (t, g, l))).completeSteps t g) = .word v w →
        ∀ c, v.issuer = some c →
          let b := v.beforeWord c (decodeWord w).toOption
          let due : State := if c.grp.lazy = true then b.modGroup c.t c.g fun G => { G with lazy := false } else b
          (c.team.late = [] → b = v) ∧
          (∀ i, decodeWord w = .ok i → (c.grp.lazy = true → ∀ d, b.issuer = some d → b.putOff d i = none) →
            step s = u.settleWait t g l (exec i due)) ∧
          (∀ i d z, decodeWord w = .ok i → c.grp.lazy = true → b.issuer = some d → b.putOff d i = some z →
            step s = u.settleWait t g l (.next z)) ∧
          (∀ e d, decodeWord w = .error e → due.issuer = some d →
            step s = u.settleWait t g l (.next (trapWord due d causeIllegal 0)))) ∧
      (∀ v, u.slotUsable t g l = true →
        let first : Bool := (u.groupAt t g).map (·.runMask) == some 0
        prepare (((if first then u.countRun t g l else u).setCur (some (t, g, l))).completeSteps t g) = .done v →
        step s = .next (v.withWaits u)) ∧
      (∀ v, ∃ ran skips yields, u.settleWait t g l (.next v) =
        .next { v with sched := { v.sched with ran := ran, skips := skips, yields := yields } })) ∧
    (∀ t g n, x = .drain t g n → step s = .next (u.drainOne t g n)) ∧
    (∀ t n, x = .spill t n → step s = .next (u.spillOne t n)) ∧
    (∀ t g n, x = .early t g n → step s = .next (u.noteEarly t g n)) ∧
    (∀ t g n, x = .ahead t g n → step s = .next (u.noteAhead t g n)) ∧
    (∀ t g, x = .putOff t g → step s = .next (u.makeLazy t g)) ∧
    (∀ t, x = .settle t → step s = .next (u.answerLate t)) ∧
    (∀ n, x = .post n → step s = .next (u.postOne n)) ∧
    (∀ core act, x = .system core act → step s = .next (u.systemAct core act)) ∧
    (∀ n, x = .perform n → step s = .next (u.performOne n)) ∧
    (∀ p pa len, x = .media p pa len → step s = .next (u.encodeAt p pa len)) ∧
    (∀ d n, x = .forget d n → step s = .next (u.forgetWalks d n)) ∧
    (∀ i, x = .event i → step s = exec i (u.answerAll.setCur none))) ∧
  (∀ (s : State), ∃ mem parts ran skips yields, s.settled =
    { s.tick with mem := mem, parts := parts, sched := { s.sched with ran := ran, skips := skips, yields := yields } }) ∧
  (∀ (s u : State) (c : Ctx) (pa pbmt n : Nat), s.issuer = some c → c.grp.Whole → c.lanes ≠ [] → n < 24 →
    (∀ l ∈ c.lanes, (c.grp.lane l).inRun = some n) → c.pc % 4 = 0 → canonical c.pc = true → c.pc < windowBase →
    (∀ l ∈ c.lanes, (c.grp.lane l).arrive = false) → (∀ b ∈ c.grp.began, b.lane ∉ c.lanes) → c.grp.pending = none →
    translate s (.core c.team.pcore) c.space c.pc .fetch = .ok u pa pbmt false → remotePa pa = false →
    ∃ v, prepare s = .word v (BitVec.ofNat 32 (leValue [u.byte pa, u.byte (pa + 1), u.byte (pa + 2), u.byte (pa + 3)])) ∧
      v.mem = u.mem ∧ v.issuer.map (fun d => (d.t, d.g, d.lanes, d.pc)) = some (c.t, c.g, c.lanes, c.pc))

/-! ## What every step keeps, and the reset -/

/-- From every state whose memory, poison, frame encodings, poison tracking and flash are in canonical form, a step leads to such a state. -/
def Obligations.StepKeepsMemoryCanonical : Prop :=
  ∀ s t : State, s.Canonical → step s = .next t → t.Canonical

/-- From every state whose tables are in canonical form, whose teams' scratchpads and groups' registers are (those of teams
that a save has taken out too), and in which every group has its 32 lanes and no fragment has a name that is still to be given, a step leads
to such a state. -/
def Obligations.StepKeepsTeamsTidy : Prop :=
  ∀ s t : State, s.Tidy → step s = .next t → t.Tidy

/-- At reset both hold; the module is off, with nothing in memory or flash, no partition, grid or team, no translation or
lock held, every room key free and not in force, every link up. (The reset is the moment before POWER_ON_BOOT: log 1; that every byte reads 0 then: log 2; links: log 31.) -/
def Obligations.ResetState : Prop :=
  State.reset.Canonical ∧ State.reset.Tidy ∧ State.reset.boot.phase = .off ∧ State.reset.boot.flash = [] ∧
  State.reset.parts = [] ∧ State.reset.grids = [] ∧ State.reset.teams = [] ∧ State.reset.ops = [] ∧ State.reset.tokens = [] ∧
  (∀ a, State.reset.byte a = 0 ∧ State.reset.poisoned a = false) ∧
  (∀ c < 256, Tab.get? State.reset.cores c = some Core.reset) ∧
  Core.reset.key.en = false ∧ Core.reset.key.held = false ∧ Core.reset.key.remain = 0 ∧ Core.reset.locks = [] ∧
  Core.reset.tlb = [] ∧ Core.reset.shapes = [] ∧
  (∀ n < 18, Tab.get? State.reset.links n = some ⟨8, 0, 0, 0, 0⟩)

/-! ## What words leave alone -/

/-- The lane words that work on registers leave everything alone but their destination registers, the latches and the program
counter, and those that raise flags add to the lane's status (R172, R187, R50). -/
def Obligations.LaneWordsFrame : Prop :=
  ∀ (s t : State) (c : Ctx) (e : Bool) (d x y : Opd) (i8 : BitVec 8) (n k : BitVec 5) (f : BitVec 1) (m j : BitVec 3) (i : Instr),
    Executes s c i → exec i s = .next t →
    (i ∈ [.iadd e d x y, .isub e d x y, .imul e d x y, .imulhI32 e d x y, .imulhN32 e d x y, .imac e d x y, .iminI32 e d x y,
      .iminN32 e d x y, .imaxI32 e d x y, .imaxN32 e d x y, .and e d x y, .or e d x y, .xor e d x y, .andn e d x y, .shl e d x y,
      .shr e d x y, .sar e d x y, .iaddImm e d x i8, .shlImm e d x n, .shrImm e d x n, .sarImm e d x n, .icmpEq e d x y,
      .icmpNe e d x y, .icmpLtI32 e d x y, .icmpLeI32 e d x y, .icmpLtN32 e d x y, .icmpLeN32 e d x y, .sel e d x y,
      .bfx e d x y, .bfi e d x y, .iabs e d x, .clz e d x, .popc e d x, .brev e d x, .bint2 e d x, .bint3 e d x, .bdeint3 e d x,
      .laneid e d, .shfl e d x y, .shflup e d x n, .shfldn e d x n, .shflx e d x n, .ballot e d x, .voteAny e d x,
      .voteAll e d x] → LaneFrame s t c (destRegs d 1) false c.grp.fifo) ∧
    (i = .lea e d x y → LaneFrame s t c (destRegs d 2) false c.grp.fifo) ∧
    (i ∈ [.faddF32 e d x y, .fsubF32 e d x y, .fmulF32 e d x y, .ffmaF32 e d x y, .fminF32 e d x y, .fmaxF32 e d x y,
      .fcmpEq e d x y, .fcmpLt e d x y, .fcmpLe e d x y, .fcmpUn e d x y, .faddPacked e d x f, .fsubPacked e d x f,
      .fmulPacked e d x f, .ffmaPacked e d x f, .fminPacked e d x f, .fmaxPacked e d x f, .pack2F16X2 e d x y,
      .pack2G16X2 e d x y, .frcp e d x, .frsq e d x, .fsqrt e d x, .fexp2 e d x, .flog2 e d x, .fsin e d x,
      .fcvtF16F32 e d x m, .fcvtG16F32 e d x m, .fcvtF32F16 e d x m, .fcvtF32G16 e d x m, .fcvtI32F32 e d x m,
      .fcvtN32F32 e d x m, .fcvtF32I32 e d x m, .fcvtF32N32 e d x m, .fcvtF32F32 e d x m, .scan e d x k, .red e d x k] →
      LaneFrame s t c (destRegs d 1) true c.grp.fifo) ∧
    (i ∈ [.fcvtQF32 e d x j m, .fcvtF32Q e d x j m] → descValid (Store.get c.grp.f j.toNat) = true →
      LaneFrame s t c (destRegs d 1) true c.grp.fifo) ∧
    (i ∈ [.unpack2F16X2 e d x, .unpack2G16X2 e d x] → LaneFrame s t c (destRegs d 2) true c.grp.fifo)

/-- The uniform words that work on registers leave everything alone but their destination, the uniform latches and the program
counter (R154 to R157, R162, R163); loads and stores leave alone, besides what page walks leave, everything but theirs: a load
changes no byte, and after a store the group reads every byte outside the stored ones as before (R193, R194). YIELD besides puts the group behind its quarter's other ready
groups (R171). -/
def Obligations.UniformAndMemoryFrames : Prop :=
  (∀ (s t : State) (c : Ctx) (e : Bool), Executes s c (.yield e) → exec (.yield e) s = .next t →
    UniFrame (s.yielded c.t c.g) t c []) ∧
  (∀ (s t : State) (c : Ctx) (e : Bool) (d x y : Opd) (i16 : BitVec 16) (i : Instr), Executes s c i → exec i s = .next t →
    i ∈ [.nop e, .umov e d x, .umovi e d i16, .umovhi e d i16, .uadd e d x y, .usub e d x y, .umul e d x y,
      .uand e d x y, .uor e d x y, .uxor e d x y, .ushl e d x y, .ushr e d x y, .usar e d x y, .uminI32 e d x y,
      .uminN32 e d x y, .umaxI32 e d x y, .umaxN32 e d x y, .ucmpEq e d x y, .ucmpNe e d x y, .ucmpLtI32 e d x y,
      .ucmpLeI32 e d x y, .ucmpLtN32 e d x y, .ucmpLeN32 e d x y, .usel e d x y, .ureadlane e d x y, .ufirst e d] →
    UniFrame s t c (if i = .nop e then [] else destRegs d 1)) ∧
  (∀ (s u t : State) (c : Ctx) (e : Bool) (d x : Opd) (o : BitVec 8) (i : Instr) (n : Nat) (ps : Nat → List Place),
    (i, n) ∈ [(.ldB e d x o, 1), (.ldH e d x o, 2), (.ldW e d x o, 4), (.ldD e d x o, 8), (.ldO e d x o, 16)] →
    Executes s c i → Reaches c .read n (fun l => addOffset (c.grp.pairVal (c.grp.lane l) x) (o.toInt * n)) ps c.lanes s u →
    (∀ l ∈ c.lanes, c.Here .read l (ps l)) → exec i s = .next t →
    LaneFrame u t c (destRegs d (max 1 (n / 4))) false c.grp.fifo ∧ u.teams = s.teams) ∧
  (∀ (s u t : State) (c : Ctx) (e : Bool) (d x : Opd) (o : BitVec 8) (i : Instr) (n : Nat) (ps : Nat → List Place),
    (i, n) ∈ [(.stB e d x o, 1), (.stH e d x o, 2), (.stW e d x o, 4), (.stD e d x o, 8), (.stO e d x o, 16)] →
    Executes s c i → Reaches c .write n (fun l => addOffset (c.grp.pairVal (c.grp.lane l) x) (o.toInt * n)) ps c.storers s u →
    (∀ l ∈ c.storers, c.Here .write l (ps l)) → exec i s = .next t →
    ∃ fifo, LaneFrame u t c [] false fifo ∧ u.teams = s.teams ∧
      ∀ p, (∀ l ∈ c.storers, p ∉ ps l) → forwarded fifo p = forwarded c.grp.fifo p)

/-- The walk of the page tables (R326 to R329): from the root through good pointers, an entry ends it with the failure of the first
check that it does not pass (poison, a table outside the partition's memory with CAUSE 4, V = 0, malformed, a pointer at level 0
among them; their order, that CAUSE and that last one are DEDUCED or chosen, log 17; LOD is the L bit of a leaf or of a last entry), or, as a leaf, with PERMISSION when U, R, W or X does not grant the access, RANGE when its frame lies
outside the partition's memory and, under GS, the pool; else with the address, A set, and D for a write, and nothing else of
memory changed. The Z and P bits settle how the frame is held (logs 18 and 65). A cached leaf that grants an access answers it
without a walk; a walk for a core leaves its leaf in the core's TLB, of 512 entries (R330; which one goes is log 14). -/
def Obligations.WalksTranslate : Prop :=
  (∀ (s : State) (sp : Space) (va level ppn : Nat) (k : AccKind), s.Canonical → canonical va = true → Descends s sp va level ppn →
    let a := pteAt va level ppn
    let e := s.physValue a 8
    let f (lo n : Nat) : Nat := e / 2 ^ lo % 2 ^ n
    let leaf := f 1 3 ≠ 0
    let fails (cause : Nat) (lod : Prop) : Prop := ∃ b : Bool, translate s .none sp va k = .fail ⟨cause, level, b⟩ ∧ (b = true ↔ lod)
    let reads := k = .load ∨ k = .engineRead ∨ k = .atomic
    let writes := k = .store ∨ k = .engineWrite ∨ k = .atomic
    let granted := f 4 1 = 1 ∧ (reads → f 1 1 = 1) ∧ (writes → f 2 1 = 1) ∧ (k = .fetch → f 3 1 = 1)
    let base := 4096 * f 10 44
    let size := 2 ^ (12 + 9 * level)
    let owned := if f 59 1 = 1 then s.inPool base size = true
      else ∃ P, Tab.get? s.parts sp.part = some P ∧ P.cfg.holds base size = true
    let pa := base + va % size
    (s.poisoned a = true → fails 5 False) ∧
    (s.poisoned a = false → s.ownRange sp.part a 8 = false → fails 4 False) ∧
    (s.poisoned a = false → s.ownRange sp.part a 8 = true →
      (f 0 1 = 0 → fails 1 ((leaf ∨ level = 0) ∧ f 54 1 = 1)) ∧
      (f 0 1 = 1 → Malformed e level → fails 3 (leaf ∧ f 54 1 = 1)) ∧
      (f 0 1 = 1 → ¬Malformed e level → leaf →
        (¬granted → fails 2 (f 54 1 = 1)) ∧
        (granted → remotePa base = false → ¬owned → fails 4 (f 54 1 = 1)) ∧
        (granted → remotePa base = false → owned → ∃ t mixed, translate s .none sp va k = .ok t pa (f 61 2) mixed ∧
          t = { s with mem := t.mem, enc := t.enc, prot := t.prot } ∧
          t.physValue a 8 = e + (if f 6 1 = 0 then 64 else 0) + (if f 7 1 = 0 ∧ k.writes = true then 128 else 0) ∧
          (∀ x, x ≠ a → t.byte x = s.byte x) ∧
          Store.get t.enc (pa / 4096) = (if Store.get s.enc (pa / 4096) = 0 then zCode (f 55 1) else Store.get s.enc (pa / 4096)) ∧
          (mixed = true ↔ Store.get t.enc (pa / 4096) ≠ zCode (f 55 1)) ∧ Store.get t.prot (pa / 4096) = pCode (f 56 1))))) ∧
  (∀ (s : State) (sp : Space) (va c : Nat) (k : AccKind) (K : Core), canonical va = true → Tab.get? s.cores c = some K →
    let answers (x : TlbEntry) : Prop := x.covers sp va = true ∧ leafGrants x.pte.toNat k = true ∧
      frameOk s sp x.pte.toNat x.level va = none ∧ x.pte.toNat / 2 ^ 6 % 2 = 1 ∧ (k.writes = true → x.pte.toNat / 2 ^ 7 % 2 = 1)
    ((∃ x ∈ K.tlb, answers x) → ∃ x ∈ K.tlb, answers x ∧ ∃ t pbmt mixed,
      translate s (.core c) sp va k = .ok t (4096 * (x.pte.toNat / 2 ^ 10 % 2 ^ 44) + va % leafSize x.level) pbmt mixed ∧
      t = { s with enc := t.enc, prot := t.prot }) ∧
    ((∀ x ∈ K.tlb, ¬answers x) → K.walks = [] →
      (∀ f, translate s .none sp va k = .fail f → translate s (.core c) sp va k = .fail f) ∧
      (∀ t pa pbmt mixed, translate s .none sp va k = .ok t pa pbmt mixed →
        ∃ cores L, translate s (.core c) sp va k = .ok { t with cores := cores } pa pbmt mixed ∧ EntryOnly s.cores cores c L ∧
          L = { K with tlb := L.tlb, walks := L.walks } ∧ (K.tlb.length ≤ 512 → L.tlb.length ≤ 512) ∧
          ∃ x ∈ L.tlb, x.covers sp va = true ∧ 4096 * (x.pte.toNat / 2 ^ 10 % 2 ^ 44) + va % leafSize x.level = pa)))
end

