-- ==== Sys2Proof/Laws/State.lean ====
section
/-!
SUPPORT. What each update of the state leaves alone: one lemma per field per update.
-/
namespace Sys2Proof.Machine

/-! ## Fields of the device kept by the updates of one table -/

@[simp] theorem State.modPart_mem (s : State) (p : Nat) (f : Part → Part) : (s.modPart p f).mem = s.mem := rfl
@[simp] theorem State.modPart_poison (s : State) (p : Nat) (f : Part → Part) : (s.modPart p f).poison = s.poison := rfl
@[simp] theorem State.modPart_enc (s : State) (p : Nat) (f : Part → Part) : (s.modPart p f).enc = s.enc := rfl
@[simp] theorem State.modPart_prot (s : State) (p : Nat) (f : Part → Part) : (s.modPart p f).prot = s.prot := rfl
@[simp] theorem State.modPart_boot (s : State) (p : Nat) (f : Part → Part) : (s.modPart p f).boot = s.boot := rfl
@[simp] theorem State.modPart_cores (s : State) (p : Nat) (f : Part → Part) : (s.modPart p f).cores = s.cores := rfl
@[simp] theorem State.modPart_dies (s : State) (p : Nat) (f : Part → Part) : (s.modPart p f).dies = s.dies := rfl
@[simp] theorem State.modPart_grids (s : State) (p : Nat) (f : Part → Part) : (s.modPart p f).grids = s.grids := rfl
@[simp] theorem State.modPart_teams (s : State) (p : Nat) (f : Part → Part) : (s.modPart p f).teams = s.teams := rfl
@[simp] theorem State.modPart_ops (s : State) (p : Nat) (f : Part → Part) : (s.modPart p f).ops = s.ops := rfl
@[simp] theorem State.modPart_tokens (s : State) (p : Nat) (f : Part → Part) : (s.modPart p f).tokens = s.tokens := rfl
@[simp] theorem State.modPart_stewards (s : State) (p : Nat) (f : Part → Part) : (s.modPart p f).stewards = s.stewards := rfl
@[simp] theorem State.modPart_links (s : State) (p : Nat) (f : Part → Part) : (s.modPart p f).links = s.links := rfl
@[simp] theorem State.modPart_flowsOut (s : State) (p : Nat) (f : Part → Part) : (s.modPart p f).flowsOut = s.flowsOut := rfl
@[simp] theorem State.modPart_flowsIn (s : State) (p : Nat) (f : Part → Part) : (s.modPart p f).flowsIn = s.flowsIn := rfl
@[simp] theorem State.modPart_remotes (s : State) (p : Nat) (f : Part → Part) : (s.modPart p f).remotes = s.remotes := rfl
@[simp] theorem State.modPart_posted (s : State) (p : Nat) (f : Part → Part) : (s.modPart p f).posted = s.posted := rfl
@[simp] theorem State.modPart_systems (s : State) (p : Nat) (f : Part → Part) : (s.modPart p f).systems = s.systems := rfl
@[simp] theorem State.modPart_shelf (s : State) (p : Nat) (f : Part → Part) : (s.modPart p f).shelf = s.shelf := rfl
@[simp] theorem State.modPart_timeBound (s : State) (p : Nat) (f : Part → Part) : (s.modPart p f).timeBound = s.timeBound := rfl
@[simp] theorem State.modPart_time (s : State) (p : Nat) (f : Part → Part) : (s.modPart p f).time = s.time := rfl
@[simp] theorem State.modPart_cycles (s : State) (p : Nat) (f : Part → Part) : (s.modPart p f).cycles = s.cycles := rfl
@[simp] theorem State.modPart_steps (s : State) (p : Nat) (f : Part → Part) : (s.modPart p f).steps = s.steps := rfl
@[simp] theorem State.modPart_fresh (s : State) (p : Nat) (f : Part → Part) : (s.modPart p f).fresh = s.fresh := rfl
@[simp] theorem State.modPart_hostReply (s : State) (p : Nat) (f : Part → Part) : (s.modPart p f).hostReply = s.hostReply := rfl
@[simp] theorem State.modPart_hostRetry (s : State) (p : Nat) (f : Part → Part) : (s.modPart p f).hostRetry = s.hostRetry := rfl
@[simp] theorem State.modPart_sched (s : State) (p : Nat) (f : Part → Part) : (s.modPart p f).sched = s.sched := rfl
@[simp] theorem State.modCore_mem (s : State) (c : Nat) (f : Core → Core) : (s.modCore c f).mem = s.mem := rfl
@[simp] theorem State.modCore_poison (s : State) (c : Nat) (f : Core → Core) : (s.modCore c f).poison = s.poison := rfl
@[simp] theorem State.modCore_enc (s : State) (c : Nat) (f : Core → Core) : (s.modCore c f).enc = s.enc := rfl
@[simp] theorem State.modCore_prot (s : State) (c : Nat) (f : Core → Core) : (s.modCore c f).prot = s.prot := rfl
@[simp] theorem State.modCore_boot (s : State) (c : Nat) (f : Core → Core) : (s.modCore c f).boot = s.boot := rfl
@[simp] theorem State.modCore_parts (s : State) (c : Nat) (f : Core → Core) : (s.modCore c f).parts = s.parts := rfl
@[simp] theorem State.modCore_dies (s : State) (c : Nat) (f : Core → Core) : (s.modCore c f).dies = s.dies := rfl
@[simp] theorem State.modCore_grids (s : State) (c : Nat) (f : Core → Core) : (s.modCore c f).grids = s.grids := rfl
@[simp] theorem State.modCore_teams (s : State) (c : Nat) (f : Core → Core) : (s.modCore c f).teams = s.teams := rfl
@[simp] theorem State.modCore_ops (s : State) (c : Nat) (f : Core → Core) : (s.modCore c f).ops = s.ops := rfl
@[simp] theorem State.modCore_tokens (s : State) (c : Nat) (f : Core → Core) : (s.modCore c f).tokens = s.tokens := rfl
@[simp] theorem State.modCore_stewards (s : State) (c : Nat) (f : Core → Core) : (s.modCore c f).stewards = s.stewards := rfl
@[simp] theorem State.modCore_links (s : State) (c : Nat) (f : Core → Core) : (s.modCore c f).links = s.links := rfl
@[simp] theorem State.modCore_flowsOut (s : State) (c : Nat) (f : Core → Core) : (s.modCore c f).flowsOut = s.flowsOut := rfl
@[simp] theorem State.modCore_flowsIn (s : State) (c : Nat) (f : Core → Core) : (s.modCore c f).flowsIn = s.flowsIn := rfl
@[simp] theorem State.modCore_remotes (s : State) (c : Nat) (f : Core → Core) : (s.modCore c f).remotes = s.remotes := rfl
@[simp] theorem State.modCore_posted (s : State) (c : Nat) (f : Core → Core) : (s.modCore c f).posted = s.posted := rfl
@[simp] theorem State.modCore_systems (s : State) (c : Nat) (f : Core → Core) : (s.modCore c f).systems = s.systems := rfl
@[simp] theorem State.modCore_shelf (s : State) (c : Nat) (f : Core → Core) : (s.modCore c f).shelf = s.shelf := rfl
@[simp] theorem State.modCore_timeBound (s : State) (c : Nat) (f : Core → Core) : (s.modCore c f).timeBound = s.timeBound := rfl
@[simp] theorem State.modCore_time (s : State) (c : Nat) (f : Core → Core) : (s.modCore c f).time = s.time := rfl
@[simp] theorem State.modCore_cycles (s : State) (c : Nat) (f : Core → Core) : (s.modCore c f).cycles = s.cycles := rfl
@[simp] theorem State.modCore_steps (s : State) (c : Nat) (f : Core → Core) : (s.modCore c f).steps = s.steps := rfl
@[simp] theorem State.modCore_fresh (s : State) (c : Nat) (f : Core → Core) : (s.modCore c f).fresh = s.fresh := rfl
@[simp] theorem State.modCore_hostReply (s : State) (c : Nat) (f : Core → Core) : (s.modCore c f).hostReply = s.hostReply := rfl
@[simp] theorem State.modCore_hostRetry (s : State) (c : Nat) (f : Core → Core) : (s.modCore c f).hostRetry = s.hostRetry := rfl
@[simp] theorem State.modCore_sched (s : State) (c : Nat) (f : Core → Core) : (s.modCore c f).sched = s.sched := rfl
@[simp] theorem State.modDie_mem (s : State) (d : Nat) (f : Die → Die) : (s.modDie d f).mem = s.mem := rfl
@[simp] theorem State.modDie_poison (s : State) (d : Nat) (f : Die → Die) : (s.modDie d f).poison = s.poison := rfl
@[simp] theorem State.modDie_enc (s : State) (d : Nat) (f : Die → Die) : (s.modDie d f).enc = s.enc := rfl
@[simp] theorem State.modDie_prot (s : State) (d : Nat) (f : Die → Die) : (s.modDie d f).prot = s.prot := rfl
@[simp] theorem State.modDie_boot (s : State) (d : Nat) (f : Die → Die) : (s.modDie d f).boot = s.boot := rfl
@[simp] theorem State.modDie_parts (s : State) (d : Nat) (f : Die → Die) : (s.modDie d f).parts = s.parts := rfl
@[simp] theorem State.modDie_cores (s : State) (d : Nat) (f : Die → Die) : (s.modDie d f).cores = s.cores := rfl
@[simp] theorem State.modDie_grids (s : State) (d : Nat) (f : Die → Die) : (s.modDie d f).grids = s.grids := rfl
@[simp] theorem State.modDie_teams (s : State) (d : Nat) (f : Die → Die) : (s.modDie d f).teams = s.teams := rfl
@[simp] theorem State.modDie_ops (s : State) (d : Nat) (f : Die → Die) : (s.modDie d f).ops = s.ops := rfl
@[simp] theorem State.modDie_tokens (s : State) (d : Nat) (f : Die → Die) : (s.modDie d f).tokens = s.tokens := rfl
@[simp] theorem State.modDie_stewards (s : State) (d : Nat) (f : Die → Die) : (s.modDie d f).stewards = s.stewards := rfl
@[simp] theorem State.modDie_links (s : State) (d : Nat) (f : Die → Die) : (s.modDie d f).links = s.links := rfl
@[simp] theorem State.modDie_flowsOut (s : State) (d : Nat) (f : Die → Die) : (s.modDie d f).flowsOut = s.flowsOut := rfl
@[simp] theorem State.modDie_flowsIn (s : State) (d : Nat) (f : Die → Die) : (s.modDie d f).flowsIn = s.flowsIn := rfl
@[simp] theorem State.modDie_remotes (s : State) (d : Nat) (f : Die → Die) : (s.modDie d f).remotes = s.remotes := rfl
@[simp] theorem State.modDie_posted (s : State) (d : Nat) (f : Die → Die) : (s.modDie d f).posted = s.posted := rfl
@[simp] theorem State.modDie_systems (s : State) (d : Nat) (f : Die → Die) : (s.modDie d f).systems = s.systems := rfl
@[simp] theorem State.modDie_shelf (s : State) (d : Nat) (f : Die → Die) : (s.modDie d f).shelf = s.shelf := rfl
@[simp] theorem State.modDie_timeBound (s : State) (d : Nat) (f : Die → Die) : (s.modDie d f).timeBound = s.timeBound := rfl
@[simp] theorem State.modDie_time (s : State) (d : Nat) (f : Die → Die) : (s.modDie d f).time = s.time := rfl
@[simp] theorem State.modDie_cycles (s : State) (d : Nat) (f : Die → Die) : (s.modDie d f).cycles = s.cycles := rfl
@[simp] theorem State.modDie_steps (s : State) (d : Nat) (f : Die → Die) : (s.modDie d f).steps = s.steps := rfl
@[simp] theorem State.modDie_fresh (s : State) (d : Nat) (f : Die → Die) : (s.modDie d f).fresh = s.fresh := rfl
@[simp] theorem State.modDie_hostReply (s : State) (d : Nat) (f : Die → Die) : (s.modDie d f).hostReply = s.hostReply := rfl
@[simp] theorem State.modDie_hostRetry (s : State) (d : Nat) (f : Die → Die) : (s.modDie d f).hostRetry = s.hostRetry := rfl
@[simp] theorem State.modDie_sched (s : State) (d : Nat) (f : Die → Die) : (s.modDie d f).sched = s.sched := rfl
@[simp] theorem State.modTeam_mem (s : State) (t : Nat) (f : Team → Team) : (s.modTeam t f).mem = s.mem := rfl
@[simp] theorem State.modTeam_poison (s : State) (t : Nat) (f : Team → Team) : (s.modTeam t f).poison = s.poison := rfl
@[simp] theorem State.modTeam_enc (s : State) (t : Nat) (f : Team → Team) : (s.modTeam t f).enc = s.enc := rfl
@[simp] theorem State.modTeam_prot (s : State) (t : Nat) (f : Team → Team) : (s.modTeam t f).prot = s.prot := rfl
@[simp] theorem State.modTeam_boot (s : State) (t : Nat) (f : Team → Team) : (s.modTeam t f).boot = s.boot := rfl
@[simp] theorem State.modTeam_parts (s : State) (t : Nat) (f : Team → Team) : (s.modTeam t f).parts = s.parts := rfl
@[simp] theorem State.modTeam_cores (s : State) (t : Nat) (f : Team → Team) : (s.modTeam t f).cores = s.cores := rfl
@[simp] theorem State.modTeam_dies (s : State) (t : Nat) (f : Team → Team) : (s.modTeam t f).dies = s.dies := rfl
@[simp] theorem State.modTeam_grids (s : State) (t : Nat) (f : Team → Team) : (s.modTeam t f).grids = s.grids := rfl
@[simp] theorem State.modTeam_ops (s : State) (t : Nat) (f : Team → Team) : (s.modTeam t f).ops = s.ops := rfl
@[simp] theorem State.modTeam_tokens (s : State) (t : Nat) (f : Team → Team) : (s.modTeam t f).tokens = s.tokens := rfl
@[simp] theorem State.modTeam_stewards (s : State) (t : Nat) (f : Team → Team) : (s.modTeam t f).stewards = s.stewards := rfl
@[simp] theorem State.modTeam_links (s : State) (t : Nat) (f : Team → Team) : (s.modTeam t f).links = s.links := rfl
@[simp] theorem State.modTeam_flowsOut (s : State) (t : Nat) (f : Team → Team) : (s.modTeam t f).flowsOut = s.flowsOut := rfl
@[simp] theorem State.modTeam_flowsIn (s : State) (t : Nat) (f : Team → Team) : (s.modTeam t f).flowsIn = s.flowsIn := rfl
@[simp] theorem State.modTeam_remotes (s : State) (t : Nat) (f : Team → Team) : (s.modTeam t f).remotes = s.remotes := rfl
@[simp] theorem State.modTeam_posted (s : State) (t : Nat) (f : Team → Team) : (s.modTeam t f).posted = s.posted := rfl
@[simp] theorem State.modTeam_systems (s : State) (t : Nat) (f : Team → Team) : (s.modTeam t f).systems = s.systems := rfl
@[simp] theorem State.modTeam_shelf (s : State) (t : Nat) (f : Team → Team) : (s.modTeam t f).shelf = s.shelf := rfl
@[simp] theorem State.modTeam_timeBound (s : State) (t : Nat) (f : Team → Team) : (s.modTeam t f).timeBound = s.timeBound := rfl
@[simp] theorem State.modTeam_time (s : State) (t : Nat) (f : Team → Team) : (s.modTeam t f).time = s.time := rfl
@[simp] theorem State.modTeam_cycles (s : State) (t : Nat) (f : Team → Team) : (s.modTeam t f).cycles = s.cycles := rfl
@[simp] theorem State.modTeam_steps (s : State) (t : Nat) (f : Team → Team) : (s.modTeam t f).steps = s.steps := rfl
@[simp] theorem State.modTeam_fresh (s : State) (t : Nat) (f : Team → Team) : (s.modTeam t f).fresh = s.fresh := rfl
@[simp] theorem State.modTeam_hostReply (s : State) (t : Nat) (f : Team → Team) : (s.modTeam t f).hostReply = s.hostReply := rfl
@[simp] theorem State.modTeam_hostRetry (s : State) (t : Nat) (f : Team → Team) : (s.modTeam t f).hostRetry = s.hostRetry := rfl
@[simp] theorem State.modTeam_sched (s : State) (t : Nat) (f : Team → Team) : (s.modTeam t f).sched = s.sched := rfl
@[simp] theorem State.modGrid_mem (s : State) (g : Nat) (f : Grid → Grid) : (s.modGrid g f).mem = s.mem := rfl
@[simp] theorem State.modGrid_poison (s : State) (g : Nat) (f : Grid → Grid) : (s.modGrid g f).poison = s.poison := rfl
@[simp] theorem State.modGrid_enc (s : State) (g : Nat) (f : Grid → Grid) : (s.modGrid g f).enc = s.enc := rfl
@[simp] theorem State.modGrid_prot (s : State) (g : Nat) (f : Grid → Grid) : (s.modGrid g f).prot = s.prot := rfl
@[simp] theorem State.modGrid_boot (s : State) (g : Nat) (f : Grid → Grid) : (s.modGrid g f).boot = s.boot := rfl
@[simp] theorem State.modGrid_parts (s : State) (g : Nat) (f : Grid → Grid) : (s.modGrid g f).parts = s.parts := rfl
@[simp] theorem State.modGrid_cores (s : State) (g : Nat) (f : Grid → Grid) : (s.modGrid g f).cores = s.cores := rfl
@[simp] theorem State.modGrid_dies (s : State) (g : Nat) (f : Grid → Grid) : (s.modGrid g f).dies = s.dies := rfl
@[simp] theorem State.modGrid_teams (s : State) (g : Nat) (f : Grid → Grid) : (s.modGrid g f).teams = s.teams := rfl
@[simp] theorem State.modGrid_ops (s : State) (g : Nat) (f : Grid → Grid) : (s.modGrid g f).ops = s.ops := rfl
@[simp] theorem State.modGrid_tokens (s : State) (g : Nat) (f : Grid → Grid) : (s.modGrid g f).tokens = s.tokens := rfl
@[simp] theorem State.modGrid_stewards (s : State) (g : Nat) (f : Grid → Grid) : (s.modGrid g f).stewards = s.stewards := rfl
@[simp] theorem State.modGrid_links (s : State) (g : Nat) (f : Grid → Grid) : (s.modGrid g f).links = s.links := rfl
@[simp] theorem State.modGrid_flowsOut (s : State) (g : Nat) (f : Grid → Grid) : (s.modGrid g f).flowsOut = s.flowsOut := rfl
@[simp] theorem State.modGrid_flowsIn (s : State) (g : Nat) (f : Grid → Grid) : (s.modGrid g f).flowsIn = s.flowsIn := rfl
@[simp] theorem State.modGrid_remotes (s : State) (g : Nat) (f : Grid → Grid) : (s.modGrid g f).remotes = s.remotes := rfl
@[simp] theorem State.modGrid_posted (s : State) (g : Nat) (f : Grid → Grid) : (s.modGrid g f).posted = s.posted := rfl
@[simp] theorem State.modGrid_systems (s : State) (g : Nat) (f : Grid → Grid) : (s.modGrid g f).systems = s.systems := rfl
@[simp] theorem State.modGrid_shelf (s : State) (g : Nat) (f : Grid → Grid) : (s.modGrid g f).shelf = s.shelf := rfl
@[simp] theorem State.modGrid_timeBound (s : State) (g : Nat) (f : Grid → Grid) : (s.modGrid g f).timeBound = s.timeBound := rfl
@[simp] theorem State.modGrid_time (s : State) (g : Nat) (f : Grid → Grid) : (s.modGrid g f).time = s.time := rfl
@[simp] theorem State.modGrid_cycles (s : State) (g : Nat) (f : Grid → Grid) : (s.modGrid g f).cycles = s.cycles := rfl
@[simp] theorem State.modGrid_steps (s : State) (g : Nat) (f : Grid → Grid) : (s.modGrid g f).steps = s.steps := rfl
@[simp] theorem State.modGrid_fresh (s : State) (g : Nat) (f : Grid → Grid) : (s.modGrid g f).fresh = s.fresh := rfl
@[simp] theorem State.modGrid_hostReply (s : State) (g : Nat) (f : Grid → Grid) : (s.modGrid g f).hostReply = s.hostReply := rfl
@[simp] theorem State.modGrid_hostRetry (s : State) (g : Nat) (f : Grid → Grid) : (s.modGrid g f).hostRetry = s.hostRetry := rfl
@[simp] theorem State.modGrid_sched (s : State) (g : Nat) (f : Grid → Grid) : (s.modGrid g f).sched = s.sched := rfl
@[simp] theorem State.modGroup_mem (s : State) (t g : Nat) (f : Group → Group) : (s.modGroup t g f).mem = s.mem := rfl
@[simp] theorem State.modGroup_poison (s : State) (t g : Nat) (f : Group → Group) : (s.modGroup t g f).poison = s.poison := rfl
@[simp] theorem State.modGroup_enc (s : State) (t g : Nat) (f : Group → Group) : (s.modGroup t g f).enc = s.enc := rfl
@[simp] theorem State.modGroup_prot (s : State) (t g : Nat) (f : Group → Group) : (s.modGroup t g f).prot = s.prot := rfl
@[simp] theorem State.modGroup_boot (s : State) (t g : Nat) (f : Group → Group) : (s.modGroup t g f).boot = s.boot := rfl
@[simp] theorem State.modGroup_parts (s : State) (t g : Nat) (f : Group → Group) : (s.modGroup t g f).parts = s.parts := rfl
@[simp] theorem State.modGroup_cores (s : State) (t g : Nat) (f : Group → Group) : (s.modGroup t g f).cores = s.cores := rfl
@[simp] theorem State.modGroup_dies (s : State) (t g : Nat) (f : Group → Group) : (s.modGroup t g f).dies = s.dies := rfl
@[simp] theorem State.modGroup_grids (s : State) (t g : Nat) (f : Group → Group) : (s.modGroup t g f).grids = s.grids := rfl
@[simp] theorem State.modGroup_ops (s : State) (t g : Nat) (f : Group → Group) : (s.modGroup t g f).ops = s.ops := rfl
@[simp] theorem State.modGroup_tokens (s : State) (t g : Nat) (f : Group → Group) : (s.modGroup t g f).tokens = s.tokens := rfl
@[simp] theorem State.modGroup_stewards (s : State) (t g : Nat) (f : Group → Group) : (s.modGroup t g f).stewards = s.stewards := rfl
@[simp] theorem State.modGroup_links (s : State) (t g : Nat) (f : Group → Group) : (s.modGroup t g f).links = s.links := rfl
@[simp] theorem State.modGroup_flowsOut (s : State) (t g : Nat) (f : Group → Group) : (s.modGroup t g f).flowsOut = s.flowsOut := rfl
@[simp] theorem State.modGroup_flowsIn (s : State) (t g : Nat) (f : Group → Group) : (s.modGroup t g f).flowsIn = s.flowsIn := rfl
@[simp] theorem State.modGroup_remotes (s : State) (t g : Nat) (f : Group → Group) : (s.modGroup t g f).remotes = s.remotes := rfl
@[simp] theorem State.modGroup_posted (s : State) (t g : Nat) (f : Group → Group) : (s.modGroup t g f).posted = s.posted := rfl
@[simp] theorem State.modGroup_systems (s : State) (t g : Nat) (f : Group → Group) : (s.modGroup t g f).systems = s.systems := rfl
@[simp] theorem State.modGroup_shelf (s : State) (t g : Nat) (f : Group → Group) : (s.modGroup t g f).shelf = s.shelf := rfl
@[simp] theorem State.modGroup_timeBound (s : State) (t g : Nat) (f : Group → Group) : (s.modGroup t g f).timeBound = s.timeBound := rfl
@[simp] theorem State.modGroup_time (s : State) (t g : Nat) (f : Group → Group) : (s.modGroup t g f).time = s.time := rfl
@[simp] theorem State.modGroup_cycles (s : State) (t g : Nat) (f : Group → Group) : (s.modGroup t g f).cycles = s.cycles := rfl
@[simp] theorem State.modGroup_steps (s : State) (t g : Nat) (f : Group → Group) : (s.modGroup t g f).steps = s.steps := rfl
@[simp] theorem State.modGroup_fresh (s : State) (t g : Nat) (f : Group → Group) : (s.modGroup t g f).fresh = s.fresh := rfl
@[simp] theorem State.modGroup_hostReply (s : State) (t g : Nat) (f : Group → Group) : (s.modGroup t g f).hostReply = s.hostReply := rfl
@[simp] theorem State.modGroup_hostRetry (s : State) (t g : Nat) (f : Group → Group) : (s.modGroup t g f).hostRetry = s.hostRetry := rfl
@[simp] theorem State.modGroup_sched (s : State) (t g : Nat) (f : Group → Group) : (s.modGroup t g f).sched = s.sched := rfl
@[simp] theorem State.modLane_mem (s : State) (t g l : Nat) (f : Lane → Lane) : (s.modLane t g l f).mem = s.mem := rfl
@[simp] theorem State.modLane_poison (s : State) (t g l : Nat) (f : Lane → Lane) : (s.modLane t g l f).poison = s.poison := rfl
@[simp] theorem State.modLane_enc (s : State) (t g l : Nat) (f : Lane → Lane) : (s.modLane t g l f).enc = s.enc := rfl
@[simp] theorem State.modLane_prot (s : State) (t g l : Nat) (f : Lane → Lane) : (s.modLane t g l f).prot = s.prot := rfl
@[simp] theorem State.modLane_boot (s : State) (t g l : Nat) (f : Lane → Lane) : (s.modLane t g l f).boot = s.boot := rfl
@[simp] theorem State.modLane_parts (s : State) (t g l : Nat) (f : Lane → Lane) : (s.modLane t g l f).parts = s.parts := rfl
@[simp] theorem State.modLane_cores (s : State) (t g l : Nat) (f : Lane → Lane) : (s.modLane t g l f).cores = s.cores := rfl
@[simp] theorem State.modLane_dies (s : State) (t g l : Nat) (f : Lane → Lane) : (s.modLane t g l f).dies = s.dies := rfl
@[simp] theorem State.modLane_grids (s : State) (t g l : Nat) (f : Lane → Lane) : (s.modLane t g l f).grids = s.grids := rfl
@[simp] theorem State.modLane_ops (s : State) (t g l : Nat) (f : Lane → Lane) : (s.modLane t g l f).ops = s.ops := rfl
@[simp] theorem State.modLane_tokens (s : State) (t g l : Nat) (f : Lane → Lane) : (s.modLane t g l f).tokens = s.tokens := rfl
@[simp] theorem State.modLane_stewards (s : State) (t g l : Nat) (f : Lane → Lane) : (s.modLane t g l f).stewards = s.stewards := rfl
@[simp] theorem State.modLane_links (s : State) (t g l : Nat) (f : Lane → Lane) : (s.modLane t g l f).links = s.links := rfl
@[simp] theorem State.modLane_flowsOut (s : State) (t g l : Nat) (f : Lane → Lane) : (s.modLane t g l f).flowsOut = s.flowsOut := rfl
@[simp] theorem State.modLane_flowsIn (s : State) (t g l : Nat) (f : Lane → Lane) : (s.modLane t g l f).flowsIn = s.flowsIn := rfl
@[simp] theorem State.modLane_remotes (s : State) (t g l : Nat) (f : Lane → Lane) : (s.modLane t g l f).remotes = s.remotes := rfl
@[simp] theorem State.modLane_posted (s : State) (t g l : Nat) (f : Lane → Lane) : (s.modLane t g l f).posted = s.posted := rfl
@[simp] theorem State.modLane_systems (s : State) (t g l : Nat) (f : Lane → Lane) : (s.modLane t g l f).systems = s.systems := rfl
@[simp] theorem State.modLane_shelf (s : State) (t g l : Nat) (f : Lane → Lane) : (s.modLane t g l f).shelf = s.shelf := rfl
@[simp] theorem State.modLane_timeBound (s : State) (t g l : Nat) (f : Lane → Lane) : (s.modLane t g l f).timeBound = s.timeBound := rfl
@[simp] theorem State.modLane_time (s : State) (t g l : Nat) (f : Lane → Lane) : (s.modLane t g l f).time = s.time := rfl
@[simp] theorem State.modLane_cycles (s : State) (t g l : Nat) (f : Lane → Lane) : (s.modLane t g l f).cycles = s.cycles := rfl
@[simp] theorem State.modLane_steps (s : State) (t g l : Nat) (f : Lane → Lane) : (s.modLane t g l f).steps = s.steps := rfl
@[simp] theorem State.modLane_fresh (s : State) (t g l : Nat) (f : Lane → Lane) : (s.modLane t g l f).fresh = s.fresh := rfl
@[simp] theorem State.modLane_hostReply (s : State) (t g l : Nat) (f : Lane → Lane) : (s.modLane t g l f).hostReply = s.hostReply := rfl
@[simp] theorem State.modLane_hostRetry (s : State) (t g l : Nat) (f : Lane → Lane) : (s.modLane t g l f).hostRetry = s.hostRetry := rfl
@[simp] theorem State.modLane_sched (s : State) (t g l : Nat) (f : Lane → Lane) : (s.modLane t g l f).sched = s.sched := rfl
@[simp] theorem State.writePhys_poison (s : State) (a : Nat) (bs : List Byte) : (s.writePhys a bs).poison = s.poison := rfl
@[simp] theorem State.writePhys_enc (s : State) (a : Nat) (bs : List Byte) : (s.writePhys a bs).enc = s.enc := rfl
@[simp] theorem State.writePhys_prot (s : State) (a : Nat) (bs : List Byte) : (s.writePhys a bs).prot = s.prot := rfl
@[simp] theorem State.writePhys_boot (s : State) (a : Nat) (bs : List Byte) : (s.writePhys a bs).boot = s.boot := rfl
@[simp] theorem State.writePhys_parts (s : State) (a : Nat) (bs : List Byte) : (s.writePhys a bs).parts = s.parts := rfl
@[simp] theorem State.writePhys_cores (s : State) (a : Nat) (bs : List Byte) : (s.writePhys a bs).cores = s.cores := rfl
@[simp] theorem State.writePhys_dies (s : State) (a : Nat) (bs : List Byte) : (s.writePhys a bs).dies = s.dies := rfl
@[simp] theorem State.writePhys_grids (s : State) (a : Nat) (bs : List Byte) : (s.writePhys a bs).grids = s.grids := rfl
@[simp] theorem State.writePhys_teams (s : State) (a : Nat) (bs : List Byte) : (s.writePhys a bs).teams = s.teams := rfl
@[simp] theorem State.writePhys_ops (s : State) (a : Nat) (bs : List Byte) : (s.writePhys a bs).ops = s.ops := rfl
@[simp] theorem State.writePhys_tokens (s : State) (a : Nat) (bs : List Byte) : (s.writePhys a bs).tokens = s.tokens := rfl
@[simp] theorem State.writePhys_stewards (s : State) (a : Nat) (bs : List Byte) : (s.writePhys a bs).stewards = s.stewards := rfl
@[simp] theorem State.writePhys_links (s : State) (a : Nat) (bs : List Byte) : (s.writePhys a bs).links = s.links := rfl
@[simp] theorem State.writePhys_flowsOut (s : State) (a : Nat) (bs : List Byte) : (s.writePhys a bs).flowsOut = s.flowsOut := rfl
@[simp] theorem State.writePhys_flowsIn (s : State) (a : Nat) (bs : List Byte) : (s.writePhys a bs).flowsIn = s.flowsIn := rfl
@[simp] theorem State.writePhys_remotes (s : State) (a : Nat) (bs : List Byte) : (s.writePhys a bs).remotes = s.remotes := rfl
@[simp] theorem State.writePhys_posted (s : State) (a : Nat) (bs : List Byte) : (s.writePhys a bs).posted = s.posted := rfl
@[simp] theorem State.writePhys_systems (s : State) (a : Nat) (bs : List Byte) : (s.writePhys a bs).systems = s.systems := rfl
@[simp] theorem State.writePhys_shelf (s : State) (a : Nat) (bs : List Byte) : (s.writePhys a bs).shelf = s.shelf := rfl
@[simp] theorem State.writePhys_timeBound (s : State) (a : Nat) (bs : List Byte) : (s.writePhys a bs).timeBound = s.timeBound := rfl
@[simp] theorem State.writePhys_time (s : State) (a : Nat) (bs : List Byte) : (s.writePhys a bs).time = s.time := rfl
@[simp] theorem State.writePhys_cycles (s : State) (a : Nat) (bs : List Byte) : (s.writePhys a bs).cycles = s.cycles := rfl
@[simp] theorem State.writePhys_steps (s : State) (a : Nat) (bs : List Byte) : (s.writePhys a bs).steps = s.steps := rfl
@[simp] theorem State.writePhys_fresh (s : State) (a : Nat) (bs : List Byte) : (s.writePhys a bs).fresh = s.fresh := rfl
@[simp] theorem State.writePhys_hostReply (s : State) (a : Nat) (bs : List Byte) : (s.writePhys a bs).hostReply = s.hostReply := rfl
@[simp] theorem State.writePhys_hostRetry (s : State) (a : Nat) (bs : List Byte) : (s.writePhys a bs).hostRetry = s.hostRetry := rfl
@[simp] theorem State.writePhys_sched (s : State) (a : Nat) (bs : List Byte) : (s.writePhys a bs).sched = s.sched := rfl
@[simp] theorem State.setPoison_mem (s : State) (a : Nat) (on : Bool) : (s.setPoison a on).mem = s.mem := rfl
@[simp] theorem State.setPoison_enc (s : State) (a : Nat) (on : Bool) : (s.setPoison a on).enc = s.enc := rfl
@[simp] theorem State.setPoison_prot (s : State) (a : Nat) (on : Bool) : (s.setPoison a on).prot = s.prot := rfl
@[simp] theorem State.setPoison_boot (s : State) (a : Nat) (on : Bool) : (s.setPoison a on).boot = s.boot := rfl
@[simp] theorem State.setPoison_parts (s : State) (a : Nat) (on : Bool) : (s.setPoison a on).parts = s.parts := rfl
@[simp] theorem State.setPoison_cores (s : State) (a : Nat) (on : Bool) : (s.setPoison a on).cores = s.cores := rfl
@[simp] theorem State.setPoison_dies (s : State) (a : Nat) (on : Bool) : (s.setPoison a on).dies = s.dies := rfl
@[simp] theorem State.setPoison_grids (s : State) (a : Nat) (on : Bool) : (s.setPoison a on).grids = s.grids := rfl
@[simp] theorem State.setPoison_teams (s : State) (a : Nat) (on : Bool) : (s.setPoison a on).teams = s.teams := rfl
@[simp] theorem State.setPoison_ops (s : State) (a : Nat) (on : Bool) : (s.setPoison a on).ops = s.ops := rfl
@[simp] theorem State.setPoison_tokens (s : State) (a : Nat) (on : Bool) : (s.setPoison a on).tokens = s.tokens := rfl
@[simp] theorem State.setPoison_stewards (s : State) (a : Nat) (on : Bool) : (s.setPoison a on).stewards = s.stewards := rfl
@[simp] theorem State.setPoison_links (s : State) (a : Nat) (on : Bool) : (s.setPoison a on).links = s.links := rfl
@[simp] theorem State.setPoison_flowsOut (s : State) (a : Nat) (on : Bool) : (s.setPoison a on).flowsOut = s.flowsOut := rfl
@[simp] theorem State.setPoison_flowsIn (s : State) (a : Nat) (on : Bool) : (s.setPoison a on).flowsIn = s.flowsIn := rfl
@[simp] theorem State.setPoison_remotes (s : State) (a : Nat) (on : Bool) : (s.setPoison a on).remotes = s.remotes := rfl
@[simp] theorem State.setPoison_posted (s : State) (a : Nat) (on : Bool) : (s.setPoison a on).posted = s.posted := rfl
@[simp] theorem State.setPoison_systems (s : State) (a : Nat) (on : Bool) : (s.setPoison a on).systems = s.systems := rfl
@[simp] theorem State.setPoison_shelf (s : State) (a : Nat) (on : Bool) : (s.setPoison a on).shelf = s.shelf := rfl
@[simp] theorem State.setPoison_timeBound (s : State) (a : Nat) (on : Bool) : (s.setPoison a on).timeBound = s.timeBound := rfl
@[simp] theorem State.setPoison_time (s : State) (a : Nat) (on : Bool) : (s.setPoison a on).time = s.time := rfl
@[simp] theorem State.setPoison_cycles (s : State) (a : Nat) (on : Bool) : (s.setPoison a on).cycles = s.cycles := rfl
@[simp] theorem State.setPoison_steps (s : State) (a : Nat) (on : Bool) : (s.setPoison a on).steps = s.steps := rfl
@[simp] theorem State.setPoison_fresh (s : State) (a : Nat) (on : Bool) : (s.setPoison a on).fresh = s.fresh := rfl
@[simp] theorem State.setPoison_hostReply (s : State) (a : Nat) (on : Bool) : (s.setPoison a on).hostReply = s.hostReply := rfl
@[simp] theorem State.setPoison_hostRetry (s : State) (a : Nat) (on : Bool) : (s.setPoison a on).hostRetry = s.hostRetry := rfl
@[simp] theorem State.setPoison_sched (s : State) (a : Nat) (on : Bool) : (s.setPoison a on).sched = s.sched := rfl
@[simp] theorem State.setCur_mem (s : State) (x : Option (Nat × Nat × Nat)) : (s.setCur x).mem = s.mem := rfl
@[simp] theorem State.setCur_poison (s : State) (x : Option (Nat × Nat × Nat)) : (s.setCur x).poison = s.poison := rfl
@[simp] theorem State.setCur_enc (s : State) (x : Option (Nat × Nat × Nat)) : (s.setCur x).enc = s.enc := rfl
@[simp] theorem State.setCur_prot (s : State) (x : Option (Nat × Nat × Nat)) : (s.setCur x).prot = s.prot := rfl
@[simp] theorem State.setCur_boot (s : State) (x : Option (Nat × Nat × Nat)) : (s.setCur x).boot = s.boot := rfl
@[simp] theorem State.setCur_parts (s : State) (x : Option (Nat × Nat × Nat)) : (s.setCur x).parts = s.parts := rfl
@[simp] theorem State.setCur_cores (s : State) (x : Option (Nat × Nat × Nat)) : (s.setCur x).cores = s.cores := rfl
@[simp] theorem State.setCur_dies (s : State) (x : Option (Nat × Nat × Nat)) : (s.setCur x).dies = s.dies := rfl
@[simp] theorem State.setCur_grids (s : State) (x : Option (Nat × Nat × Nat)) : (s.setCur x).grids = s.grids := rfl
@[simp] theorem State.setCur_teams (s : State) (x : Option (Nat × Nat × Nat)) : (s.setCur x).teams = s.teams := rfl
@[simp] theorem State.setCur_ops (s : State) (x : Option (Nat × Nat × Nat)) : (s.setCur x).ops = s.ops := rfl
@[simp] theorem State.setCur_tokens (s : State) (x : Option (Nat × Nat × Nat)) : (s.setCur x).tokens = s.tokens := rfl
@[simp] theorem State.setCur_stewards (s : State) (x : Option (Nat × Nat × Nat)) : (s.setCur x).stewards = s.stewards := rfl
@[simp] theorem State.setCur_links (s : State) (x : Option (Nat × Nat × Nat)) : (s.setCur x).links = s.links := rfl
@[simp] theorem State.setCur_flowsOut (s : State) (x : Option (Nat × Nat × Nat)) : (s.setCur x).flowsOut = s.flowsOut := rfl
@[simp] theorem State.setCur_flowsIn (s : State) (x : Option (Nat × Nat × Nat)) : (s.setCur x).flowsIn = s.flowsIn := rfl
@[simp] theorem State.setCur_remotes (s : State) (x : Option (Nat × Nat × Nat)) : (s.setCur x).remotes = s.remotes := rfl
@[simp] theorem State.setCur_posted (s : State) (x : Option (Nat × Nat × Nat)) : (s.setCur x).posted = s.posted := rfl
@[simp] theorem State.setCur_systems (s : State) (x : Option (Nat × Nat × Nat)) : (s.setCur x).systems = s.systems := rfl
@[simp] theorem State.setCur_shelf (s : State) (x : Option (Nat × Nat × Nat)) : (s.setCur x).shelf = s.shelf := rfl
@[simp] theorem State.setCur_timeBound (s : State) (x : Option (Nat × Nat × Nat)) : (s.setCur x).timeBound = s.timeBound := rfl
@[simp] theorem State.setCur_time (s : State) (x : Option (Nat × Nat × Nat)) : (s.setCur x).time = s.time := rfl
@[simp] theorem State.setCur_cycles (s : State) (x : Option (Nat × Nat × Nat)) : (s.setCur x).cycles = s.cycles := rfl
@[simp] theorem State.setCur_steps (s : State) (x : Option (Nat × Nat × Nat)) : (s.setCur x).steps = s.steps := rfl
@[simp] theorem State.setCur_fresh (s : State) (x : Option (Nat × Nat × Nat)) : (s.setCur x).fresh = s.fresh := rfl
@[simp] theorem State.setCur_hostReply (s : State) (x : Option (Nat × Nat × Nat)) : (s.setCur x).hostReply = s.hostReply := rfl
@[simp] theorem State.setCur_hostRetry (s : State) (x : Option (Nat × Nat × Nat)) : (s.setCur x).hostRetry = s.hostRetry := rfl
@[simp] theorem State.useFrame_mem (s : State) (a z : Nat) : (s.useFrame a z).mem = s.mem := by
  unfold State.useFrame; split <;> rfl
@[simp] theorem State.useFrame_poison (s : State) (a z : Nat) : (s.useFrame a z).poison = s.poison := by
  unfold State.useFrame; split <;> rfl
@[simp] theorem State.useFrame_prot (s : State) (a z : Nat) : (s.useFrame a z).prot = s.prot := by
  unfold State.useFrame; split <;> rfl
@[simp] theorem State.useFrame_boot (s : State) (a z : Nat) : (s.useFrame a z).boot = s.boot := by
  unfold State.useFrame; split <;> rfl
@[simp] theorem State.useFrame_parts (s : State) (a z : Nat) : (s.useFrame a z).parts = s.parts := by
  unfold State.useFrame; split <;> rfl
@[simp] theorem State.useFrame_cores (s : State) (a z : Nat) : (s.useFrame a z).cores = s.cores := by
  unfold State.useFrame; split <;> rfl
@[simp] theorem State.useFrame_dies (s : State) (a z : Nat) : (s.useFrame a z).dies = s.dies := by
  unfold State.useFrame; split <;> rfl
@[simp] theorem State.useFrame_grids (s : State) (a z : Nat) : (s.useFrame a z).grids = s.grids := by
  unfold State.useFrame; split <;> rfl
@[simp] theorem State.useFrame_teams (s : State) (a z : Nat) : (s.useFrame a z).teams = s.teams := by
  unfold State.useFrame; split <;> rfl
@[simp] theorem State.useFrame_ops (s : State) (a z : Nat) : (s.useFrame a z).ops = s.ops := by
  unfold State.useFrame; split <;> rfl
@[simp] theorem State.useFrame_tokens (s : State) (a z : Nat) : (s.useFrame a z).tokens = s.tokens := by
  unfold State.useFrame; split <;> rfl
@[simp] theorem State.useFrame_stewards (s : State) (a z : Nat) : (s.useFrame a z).stewards = s.stewards := by
  unfold State.useFrame; split <;> rfl
@[simp] theorem State.useFrame_links (s : State) (a z : Nat) : (s.useFrame a z).links = s.links := by
  unfold State.useFrame; split <;> rfl
@[simp] theorem State.useFrame_flowsOut (s : State) (a z : Nat) : (s.useFrame a z).flowsOut = s.flowsOut := by
  unfold State.useFrame; split <;> rfl
@[simp] theorem State.useFrame_flowsIn (s : State) (a z : Nat) : (s.useFrame a z).flowsIn = s.flowsIn := by
  unfold State.useFrame; split <;> rfl
@[simp] theorem State.useFrame_remotes (s : State) (a z : Nat) : (s.useFrame a z).remotes = s.remotes := by
  unfold State.useFrame; split <;> rfl
@[simp] theorem State.useFrame_posted (s : State) (a z : Nat) : (s.useFrame a z).posted = s.posted := by
  unfold State.useFrame; split <;> rfl
@[simp] theorem State.useFrame_systems (s : State) (a z : Nat) : (s.useFrame a z).systems = s.systems := by
  unfold State.useFrame; split <;> rfl
@[simp] theorem State.useFrame_shelf (s : State) (a z : Nat) : (s.useFrame a z).shelf = s.shelf := by
  unfold State.useFrame; split <;> rfl
@[simp] theorem State.useFrame_timeBound (s : State) (a z : Nat) : (s.useFrame a z).timeBound = s.timeBound := by
  unfold State.useFrame; split <;> rfl
@[simp] theorem State.useFrame_time (s : State) (a z : Nat) : (s.useFrame a z).time = s.time := by
  unfold State.useFrame; split <;> rfl
@[simp] theorem State.useFrame_cycles (s : State) (a z : Nat) : (s.useFrame a z).cycles = s.cycles := by
  unfold State.useFrame; split <;> rfl
@[simp] theorem State.useFrame_steps (s : State) (a z : Nat) : (s.useFrame a z).steps = s.steps := by
  unfold State.useFrame; split <;> rfl
@[simp] theorem State.useFrame_fresh (s : State) (a z : Nat) : (s.useFrame a z).fresh = s.fresh := by
  unfold State.useFrame; split <;> rfl
@[simp] theorem State.useFrame_hostReply (s : State) (a z : Nat) : (s.useFrame a z).hostReply = s.hostReply := by
  unfold State.useFrame; split <;> rfl
@[simp] theorem State.useFrame_hostRetry (s : State) (a z : Nat) : (s.useFrame a z).hostRetry = s.hostRetry := by
  unfold State.useFrame; split <;> rfl
@[simp] theorem State.useFrame_sched (s : State) (a z : Nat) : (s.useFrame a z).sched = s.sched := by
  unfold State.useFrame; split <;> rfl
@[simp] theorem State.trackFrame_mem (s : State) (a p : Nat) : (s.trackFrame a p).mem = s.mem := by
  unfold State.trackFrame; split <;> rfl
@[simp] theorem State.trackFrame_poison (s : State) (a p : Nat) : (s.trackFrame a p).poison = s.poison := by
  unfold State.trackFrame; split <;> rfl
@[simp] theorem State.trackFrame_enc (s : State) (a p : Nat) : (s.trackFrame a p).enc = s.enc := by
  unfold State.trackFrame; split <;> rfl
@[simp] theorem State.trackFrame_boot (s : State) (a p : Nat) : (s.trackFrame a p).boot = s.boot := by
  unfold State.trackFrame; split <;> rfl
@[simp] theorem State.trackFrame_parts (s : State) (a p : Nat) : (s.trackFrame a p).parts = s.parts := by
  unfold State.trackFrame; split <;> rfl
@[simp] theorem State.trackFrame_cores (s : State) (a p : Nat) : (s.trackFrame a p).cores = s.cores := by
  unfold State.trackFrame; split <;> rfl
@[simp] theorem State.trackFrame_dies (s : State) (a p : Nat) : (s.trackFrame a p).dies = s.dies := by
  unfold State.trackFrame; split <;> rfl
@[simp] theorem State.trackFrame_grids (s : State) (a p : Nat) : (s.trackFrame a p).grids = s.grids := by
  unfold State.trackFrame; split <;> rfl
@[simp] theorem State.trackFrame_teams (s : State) (a p : Nat) : (s.trackFrame a p).teams = s.teams := by
  unfold State.trackFrame; split <;> rfl
@[simp] theorem State.trackFrame_ops (s : State) (a p : Nat) : (s.trackFrame a p).ops = s.ops := by
  unfold State.trackFrame; split <;> rfl
@[simp] theorem State.trackFrame_tokens (s : State) (a p : Nat) : (s.trackFrame a p).tokens = s.tokens := by
  unfold State.trackFrame; split <;> rfl
@[simp] theorem State.trackFrame_stewards (s : State) (a p : Nat) : (s.trackFrame a p).stewards = s.stewards := by
  unfold State.trackFrame; split <;> rfl
@[simp] theorem State.trackFrame_links (s : State) (a p : Nat) : (s.trackFrame a p).links = s.links := by
  unfold State.trackFrame; split <;> rfl
@[simp] theorem State.trackFrame_flowsOut (s : State) (a p : Nat) : (s.trackFrame a p).flowsOut = s.flowsOut := by
  unfold State.trackFrame; split <;> rfl
@[simp] theorem State.trackFrame_flowsIn (s : State) (a p : Nat) : (s.trackFrame a p).flowsIn = s.flowsIn := by
  unfold State.trackFrame; split <;> rfl
@[simp] theorem State.trackFrame_remotes (s : State) (a p : Nat) : (s.trackFrame a p).remotes = s.remotes := by
  unfold State.trackFrame; split <;> rfl
@[simp] theorem State.trackFrame_posted (s : State) (a p : Nat) : (s.trackFrame a p).posted = s.posted := by
  unfold State.trackFrame; split <;> rfl
@[simp] theorem State.trackFrame_systems (s : State) (a p : Nat) : (s.trackFrame a p).systems = s.systems := by
  unfold State.trackFrame; split <;> rfl
@[simp] theorem State.trackFrame_shelf (s : State) (a p : Nat) : (s.trackFrame a p).shelf = s.shelf := by
  unfold State.trackFrame; split <;> rfl
@[simp] theorem State.trackFrame_timeBound (s : State) (a p : Nat) : (s.trackFrame a p).timeBound = s.timeBound := by
  unfold State.trackFrame; split <;> rfl
@[simp] theorem State.trackFrame_time (s : State) (a p : Nat) : (s.trackFrame a p).time = s.time := by
  unfold State.trackFrame; split <;> rfl
@[simp] theorem State.trackFrame_cycles (s : State) (a p : Nat) : (s.trackFrame a p).cycles = s.cycles := by
  unfold State.trackFrame; split <;> rfl
@[simp] theorem State.trackFrame_steps (s : State) (a p : Nat) : (s.trackFrame a p).steps = s.steps := by
  unfold State.trackFrame; split <;> rfl
@[simp] theorem State.trackFrame_fresh (s : State) (a p : Nat) : (s.trackFrame a p).fresh = s.fresh := by
  unfold State.trackFrame; split <;> rfl
@[simp] theorem State.trackFrame_hostReply (s : State) (a p : Nat) : (s.trackFrame a p).hostReply = s.hostReply := by
  unfold State.trackFrame; split <;> rfl
@[simp] theorem State.trackFrame_hostRetry (s : State) (a p : Nat) : (s.trackFrame a p).hostRetry = s.hostRetry := by
  unfold State.trackFrame; split <;> rfl
@[simp] theorem State.trackFrame_sched (s : State) (a p : Nat) : (s.trackFrame a p).sched = s.sched := by
  unfold State.trackFrame; split <;> rfl
@[simp] theorem State.withWaits_mem (u s : State) : (u.withWaits s).mem = u.mem := rfl
@[simp] theorem State.withWaits_poison (u s : State) : (u.withWaits s).poison = u.poison := rfl
@[simp] theorem State.withWaits_enc (u s : State) : (u.withWaits s).enc = u.enc := rfl
@[simp] theorem State.withWaits_prot (u s : State) : (u.withWaits s).prot = u.prot := rfl
@[simp] theorem State.withWaits_boot (u s : State) : (u.withWaits s).boot = u.boot := rfl
@[simp] theorem State.withWaits_parts (u s : State) : (u.withWaits s).parts = u.parts := rfl
@[simp] theorem State.withWaits_cores (u s : State) : (u.withWaits s).cores = u.cores := rfl
@[simp] theorem State.withWaits_dies (u s : State) : (u.withWaits s).dies = u.dies := rfl
@[simp] theorem State.withWaits_grids (u s : State) : (u.withWaits s).grids = u.grids := rfl
@[simp] theorem State.withWaits_teams (u s : State) : (u.withWaits s).teams = u.teams := rfl
@[simp] theorem State.withWaits_ops (u s : State) : (u.withWaits s).ops = u.ops := rfl
@[simp] theorem State.withWaits_tokens (u s : State) : (u.withWaits s).tokens = u.tokens := rfl
@[simp] theorem State.withWaits_stewards (u s : State) : (u.withWaits s).stewards = u.stewards := rfl
@[simp] theorem State.withWaits_links (u s : State) : (u.withWaits s).links = u.links := rfl
@[simp] theorem State.withWaits_flowsOut (u s : State) : (u.withWaits s).flowsOut = u.flowsOut := rfl
@[simp] theorem State.withWaits_flowsIn (u s : State) : (u.withWaits s).flowsIn = u.flowsIn := rfl
@[simp] theorem State.withWaits_remotes (u s : State) : (u.withWaits s).remotes = u.remotes := rfl
@[simp] theorem State.withWaits_posted (u s : State) : (u.withWaits s).posted = u.posted := rfl
@[simp] theorem State.withWaits_systems (u s : State) : (u.withWaits s).systems = u.systems := rfl
@[simp] theorem State.withWaits_shelf (u s : State) : (u.withWaits s).shelf = u.shelf := rfl
@[simp] theorem State.withWaits_timeBound (u s : State) : (u.withWaits s).timeBound = u.timeBound := rfl
@[simp] theorem State.withWaits_time (u s : State) : (u.withWaits s).time = u.time := rfl
@[simp] theorem State.withWaits_cycles (u s : State) : (u.withWaits s).cycles = u.cycles := rfl
@[simp] theorem State.withWaits_steps (u s : State) : (u.withWaits s).steps = u.steps := rfl
@[simp] theorem State.withWaits_fresh (u s : State) : (u.withWaits s).fresh = u.fresh := rfl
@[simp] theorem State.withWaits_hostReply (u s : State) : (u.withWaits s).hostReply = u.hostReply := rfl
@[simp] theorem State.withWaits_hostRetry (u s : State) : (u.withWaits s).hostRetry = u.hostRetry := rfl
@[simp] theorem State.yielded_mem (s : State) (t g : Nat) : (s.yielded t g).mem = s.mem := rfl
@[simp] theorem State.yielded_poison (s : State) (t g : Nat) : (s.yielded t g).poison = s.poison := rfl
@[simp] theorem State.yielded_enc (s : State) (t g : Nat) : (s.yielded t g).enc = s.enc := rfl
@[simp] theorem State.yielded_prot (s : State) (t g : Nat) : (s.yielded t g).prot = s.prot := rfl
@[simp] theorem State.yielded_boot (s : State) (t g : Nat) : (s.yielded t g).boot = s.boot := rfl
@[simp] theorem State.yielded_parts (s : State) (t g : Nat) : (s.yielded t g).parts = s.parts := rfl
@[simp] theorem State.yielded_cores (s : State) (t g : Nat) : (s.yielded t g).cores = s.cores := rfl
@[simp] theorem State.yielded_dies (s : State) (t g : Nat) : (s.yielded t g).dies = s.dies := rfl
@[simp] theorem State.yielded_grids (s : State) (t g : Nat) : (s.yielded t g).grids = s.grids := rfl
@[simp] theorem State.yielded_teams (s : State) (t g : Nat) : (s.yielded t g).teams = s.teams := rfl
@[simp] theorem State.yielded_ops (s : State) (t g : Nat) : (s.yielded t g).ops = s.ops := rfl
@[simp] theorem State.yielded_tokens (s : State) (t g : Nat) : (s.yielded t g).tokens = s.tokens := rfl
@[simp] theorem State.yielded_stewards (s : State) (t g : Nat) : (s.yielded t g).stewards = s.stewards := rfl
@[simp] theorem State.yielded_links (s : State) (t g : Nat) : (s.yielded t g).links = s.links := rfl
@[simp] theorem State.yielded_flowsOut (s : State) (t g : Nat) : (s.yielded t g).flowsOut = s.flowsOut := rfl
@[simp] theorem State.yielded_flowsIn (s : State) (t g : Nat) : (s.yielded t g).flowsIn = s.flowsIn := rfl
@[simp] theorem State.yielded_remotes (s : State) (t g : Nat) : (s.yielded t g).remotes = s.remotes := rfl
@[simp] theorem State.yielded_posted (s : State) (t g : Nat) : (s.yielded t g).posted = s.posted := rfl
@[simp] theorem State.yielded_systems (s : State) (t g : Nat) : (s.yielded t g).systems = s.systems := rfl
@[simp] theorem State.yielded_shelf (s : State) (t g : Nat) : (s.yielded t g).shelf = s.shelf := rfl
@[simp] theorem State.yielded_timeBound (s : State) (t g : Nat) : (s.yielded t g).timeBound = s.timeBound := rfl
@[simp] theorem State.yielded_time (s : State) (t g : Nat) : (s.yielded t g).time = s.time := rfl
@[simp] theorem State.yielded_cycles (s : State) (t g : Nat) : (s.yielded t g).cycles = s.cycles := rfl
@[simp] theorem State.yielded_steps (s : State) (t g : Nat) : (s.yielded t g).steps = s.steps := rfl
@[simp] theorem State.yielded_fresh (s : State) (t g : Nat) : (s.yielded t g).fresh = s.fresh := rfl
@[simp] theorem State.yielded_hostReply (s : State) (t g : Nat) : (s.yielded t g).hostReply = s.hostReply := rfl
@[simp] theorem State.yielded_hostRetry (s : State) (t g : Nat) : (s.yielded t g).hostRetry = s.hostRetry := rfl
@[simp] theorem State.makeLazy_mem (s : State) (t g : Nat) : (s.makeLazy t g).mem = s.mem := rfl
@[simp] theorem State.makeLazy_poison (s : State) (t g : Nat) : (s.makeLazy t g).poison = s.poison := rfl
@[simp] theorem State.makeLazy_enc (s : State) (t g : Nat) : (s.makeLazy t g).enc = s.enc := rfl
@[simp] theorem State.makeLazy_prot (s : State) (t g : Nat) : (s.makeLazy t g).prot = s.prot := rfl
@[simp] theorem State.makeLazy_boot (s : State) (t g : Nat) : (s.makeLazy t g).boot = s.boot := rfl
@[simp] theorem State.makeLazy_parts (s : State) (t g : Nat) : (s.makeLazy t g).parts = s.parts := rfl
@[simp] theorem State.makeLazy_cores (s : State) (t g : Nat) : (s.makeLazy t g).cores = s.cores := rfl
@[simp] theorem State.makeLazy_dies (s : State) (t g : Nat) : (s.makeLazy t g).dies = s.dies := rfl
@[simp] theorem State.makeLazy_grids (s : State) (t g : Nat) : (s.makeLazy t g).grids = s.grids := rfl
@[simp] theorem State.makeLazy_ops (s : State) (t g : Nat) : (s.makeLazy t g).ops = s.ops := rfl
@[simp] theorem State.makeLazy_tokens (s : State) (t g : Nat) : (s.makeLazy t g).tokens = s.tokens := rfl
@[simp] theorem State.makeLazy_stewards (s : State) (t g : Nat) : (s.makeLazy t g).stewards = s.stewards := rfl
@[simp] theorem State.makeLazy_links (s : State) (t g : Nat) : (s.makeLazy t g).links = s.links := rfl
@[simp] theorem State.makeLazy_flowsOut (s : State) (t g : Nat) : (s.makeLazy t g).flowsOut = s.flowsOut := rfl
@[simp] theorem State.makeLazy_flowsIn (s : State) (t g : Nat) : (s.makeLazy t g).flowsIn = s.flowsIn := rfl
@[simp] theorem State.makeLazy_remotes (s : State) (t g : Nat) : (s.makeLazy t g).remotes = s.remotes := rfl
@[simp] theorem State.makeLazy_posted (s : State) (t g : Nat) : (s.makeLazy t g).posted = s.posted := rfl
@[simp] theorem State.makeLazy_systems (s : State) (t g : Nat) : (s.makeLazy t g).systems = s.systems := rfl
@[simp] theorem State.makeLazy_shelf (s : State) (t g : Nat) : (s.makeLazy t g).shelf = s.shelf := rfl
@[simp] theorem State.makeLazy_timeBound (s : State) (t g : Nat) : (s.makeLazy t g).timeBound = s.timeBound := rfl
@[simp] theorem State.makeLazy_time (s : State) (t g : Nat) : (s.makeLazy t g).time = s.time := rfl
@[simp] theorem State.makeLazy_cycles (s : State) (t g : Nat) : (s.makeLazy t g).cycles = s.cycles := rfl
@[simp] theorem State.makeLazy_steps (s : State) (t g : Nat) : (s.makeLazy t g).steps = s.steps := rfl
@[simp] theorem State.makeLazy_fresh (s : State) (t g : Nat) : (s.makeLazy t g).fresh = s.fresh := rfl
@[simp] theorem State.makeLazy_hostReply (s : State) (t g : Nat) : (s.makeLazy t g).hostReply = s.hostReply := rfl
@[simp] theorem State.makeLazy_hostRetry (s : State) (t g : Nat) : (s.makeLazy t g).hostRetry = s.hostRetry := rfl
@[simp] theorem State.makeLazy_sched (s : State) (t g : Nat) : (s.makeLazy t g).sched = s.sched := rfl
@[simp] theorem State.begin_mem (s : State) (c : Ctx) (b : Began) : (s.begin c b).mem = s.mem := rfl
@[simp] theorem State.begin_poison (s : State) (c : Ctx) (b : Began) : (s.begin c b).poison = s.poison := rfl
@[simp] theorem State.begin_enc (s : State) (c : Ctx) (b : Began) : (s.begin c b).enc = s.enc := rfl
@[simp] theorem State.begin_prot (s : State) (c : Ctx) (b : Began) : (s.begin c b).prot = s.prot := rfl
@[simp] theorem State.begin_boot (s : State) (c : Ctx) (b : Began) : (s.begin c b).boot = s.boot := rfl
@[simp] theorem State.begin_parts (s : State) (c : Ctx) (b : Began) : (s.begin c b).parts = s.parts := rfl
@[simp] theorem State.begin_cores (s : State) (c : Ctx) (b : Began) : (s.begin c b).cores = s.cores := rfl
@[simp] theorem State.begin_dies (s : State) (c : Ctx) (b : Began) : (s.begin c b).dies = s.dies := rfl
@[simp] theorem State.begin_grids (s : State) (c : Ctx) (b : Began) : (s.begin c b).grids = s.grids := rfl
@[simp] theorem State.begin_ops (s : State) (c : Ctx) (b : Began) : (s.begin c b).ops = s.ops := rfl
@[simp] theorem State.begin_tokens (s : State) (c : Ctx) (b : Began) : (s.begin c b).tokens = s.tokens := rfl
@[simp] theorem State.begin_stewards (s : State) (c : Ctx) (b : Began) : (s.begin c b).stewards = s.stewards := rfl
@[simp] theorem State.begin_links (s : State) (c : Ctx) (b : Began) : (s.begin c b).links = s.links := rfl
@[simp] theorem State.begin_flowsOut (s : State) (c : Ctx) (b : Began) : (s.begin c b).flowsOut = s.flowsOut := rfl
@[simp] theorem State.begin_flowsIn (s : State) (c : Ctx) (b : Began) : (s.begin c b).flowsIn = s.flowsIn := rfl
@[simp] theorem State.begin_remotes (s : State) (c : Ctx) (b : Began) : (s.begin c b).remotes = s.remotes := rfl
@[simp] theorem State.begin_posted (s : State) (c : Ctx) (b : Began) : (s.begin c b).posted = s.posted := rfl
@[simp] theorem State.begin_systems (s : State) (c : Ctx) (b : Began) : (s.begin c b).systems = s.systems := rfl
@[simp] theorem State.begin_shelf (s : State) (c : Ctx) (b : Began) : (s.begin c b).shelf = s.shelf := rfl
@[simp] theorem State.begin_timeBound (s : State) (c : Ctx) (b : Began) : (s.begin c b).timeBound = s.timeBound := rfl
@[simp] theorem State.begin_time (s : State) (c : Ctx) (b : Began) : (s.begin c b).time = s.time := rfl
@[simp] theorem State.begin_cycles (s : State) (c : Ctx) (b : Began) : (s.begin c b).cycles = s.cycles := rfl
@[simp] theorem State.begin_steps (s : State) (c : Ctx) (b : Began) : (s.begin c b).steps = s.steps := rfl
@[simp] theorem State.begin_fresh (s : State) (c : Ctx) (b : Began) : (s.begin c b).fresh = s.fresh := rfl
@[simp] theorem State.begin_hostReply (s : State) (c : Ctx) (b : Began) : (s.begin c b).hostReply = s.hostReply := rfl
@[simp] theorem State.begin_hostRetry (s : State) (c : Ctx) (b : Began) : (s.begin c b).hostRetry = s.hostRetry := rfl
@[simp] theorem State.begin_sched (s : State) (c : Ctx) (b : Began) : (s.begin c b).sched = s.sched := rfl
@[simp] theorem State.tick_mem (s : State) : (s.tick).mem = s.mem := rfl
@[simp] theorem State.tick_poison (s : State) : (s.tick).poison = s.poison := rfl
@[simp] theorem State.tick_enc (s : State) : (s.tick).enc = s.enc := rfl
@[simp] theorem State.tick_prot (s : State) : (s.tick).prot = s.prot := rfl
@[simp] theorem State.tick_boot (s : State) : (s.tick).boot = s.boot := rfl
@[simp] theorem State.tick_parts (s : State) : (s.tick).parts = s.parts := rfl
@[simp] theorem State.tick_cores (s : State) : (s.tick).cores = s.cores := rfl
@[simp] theorem State.tick_dies (s : State) : (s.tick).dies = s.dies := rfl
@[simp] theorem State.tick_grids (s : State) : (s.tick).grids = s.grids := rfl
@[simp] theorem State.tick_teams (s : State) : (s.tick).teams = s.teams := rfl
@[simp] theorem State.tick_ops (s : State) : (s.tick).ops = s.ops := rfl
@[simp] theorem State.tick_tokens (s : State) : (s.tick).tokens = s.tokens := rfl
@[simp] theorem State.tick_stewards (s : State) : (s.tick).stewards = s.stewards := rfl
@[simp] theorem State.tick_links (s : State) : (s.tick).links = s.links := rfl
@[simp] theorem State.tick_flowsOut (s : State) : (s.tick).flowsOut = s.flowsOut := rfl
@[simp] theorem State.tick_flowsIn (s : State) : (s.tick).flowsIn = s.flowsIn := rfl
@[simp] theorem State.tick_remotes (s : State) : (s.tick).remotes = s.remotes := rfl
@[simp] theorem State.tick_posted (s : State) : (s.tick).posted = s.posted := rfl
@[simp] theorem State.tick_systems (s : State) : (s.tick).systems = s.systems := rfl
@[simp] theorem State.tick_shelf (s : State) : (s.tick).shelf = s.shelf := rfl
@[simp] theorem State.tick_timeBound (s : State) : (s.tick).timeBound = s.timeBound := rfl
@[simp] theorem State.tick_fresh (s : State) : (s.tick).fresh = s.fresh := rfl
@[simp] theorem State.tick_hostReply (s : State) : (s.tick).hostReply = s.hostReply := rfl
@[simp] theorem State.tick_hostRetry (s : State) : (s.tick).hostRetry = s.hostRetry := rfl
@[simp] theorem State.tick_sched (s : State) : (s.tick).sched = s.sched := rfl

/-! ## Fields of a group kept by its updates -/

@[simp] theorem Group.mapLanes_quarter (G : Group) (ls : List Nat) (f : Nat → Lane → Lane) : (G.mapLanes ls f).quarter = G.quarter := rfl
@[simp] theorem Group.mapLanes_s (G : Group) (ls : List Nat) (f : Nat → Lane → Lane) : (G.mapLanes ls f).s = G.s := rfl
@[simp] theorem Group.mapLanes_k (G : Group) (ls : List Nat) (f : Nat → Lane → Lane) : (G.mapLanes ls f).k = G.k := rfl
@[simp] theorem Group.mapLanes_f (G : Group) (ls : List Nat) (f : Nat → Lane → Lane) : (G.mapLanes ls f).f = G.f := rfl
@[simp] theorem Group.mapLanes_z (G : Group) (ls : List Nat) (f : Nat → Lane → Lane) : (G.mapLanes ls f).z = G.z := rfl
@[simp] theorem Group.mapLanes_uq (G : Group) (ls : List Nat) (f : Nat → Lane → Lane) : (G.mapLanes ls f).uq = G.uq := rfl
@[simp] theorem Group.mapLanes_runMask (G : Group) (ls : List Nat) (f : Nat → Lane → Lane) : (G.mapLanes ls f).runMask = G.runMask := rfl
@[simp] theorem Group.mapLanes_runPos (G : Group) (ls : List Nat) (f : Nat → Lane → Lane) : (G.mapLanes ls f).runPos = G.runPos := rfl
@[simp] theorem Group.mapLanes_fifo (G : Group) (ls : List Nat) (f : Nat → Lane → Lane) : (G.mapLanes ls f).fifo = G.fifo := rfl
@[simp] theorem Group.mapLanes_early (G : Group) (ls : List Nat) (f : Nat → Lane → Lane) : (G.mapLanes ls f).early = G.early := rfl
@[simp] theorem Group.mapLanes_handlers (G : Group) (ls : List Nat) (f : Nat → Lane → Lane) : (G.mapLanes ls f).handlers = G.handlers := rfl
@[simp] theorem Group.mapLanes_trapLevel (G : Group) (ls : List Nat) (f : Nat → Lane → Lane) : (G.mapLanes ls f).trapLevel = G.trapLevel := rfl
@[simp] theorem Group.mapLanes_trapCause (G : Group) (ls : List Nat) (f : Nat → Lane → Lane) : (G.mapLanes ls f).trapCause = G.trapCause := rfl
@[simp] theorem Group.mapLanes_trapPc (G : Group) (ls : List Nat) (f : Nat → Lane → Lane) : (G.mapLanes ls f).trapPc = G.trapPc := rfl
@[simp] theorem Group.mapLanes_trapInfo (G : Group) (ls : List Nat) (f : Nat → Lane → Lane) : (G.mapLanes ls f).trapInfo = G.trapInfo := rfl
@[simp] theorem Group.mapLanes_handler (G : Group) (ls : List Nat) (f : Nat → Lane → Lane) : (G.mapLanes ls f).handler = G.handler := rfl
@[simp] theorem Group.mapLanes_heldHandler (G : Group) (ls : List Nat) (f : Nat → Lane → Lane) : (G.mapLanes ls f).heldHandler = G.heldHandler := rfl
@[simp] theorem Group.mapLanes_pending (G : Group) (ls : List Nat) (f : Nat → Lane → Lane) : (G.mapLanes ls f).pending = G.pending := rfl
@[simp] theorem Group.mapLanes_history (G : Group) (ls : List Nat) (f : Nat → Lane → Lane) : (G.mapLanes ls f).history = G.history := rfl
@[simp] theorem Group.mapLanes_nextBase (G : Group) (ls : List Nat) (f : Nat → Lane → Lane) : (G.mapLanes ls f).nextBase = G.nextBase := rfl
@[simp] theorem Group.mapLanes_ended (G : Group) (ls : List Nat) (f : Nat → Lane → Lane) : (G.mapLanes ls f).ended = G.ended := rfl
@[simp] theorem Group.mapLanes_stopped (G : Group) (ls : List Nat) (f : Nat → Lane → Lane) : (G.mapLanes ls f).stopped = G.stopped := rfl
@[simp] theorem Group.mapLanes_stopping (G : Group) (ls : List Nat) (f : Nat → Lane → Lane) : (G.mapLanes ls f).stopping = G.stopping := rfl
@[simp] theorem Group.mapLanes_saved (G : Group) (ls : List Nat) (f : Nat → Lane → Lane) : (G.mapLanes ls f).saved = G.saved := rfl
@[simp] theorem Group.mapLanes_regBlocks (G : Group) (ls : List Nat) (f : Nat → Lane → Lane) : (G.mapLanes ls f).regBlocks = G.regBlocks := rfl
@[simp] theorem Group.mapLanes_zBlocks (G : Group) (ls : List Nat) (f : Nat → Lane → Lane) : (G.mapLanes ls f).zBlocks = G.zBlocks := rfl
@[simp] theorem Group.mapLanes_remote (G : Group) (ls : List Nat) (f : Nat → Lane → Lane) : (G.mapLanes ls f).remote = G.remote := rfl
@[simp] theorem Group.mapLanes_began (G : Group) (ls : List Nat) (f : Nat → Lane → Lane) : (G.mapLanes ls f).began = G.began := rfl
@[simp] theorem Group.mapLanes_word (G : Group) (ls : List Nat) (f : Nat → Lane → Lane) : (G.mapLanes ls f).word = G.word := rfl
@[simp] theorem Group.mapLanes_ahead (G : Group) (ls : List Nat) (f : Nat → Lane → Lane) : (G.mapLanes ls f).ahead = G.ahead := rfl
@[simp] theorem Group.mapLanes_pieces (G : Group) (ls : List Nat) (f : Nat → Lane → Lane) : (G.mapLanes ls f).pieces = G.pieces := rfl
@[simp] theorem Group.mapLanes_lazy (G : Group) (ls : List Nat) (f : Nat → Lane → Lane) : (G.mapLanes ls f).lazy = G.lazy := rfl
@[simp] theorem Group.dropReplies_quarter (G : Group) (ls : List Nat) : (G.dropReplies ls).quarter = G.quarter := rfl
@[simp] theorem Group.dropReplies_lanes (G : Group) (ls : List Nat) : (G.dropReplies ls).lanes = G.lanes := rfl
@[simp] theorem Group.dropReplies_s (G : Group) (ls : List Nat) : (G.dropReplies ls).s = G.s := rfl
@[simp] theorem Group.dropReplies_k (G : Group) (ls : List Nat) : (G.dropReplies ls).k = G.k := rfl
@[simp] theorem Group.dropReplies_f (G : Group) (ls : List Nat) : (G.dropReplies ls).f = G.f := rfl
@[simp] theorem Group.dropReplies_z (G : Group) (ls : List Nat) : (G.dropReplies ls).z = G.z := rfl
@[simp] theorem Group.dropReplies_uq (G : Group) (ls : List Nat) : (G.dropReplies ls).uq = G.uq := rfl
@[simp] theorem Group.dropReplies_runMask (G : Group) (ls : List Nat) : (G.dropReplies ls).runMask = G.runMask := rfl
@[simp] theorem Group.dropReplies_runPos (G : Group) (ls : List Nat) : (G.dropReplies ls).runPos = G.runPos := rfl
@[simp] theorem Group.dropReplies_fifo (G : Group) (ls : List Nat) : (G.dropReplies ls).fifo = G.fifo := rfl
@[simp] theorem Group.dropReplies_early (G : Group) (ls : List Nat) : (G.dropReplies ls).early = G.early := rfl
@[simp] theorem Group.dropReplies_handlers (G : Group) (ls : List Nat) : (G.dropReplies ls).handlers = G.handlers := rfl
@[simp] theorem Group.dropReplies_trapLevel (G : Group) (ls : List Nat) : (G.dropReplies ls).trapLevel = G.trapLevel := rfl
@[simp] theorem Group.dropReplies_trapCause (G : Group) (ls : List Nat) : (G.dropReplies ls).trapCause = G.trapCause := rfl
@[simp] theorem Group.dropReplies_trapPc (G : Group) (ls : List Nat) : (G.dropReplies ls).trapPc = G.trapPc := rfl
@[simp] theorem Group.dropReplies_trapInfo (G : Group) (ls : List Nat) : (G.dropReplies ls).trapInfo = G.trapInfo := rfl
@[simp] theorem Group.dropReplies_handler (G : Group) (ls : List Nat) : (G.dropReplies ls).handler = G.handler := rfl
@[simp] theorem Group.dropReplies_heldHandler (G : Group) (ls : List Nat) : (G.dropReplies ls).heldHandler = G.heldHandler := rfl
@[simp] theorem Group.dropReplies_pending (G : Group) (ls : List Nat) : (G.dropReplies ls).pending = G.pending := rfl
@[simp] theorem Group.dropReplies_history (G : Group) (ls : List Nat) : (G.dropReplies ls).history = G.history := rfl
@[simp] theorem Group.dropReplies_nextBase (G : Group) (ls : List Nat) : (G.dropReplies ls).nextBase = G.nextBase := rfl
@[simp] theorem Group.dropReplies_ended (G : Group) (ls : List Nat) : (G.dropReplies ls).ended = G.ended := rfl
@[simp] theorem Group.dropReplies_stopped (G : Group) (ls : List Nat) : (G.dropReplies ls).stopped = G.stopped := rfl
@[simp] theorem Group.dropReplies_stopping (G : Group) (ls : List Nat) : (G.dropReplies ls).stopping = G.stopping := rfl
@[simp] theorem Group.dropReplies_saved (G : Group) (ls : List Nat) : (G.dropReplies ls).saved = G.saved := rfl
@[simp] theorem Group.dropReplies_regBlocks (G : Group) (ls : List Nat) : (G.dropReplies ls).regBlocks = G.regBlocks := rfl
@[simp] theorem Group.dropReplies_zBlocks (G : Group) (ls : List Nat) : (G.dropReplies ls).zBlocks = G.zBlocks := rfl
@[simp] theorem Group.dropReplies_word (G : Group) (ls : List Nat) : (G.dropReplies ls).word = G.word := rfl
@[simp] theorem Group.dropReplies_ahead (G : Group) (ls : List Nat) : (G.dropReplies ls).ahead = G.ahead := rfl
@[simp] theorem Group.dropReplies_pieces (G : Group) (ls : List Nat) : (G.dropReplies ls).pieces = G.pieces := rfl
@[simp] theorem Group.dropReplies_lazy (G : Group) (ls : List Nat) : (G.dropReplies ls).lazy = G.lazy := rfl
@[simp] theorem Group.dropReads_quarter (G : Group) (ls : List Nat) : (G.dropReads ls).quarter = G.quarter := rfl
@[simp] theorem Group.dropReads_lanes (G : Group) (ls : List Nat) : (G.dropReads ls).lanes = G.lanes := rfl
@[simp] theorem Group.dropReads_s (G : Group) (ls : List Nat) : (G.dropReads ls).s = G.s := rfl
@[simp] theorem Group.dropReads_k (G : Group) (ls : List Nat) : (G.dropReads ls).k = G.k := rfl
@[simp] theorem Group.dropReads_f (G : Group) (ls : List Nat) : (G.dropReads ls).f = G.f := rfl
@[simp] theorem Group.dropReads_z (G : Group) (ls : List Nat) : (G.dropReads ls).z = G.z := rfl
@[simp] theorem Group.dropReads_uq (G : Group) (ls : List Nat) : (G.dropReads ls).uq = G.uq := rfl
@[simp] theorem Group.dropReads_runMask (G : Group) (ls : List Nat) : (G.dropReads ls).runMask = G.runMask := rfl
@[simp] theorem Group.dropReads_runPos (G : Group) (ls : List Nat) : (G.dropReads ls).runPos = G.runPos := rfl
@[simp] theorem Group.dropReads_fifo (G : Group) (ls : List Nat) : (G.dropReads ls).fifo = G.fifo := rfl
@[simp] theorem Group.dropReads_early (G : Group) (ls : List Nat) : (G.dropReads ls).early = G.early := rfl
@[simp] theorem Group.dropReads_handlers (G : Group) (ls : List Nat) : (G.dropReads ls).handlers = G.handlers := rfl
@[simp] theorem Group.dropReads_trapLevel (G : Group) (ls : List Nat) : (G.dropReads ls).trapLevel = G.trapLevel := rfl
@[simp] theorem Group.dropReads_trapCause (G : Group) (ls : List Nat) : (G.dropReads ls).trapCause = G.trapCause := rfl
@[simp] theorem Group.dropReads_trapPc (G : Group) (ls : List Nat) : (G.dropReads ls).trapPc = G.trapPc := rfl
@[simp] theorem Group.dropReads_trapInfo (G : Group) (ls : List Nat) : (G.dropReads ls).trapInfo = G.trapInfo := rfl
@[simp] theorem Group.dropReads_handler (G : Group) (ls : List Nat) : (G.dropReads ls).handler = G.handler := rfl
@[simp] theorem Group.dropReads_heldHandler (G : Group) (ls : List Nat) : (G.dropReads ls).heldHandler = G.heldHandler := rfl
@[simp] theorem Group.dropReads_pending (G : Group) (ls : List Nat) : (G.dropReads ls).pending = G.pending := rfl
@[simp] theorem Group.dropReads_history (G : Group) (ls : List Nat) : (G.dropReads ls).history = G.history := rfl
@[simp] theorem Group.dropReads_nextBase (G : Group) (ls : List Nat) : (G.dropReads ls).nextBase = G.nextBase := rfl
@[simp] theorem Group.dropReads_ended (G : Group) (ls : List Nat) : (G.dropReads ls).ended = G.ended := rfl
@[simp] theorem Group.dropReads_stopped (G : Group) (ls : List Nat) : (G.dropReads ls).stopped = G.stopped := rfl
@[simp] theorem Group.dropReads_stopping (G : Group) (ls : List Nat) : (G.dropReads ls).stopping = G.stopping := rfl
@[simp] theorem Group.dropReads_saved (G : Group) (ls : List Nat) : (G.dropReads ls).saved = G.saved := rfl
@[simp] theorem Group.dropReads_regBlocks (G : Group) (ls : List Nat) : (G.dropReads ls).regBlocks = G.regBlocks := rfl
@[simp] theorem Group.dropReads_zBlocks (G : Group) (ls : List Nat) : (G.dropReads ls).zBlocks = G.zBlocks := rfl
@[simp] theorem Group.dropReads_word (G : Group) (ls : List Nat) : (G.dropReads ls).word = G.word := rfl
@[simp] theorem Group.dropReads_ahead (G : Group) (ls : List Nat) : (G.dropReads ls).ahead = G.ahead := rfl
@[simp] theorem Group.dropReads_pieces (G : Group) (ls : List Nat) : (G.dropReads ls).pieces = G.pieces := rfl
@[simp] theorem Group.dropReads_lazy (G : Group) (ls : List Nat) : (G.dropReads ls).lazy = G.lazy := rfl
@[simp] theorem Group.dropEarly_quarter (G : Group) (ss : List Nat) : (G.dropEarly ss).quarter = G.quarter := rfl
@[simp] theorem Group.dropEarly_lanes (G : Group) (ss : List Nat) : (G.dropEarly ss).lanes = G.lanes := rfl
@[simp] theorem Group.dropEarly_s (G : Group) (ss : List Nat) : (G.dropEarly ss).s = G.s := rfl
@[simp] theorem Group.dropEarly_k (G : Group) (ss : List Nat) : (G.dropEarly ss).k = G.k := rfl
@[simp] theorem Group.dropEarly_f (G : Group) (ss : List Nat) : (G.dropEarly ss).f = G.f := rfl
@[simp] theorem Group.dropEarly_z (G : Group) (ss : List Nat) : (G.dropEarly ss).z = G.z := rfl
@[simp] theorem Group.dropEarly_uq (G : Group) (ss : List Nat) : (G.dropEarly ss).uq = G.uq := rfl
@[simp] theorem Group.dropEarly_runMask (G : Group) (ss : List Nat) : (G.dropEarly ss).runMask = G.runMask := rfl
@[simp] theorem Group.dropEarly_runPos (G : Group) (ss : List Nat) : (G.dropEarly ss).runPos = G.runPos := rfl
@[simp] theorem Group.dropEarly_fifo (G : Group) (ss : List Nat) : (G.dropEarly ss).fifo = G.fifo := rfl
@[simp] theorem Group.dropEarly_handlers (G : Group) (ss : List Nat) : (G.dropEarly ss).handlers = G.handlers := rfl
@[simp] theorem Group.dropEarly_trapLevel (G : Group) (ss : List Nat) : (G.dropEarly ss).trapLevel = G.trapLevel := rfl
@[simp] theorem Group.dropEarly_trapCause (G : Group) (ss : List Nat) : (G.dropEarly ss).trapCause = G.trapCause := rfl
@[simp] theorem Group.dropEarly_trapPc (G : Group) (ss : List Nat) : (G.dropEarly ss).trapPc = G.trapPc := rfl
@[simp] theorem Group.dropEarly_trapInfo (G : Group) (ss : List Nat) : (G.dropEarly ss).trapInfo = G.trapInfo := rfl
@[simp] theorem Group.dropEarly_handler (G : Group) (ss : List Nat) : (G.dropEarly ss).handler = G.handler := rfl
@[simp] theorem Group.dropEarly_heldHandler (G : Group) (ss : List Nat) : (G.dropEarly ss).heldHandler = G.heldHandler := rfl
@[simp] theorem Group.dropEarly_pending (G : Group) (ss : List Nat) : (G.dropEarly ss).pending = G.pending := rfl
@[simp] theorem Group.dropEarly_history (G : Group) (ss : List Nat) : (G.dropEarly ss).history = G.history := rfl
@[simp] theorem Group.dropEarly_nextBase (G : Group) (ss : List Nat) : (G.dropEarly ss).nextBase = G.nextBase := rfl
@[simp] theorem Group.dropEarly_ended (G : Group) (ss : List Nat) : (G.dropEarly ss).ended = G.ended := rfl
@[simp] theorem Group.dropEarly_stopped (G : Group) (ss : List Nat) : (G.dropEarly ss).stopped = G.stopped := rfl
@[simp] theorem Group.dropEarly_stopping (G : Group) (ss : List Nat) : (G.dropEarly ss).stopping = G.stopping := rfl
@[simp] theorem Group.dropEarly_saved (G : Group) (ss : List Nat) : (G.dropEarly ss).saved = G.saved := rfl
@[simp] theorem Group.dropEarly_regBlocks (G : Group) (ss : List Nat) : (G.dropEarly ss).regBlocks = G.regBlocks := rfl
@[simp] theorem Group.dropEarly_zBlocks (G : Group) (ss : List Nat) : (G.dropEarly ss).zBlocks = G.zBlocks := rfl
@[simp] theorem Group.dropEarly_remote (G : Group) (ss : List Nat) : (G.dropEarly ss).remote = G.remote := rfl
@[simp] theorem Group.dropEarly_began (G : Group) (ss : List Nat) : (G.dropEarly ss).began = G.began := rfl
@[simp] theorem Group.dropEarly_word (G : Group) (ss : List Nat) : (G.dropEarly ss).word = G.word := rfl
@[simp] theorem Group.dropEarly_ahead (G : Group) (ss : List Nat) : (G.dropEarly ss).ahead = G.ahead := rfl
@[simp] theorem Group.dropEarly_pieces (G : Group) (ss : List Nat) : (G.dropEarly ss).pieces = G.pieces := rfl
@[simp] theorem Group.dropEarly_lazy (G : Group) (ss : List Nat) : (G.dropEarly ss).lazy = G.lazy := rfl
@[simp] theorem Group.clearEarly_quarter (G : Group) : (G.clearEarly).quarter = G.quarter := rfl
@[simp] theorem Group.clearEarly_lanes (G : Group) : (G.clearEarly).lanes = G.lanes := rfl
@[simp] theorem Group.clearEarly_s (G : Group) : (G.clearEarly).s = G.s := rfl
@[simp] theorem Group.clearEarly_k (G : Group) : (G.clearEarly).k = G.k := rfl
@[simp] theorem Group.clearEarly_f (G : Group) : (G.clearEarly).f = G.f := rfl
@[simp] theorem Group.clearEarly_z (G : Group) : (G.clearEarly).z = G.z := rfl
@[simp] theorem Group.clearEarly_uq (G : Group) : (G.clearEarly).uq = G.uq := rfl
@[simp] theorem Group.clearEarly_runMask (G : Group) : (G.clearEarly).runMask = G.runMask := rfl
@[simp] theorem Group.clearEarly_runPos (G : Group) : (G.clearEarly).runPos = G.runPos := rfl
@[simp] theorem Group.clearEarly_fifo (G : Group) : (G.clearEarly).fifo = G.fifo := rfl
@[simp] theorem Group.clearEarly_handlers (G : Group) : (G.clearEarly).handlers = G.handlers := rfl
@[simp] theorem Group.clearEarly_trapLevel (G : Group) : (G.clearEarly).trapLevel = G.trapLevel := rfl
@[simp] theorem Group.clearEarly_trapCause (G : Group) : (G.clearEarly).trapCause = G.trapCause := rfl
@[simp] theorem Group.clearEarly_trapPc (G : Group) : (G.clearEarly).trapPc = G.trapPc := rfl
@[simp] theorem Group.clearEarly_trapInfo (G : Group) : (G.clearEarly).trapInfo = G.trapInfo := rfl
@[simp] theorem Group.clearEarly_handler (G : Group) : (G.clearEarly).handler = G.handler := rfl
@[simp] theorem Group.clearEarly_heldHandler (G : Group) : (G.clearEarly).heldHandler = G.heldHandler := rfl
@[simp] theorem Group.clearEarly_pending (G : Group) : (G.clearEarly).pending = G.pending := rfl
@[simp] theorem Group.clearEarly_history (G : Group) : (G.clearEarly).history = G.history := rfl
@[simp] theorem Group.clearEarly_nextBase (G : Group) : (G.clearEarly).nextBase = G.nextBase := rfl
@[simp] theorem Group.clearEarly_ended (G : Group) : (G.clearEarly).ended = G.ended := rfl
@[simp] theorem Group.clearEarly_stopped (G : Group) : (G.clearEarly).stopped = G.stopped := rfl
@[simp] theorem Group.clearEarly_stopping (G : Group) : (G.clearEarly).stopping = G.stopping := rfl
@[simp] theorem Group.clearEarly_saved (G : Group) : (G.clearEarly).saved = G.saved := rfl
@[simp] theorem Group.clearEarly_regBlocks (G : Group) : (G.clearEarly).regBlocks = G.regBlocks := rfl
@[simp] theorem Group.clearEarly_zBlocks (G : Group) : (G.clearEarly).zBlocks = G.zBlocks := rfl
@[simp] theorem Group.clearEarly_remote (G : Group) : (G.clearEarly).remote = G.remote := rfl
@[simp] theorem Group.clearEarly_began (G : Group) : (G.clearEarly).began = G.began := rfl
@[simp] theorem Group.clearEarly_word (G : Group) : (G.clearEarly).word = G.word := rfl
@[simp] theorem Group.clearEarly_pieces (G : Group) : (G.clearEarly).pieces = G.pieces := rfl
@[simp] theorem Group.clearEarly_lazy (G : Group) : (G.clearEarly).lazy = G.lazy := rfl
@[simp] theorem Group.setS_quarter (G : Group) (r : Nat) (w : Word) : (G.setS r w).quarter = G.quarter := rfl
@[simp] theorem Group.setS_lanes (G : Group) (r : Nat) (w : Word) : (G.setS r w).lanes = G.lanes := rfl
@[simp] theorem Group.setS_k (G : Group) (r : Nat) (w : Word) : (G.setS r w).k = G.k := rfl
@[simp] theorem Group.setS_f (G : Group) (r : Nat) (w : Word) : (G.setS r w).f = G.f := rfl
@[simp] theorem Group.setS_z (G : Group) (r : Nat) (w : Word) : (G.setS r w).z = G.z := rfl
@[simp] theorem Group.setS_uq (G : Group) (r : Nat) (w : Word) : (G.setS r w).uq = G.uq := rfl
@[simp] theorem Group.setS_runMask (G : Group) (r : Nat) (w : Word) : (G.setS r w).runMask = G.runMask := rfl
@[simp] theorem Group.setS_runPos (G : Group) (r : Nat) (w : Word) : (G.setS r w).runPos = G.runPos := rfl
@[simp] theorem Group.setS_fifo (G : Group) (r : Nat) (w : Word) : (G.setS r w).fifo = G.fifo := rfl
@[simp] theorem Group.setS_early (G : Group) (r : Nat) (w : Word) : (G.setS r w).early = G.early := rfl
@[simp] theorem Group.setS_handlers (G : Group) (r : Nat) (w : Word) : (G.setS r w).handlers = G.handlers := rfl
@[simp] theorem Group.setS_trapLevel (G : Group) (r : Nat) (w : Word) : (G.setS r w).trapLevel = G.trapLevel := rfl
@[simp] theorem Group.setS_trapCause (G : Group) (r : Nat) (w : Word) : (G.setS r w).trapCause = G.trapCause := rfl
@[simp] theorem Group.setS_trapPc (G : Group) (r : Nat) (w : Word) : (G.setS r w).trapPc = G.trapPc := rfl
@[simp] theorem Group.setS_trapInfo (G : Group) (r : Nat) (w : Word) : (G.setS r w).trapInfo = G.trapInfo := rfl
@[simp] theorem Group.setS_handler (G : Group) (r : Nat) (w : Word) : (G.setS r w).handler = G.handler := rfl
@[simp] theorem Group.setS_heldHandler (G : Group) (r : Nat) (w : Word) : (G.setS r w).heldHandler = G.heldHandler := rfl
@[simp] theorem Group.setS_pending (G : Group) (r : Nat) (w : Word) : (G.setS r w).pending = G.pending := rfl
@[simp] theorem Group.setS_history (G : Group) (r : Nat) (w : Word) : (G.setS r w).history = G.history := rfl
@[simp] theorem Group.setS_nextBase (G : Group) (r : Nat) (w : Word) : (G.setS r w).nextBase = G.nextBase := rfl
@[simp] theorem Group.setS_ended (G : Group) (r : Nat) (w : Word) : (G.setS r w).ended = G.ended := rfl
@[simp] theorem Group.setS_stopped (G : Group) (r : Nat) (w : Word) : (G.setS r w).stopped = G.stopped := rfl
@[simp] theorem Group.setS_stopping (G : Group) (r : Nat) (w : Word) : (G.setS r w).stopping = G.stopping := rfl
@[simp] theorem Group.setS_saved (G : Group) (r : Nat) (w : Word) : (G.setS r w).saved = G.saved := rfl
@[simp] theorem Group.setS_regBlocks (G : Group) (r : Nat) (w : Word) : (G.setS r w).regBlocks = G.regBlocks := rfl
@[simp] theorem Group.setS_zBlocks (G : Group) (r : Nat) (w : Word) : (G.setS r w).zBlocks = G.zBlocks := rfl
@[simp] theorem Group.setS_remote (G : Group) (r : Nat) (w : Word) : (G.setS r w).remote = G.remote := rfl
@[simp] theorem Group.setS_began (G : Group) (r : Nat) (w : Word) : (G.setS r w).began = G.began := rfl
@[simp] theorem Group.setS_word (G : Group) (r : Nat) (w : Word) : (G.setS r w).word = G.word := rfl
@[simp] theorem Group.setS_ahead (G : Group) (r : Nat) (w : Word) : (G.setS r w).ahead = G.ahead := rfl
@[simp] theorem Group.setS_pieces (G : Group) (r : Nat) (w : Word) : (G.setS r w).pieces = G.pieces := rfl
@[simp] theorem Group.setS_lazy (G : Group) (r : Nat) (w : Word) : (G.setS r w).lazy = G.lazy := rfl
@[simp] theorem Group.setSPair_quarter (G : Group) (r v : Nat) : (G.setSPair r v).quarter = G.quarter := rfl
@[simp] theorem Group.setSPair_lanes (G : Group) (r v : Nat) : (G.setSPair r v).lanes = G.lanes := rfl
@[simp] theorem Group.setSPair_k (G : Group) (r v : Nat) : (G.setSPair r v).k = G.k := rfl
@[simp] theorem Group.setSPair_f (G : Group) (r v : Nat) : (G.setSPair r v).f = G.f := rfl
@[simp] theorem Group.setSPair_z (G : Group) (r v : Nat) : (G.setSPair r v).z = G.z := rfl
@[simp] theorem Group.setSPair_uq (G : Group) (r v : Nat) : (G.setSPair r v).uq = G.uq := rfl
@[simp] theorem Group.setSPair_runMask (G : Group) (r v : Nat) : (G.setSPair r v).runMask = G.runMask := rfl
@[simp] theorem Group.setSPair_runPos (G : Group) (r v : Nat) : (G.setSPair r v).runPos = G.runPos := rfl
@[simp] theorem Group.setSPair_fifo (G : Group) (r v : Nat) : (G.setSPair r v).fifo = G.fifo := rfl
@[simp] theorem Group.setSPair_early (G : Group) (r v : Nat) : (G.setSPair r v).early = G.early := rfl
@[simp] theorem Group.setSPair_handlers (G : Group) (r v : Nat) : (G.setSPair r v).handlers = G.handlers := rfl
@[simp] theorem Group.setSPair_trapLevel (G : Group) (r v : Nat) : (G.setSPair r v).trapLevel = G.trapLevel := rfl
@[simp] theorem Group.setSPair_trapCause (G : Group) (r v : Nat) : (G.setSPair r v).trapCause = G.trapCause := rfl
@[simp] theorem Group.setSPair_trapPc (G : Group) (r v : Nat) : (G.setSPair r v).trapPc = G.trapPc := rfl
@[simp] theorem Group.setSPair_trapInfo (G : Group) (r v : Nat) : (G.setSPair r v).trapInfo = G.trapInfo := rfl
@[simp] theorem Group.setSPair_handler (G : Group) (r v : Nat) : (G.setSPair r v).handler = G.handler := rfl
@[simp] theorem Group.setSPair_heldHandler (G : Group) (r v : Nat) : (G.setSPair r v).heldHandler = G.heldHandler := rfl
@[simp] theorem Group.setSPair_pending (G : Group) (r v : Nat) : (G.setSPair r v).pending = G.pending := rfl
@[simp] theorem Group.setSPair_history (G : Group) (r v : Nat) : (G.setSPair r v).history = G.history := rfl
@[simp] theorem Group.setSPair_nextBase (G : Group) (r v : Nat) : (G.setSPair r v).nextBase = G.nextBase := rfl
@[simp] theorem Group.setSPair_ended (G : Group) (r v : Nat) : (G.setSPair r v).ended = G.ended := rfl
@[simp] theorem Group.setSPair_stopped (G : Group) (r v : Nat) : (G.setSPair r v).stopped = G.stopped := rfl
@[simp] theorem Group.setSPair_stopping (G : Group) (r v : Nat) : (G.setSPair r v).stopping = G.stopping := rfl
@[simp] theorem Group.setSPair_saved (G : Group) (r v : Nat) : (G.setSPair r v).saved = G.saved := rfl
@[simp] theorem Group.setSPair_regBlocks (G : Group) (r v : Nat) : (G.setSPair r v).regBlocks = G.regBlocks := rfl
@[simp] theorem Group.setSPair_zBlocks (G : Group) (r v : Nat) : (G.setSPair r v).zBlocks = G.zBlocks := rfl
@[simp] theorem Group.setSPair_remote (G : Group) (r v : Nat) : (G.setSPair r v).remote = G.remote := rfl
@[simp] theorem Group.setSPair_began (G : Group) (r v : Nat) : (G.setSPair r v).began = G.began := rfl
@[simp] theorem Group.setSPair_word (G : Group) (r v : Nat) : (G.setSPair r v).word = G.word := rfl
@[simp] theorem Group.setSPair_ahead (G : Group) (r v : Nat) : (G.setSPair r v).ahead = G.ahead := rfl
@[simp] theorem Group.setSPair_pieces (G : Group) (r v : Nat) : (G.setSPair r v).pieces = G.pieces := rfl
@[simp] theorem Group.setSPair_lazy (G : Group) (r v : Nat) : (G.setSPair r v).lazy = G.lazy := rfl
@[simp] theorem Group.latchU_quarter (G : Group) (r : Option Word) : (G.latchU r).quarter = G.quarter := rfl
@[simp] theorem Group.latchU_lanes (G : Group) (r : Option Word) : (G.latchU r).lanes = G.lanes := rfl
@[simp] theorem Group.latchU_s (G : Group) (r : Option Word) : (G.latchU r).s = G.s := rfl
@[simp] theorem Group.latchU_k (G : Group) (r : Option Word) : (G.latchU r).k = G.k := rfl
@[simp] theorem Group.latchU_f (G : Group) (r : Option Word) : (G.latchU r).f = G.f := rfl
@[simp] theorem Group.latchU_z (G : Group) (r : Option Word) : (G.latchU r).z = G.z := rfl
@[simp] theorem Group.latchU_runMask (G : Group) (r : Option Word) : (G.latchU r).runMask = G.runMask := rfl
@[simp] theorem Group.latchU_runPos (G : Group) (r : Option Word) : (G.latchU r).runPos = G.runPos := rfl
@[simp] theorem Group.latchU_fifo (G : Group) (r : Option Word) : (G.latchU r).fifo = G.fifo := rfl
@[simp] theorem Group.latchU_early (G : Group) (r : Option Word) : (G.latchU r).early = G.early := rfl
@[simp] theorem Group.latchU_handlers (G : Group) (r : Option Word) : (G.latchU r).handlers = G.handlers := rfl
@[simp] theorem Group.latchU_trapLevel (G : Group) (r : Option Word) : (G.latchU r).trapLevel = G.trapLevel := rfl
@[simp] theorem Group.latchU_trapCause (G : Group) (r : Option Word) : (G.latchU r).trapCause = G.trapCause := rfl
@[simp] theorem Group.latchU_trapPc (G : Group) (r : Option Word) : (G.latchU r).trapPc = G.trapPc := rfl
@[simp] theorem Group.latchU_trapInfo (G : Group) (r : Option Word) : (G.latchU r).trapInfo = G.trapInfo := rfl
@[simp] theorem Group.latchU_handler (G : Group) (r : Option Word) : (G.latchU r).handler = G.handler := rfl
@[simp] theorem Group.latchU_heldHandler (G : Group) (r : Option Word) : (G.latchU r).heldHandler = G.heldHandler := rfl
@[simp] theorem Group.latchU_pending (G : Group) (r : Option Word) : (G.latchU r).pending = G.pending := rfl
@[simp] theorem Group.latchU_history (G : Group) (r : Option Word) : (G.latchU r).history = G.history := rfl
@[simp] theorem Group.latchU_nextBase (G : Group) (r : Option Word) : (G.latchU r).nextBase = G.nextBase := rfl
@[simp] theorem Group.latchU_ended (G : Group) (r : Option Word) : (G.latchU r).ended = G.ended := rfl
@[simp] theorem Group.latchU_stopped (G : Group) (r : Option Word) : (G.latchU r).stopped = G.stopped := rfl
@[simp] theorem Group.latchU_stopping (G : Group) (r : Option Word) : (G.latchU r).stopping = G.stopping := rfl
@[simp] theorem Group.latchU_saved (G : Group) (r : Option Word) : (G.latchU r).saved = G.saved := rfl
@[simp] theorem Group.latchU_regBlocks (G : Group) (r : Option Word) : (G.latchU r).regBlocks = G.regBlocks := rfl
@[simp] theorem Group.latchU_zBlocks (G : Group) (r : Option Word) : (G.latchU r).zBlocks = G.zBlocks := rfl
@[simp] theorem Group.latchU_remote (G : Group) (r : Option Word) : (G.latchU r).remote = G.remote := rfl
@[simp] theorem Group.latchU_began (G : Group) (r : Option Word) : (G.latchU r).began = G.began := rfl
@[simp] theorem Group.latchU_word (G : Group) (r : Option Word) : (G.latchU r).word = G.word := rfl
@[simp] theorem Group.latchU_ahead (G : Group) (r : Option Word) : (G.latchU r).ahead = G.ahead := rfl
@[simp] theorem Group.latchU_pieces (G : Group) (r : Option Word) : (G.latchU r).pieces = G.pieces := rfl
@[simp] theorem Group.latchU_lazy (G : Group) (r : Option Word) : (G.latchU r).lazy = G.lazy := rfl
@[simp] theorem Group.writeOut_quarter (G : Group) (d : Opd) (r : Word) : (G.writeOut d r).quarter = G.quarter := by cases d <;> rfl
@[simp] theorem Group.writeOut_lanes (G : Group) (d : Opd) (r : Word) : (G.writeOut d r).lanes = G.lanes := by cases d <;> rfl
@[simp] theorem Group.writeOut_k (G : Group) (d : Opd) (r : Word) : (G.writeOut d r).k = G.k := by cases d <;> rfl
@[simp] theorem Group.writeOut_f (G : Group) (d : Opd) (r : Word) : (G.writeOut d r).f = G.f := by cases d <;> rfl
@[simp] theorem Group.writeOut_z (G : Group) (d : Opd) (r : Word) : (G.writeOut d r).z = G.z := by cases d <;> rfl
@[simp] theorem Group.writeOut_uq (G : Group) (d : Opd) (r : Word) : (G.writeOut d r).uq = G.uq := by cases d <;> rfl
@[simp] theorem Group.writeOut_runMask (G : Group) (d : Opd) (r : Word) : (G.writeOut d r).runMask = G.runMask := by cases d <;> rfl
@[simp] theorem Group.writeOut_runPos (G : Group) (d : Opd) (r : Word) : (G.writeOut d r).runPos = G.runPos := by cases d <;> rfl
@[simp] theorem Group.writeOut_fifo (G : Group) (d : Opd) (r : Word) : (G.writeOut d r).fifo = G.fifo := by cases d <;> rfl
@[simp] theorem Group.writeOut_early (G : Group) (d : Opd) (r : Word) : (G.writeOut d r).early = G.early := by cases d <;> rfl
@[simp] theorem Group.writeOut_handlers (G : Group) (d : Opd) (r : Word) : (G.writeOut d r).handlers = G.handlers := by cases d <;> rfl
@[simp] theorem Group.writeOut_trapLevel (G : Group) (d : Opd) (r : Word) : (G.writeOut d r).trapLevel = G.trapLevel := by cases d <;> rfl
@[simp] theorem Group.writeOut_trapCause (G : Group) (d : Opd) (r : Word) : (G.writeOut d r).trapCause = G.trapCause := by cases d <;> rfl
@[simp] theorem Group.writeOut_trapPc (G : Group) (d : Opd) (r : Word) : (G.writeOut d r).trapPc = G.trapPc := by cases d <;> rfl
@[simp] theorem Group.writeOut_trapInfo (G : Group) (d : Opd) (r : Word) : (G.writeOut d r).trapInfo = G.trapInfo := by cases d <;> rfl
@[simp] theorem Group.writeOut_handler (G : Group) (d : Opd) (r : Word) : (G.writeOut d r).handler = G.handler := by cases d <;> rfl
@[simp] theorem Group.writeOut_heldHandler (G : Group) (d : Opd) (r : Word) : (G.writeOut d r).heldHandler = G.heldHandler := by cases d <;> rfl
@[simp] theorem Group.writeOut_pending (G : Group) (d : Opd) (r : Word) : (G.writeOut d r).pending = G.pending := by cases d <;> rfl
@[simp] theorem Group.writeOut_history (G : Group) (d : Opd) (r : Word) : (G.writeOut d r).history = G.history := by cases d <;> rfl
@[simp] theorem Group.writeOut_nextBase (G : Group) (d : Opd) (r : Word) : (G.writeOut d r).nextBase = G.nextBase := by cases d <;> rfl
@[simp] theorem Group.writeOut_ended (G : Group) (d : Opd) (r : Word) : (G.writeOut d r).ended = G.ended := by cases d <;> rfl
@[simp] theorem Group.writeOut_stopped (G : Group) (d : Opd) (r : Word) : (G.writeOut d r).stopped = G.stopped := by cases d <;> rfl
@[simp] theorem Group.writeOut_stopping (G : Group) (d : Opd) (r : Word) : (G.writeOut d r).stopping = G.stopping := by cases d <;> rfl
@[simp] theorem Group.writeOut_saved (G : Group) (d : Opd) (r : Word) : (G.writeOut d r).saved = G.saved := by cases d <;> rfl
@[simp] theorem Group.writeOut_regBlocks (G : Group) (d : Opd) (r : Word) : (G.writeOut d r).regBlocks = G.regBlocks := by cases d <;> rfl
@[simp] theorem Group.writeOut_zBlocks (G : Group) (d : Opd) (r : Word) : (G.writeOut d r).zBlocks = G.zBlocks := by cases d <;> rfl
@[simp] theorem Group.writeOut_remote (G : Group) (d : Opd) (r : Word) : (G.writeOut d r).remote = G.remote := by cases d <;> rfl
@[simp] theorem Group.writeOut_began (G : Group) (d : Opd) (r : Word) : (G.writeOut d r).began = G.began := by cases d <;> rfl
@[simp] theorem Group.writeOut_word (G : Group) (d : Opd) (r : Word) : (G.writeOut d r).word = G.word := by cases d <;> rfl
@[simp] theorem Group.writeOut_ahead (G : Group) (d : Opd) (r : Word) : (G.writeOut d r).ahead = G.ahead := by cases d <;> rfl
@[simp] theorem Group.writeOut_pieces (G : Group) (d : Opd) (r : Word) : (G.writeOut d r).pieces = G.pieces := by cases d <;> rfl
@[simp] theorem Group.writeOut_lazy (G : Group) (d : Opd) (r : Word) : (G.writeOut d r).lazy = G.lazy := by cases d <;> rfl
@[simp] theorem Group.result_quarter (G : Group) (d : Opd) (r : Word) : (G.result d r).quarter = G.quarter := by cases d <;> rfl
@[simp] theorem Group.result_lanes (G : Group) (d : Opd) (r : Word) : (G.result d r).lanes = G.lanes := by cases d <;> rfl
@[simp] theorem Group.result_k (G : Group) (d : Opd) (r : Word) : (G.result d r).k = G.k := by cases d <;> rfl
@[simp] theorem Group.result_f (G : Group) (d : Opd) (r : Word) : (G.result d r).f = G.f := by cases d <;> rfl
@[simp] theorem Group.result_z (G : Group) (d : Opd) (r : Word) : (G.result d r).z = G.z := by cases d <;> rfl
@[simp] theorem Group.result_runMask (G : Group) (d : Opd) (r : Word) : (G.result d r).runMask = G.runMask := by cases d <;> rfl
@[simp] theorem Group.result_runPos (G : Group) (d : Opd) (r : Word) : (G.result d r).runPos = G.runPos := by cases d <;> rfl
@[simp] theorem Group.result_fifo (G : Group) (d : Opd) (r : Word) : (G.result d r).fifo = G.fifo := by cases d <;> rfl
@[simp] theorem Group.result_early (G : Group) (d : Opd) (r : Word) : (G.result d r).early = G.early := by cases d <;> rfl
@[simp] theorem Group.result_handlers (G : Group) (d : Opd) (r : Word) : (G.result d r).handlers = G.handlers := by cases d <;> rfl
@[simp] theorem Group.result_trapLevel (G : Group) (d : Opd) (r : Word) : (G.result d r).trapLevel = G.trapLevel := by cases d <;> rfl
@[simp] theorem Group.result_trapCause (G : Group) (d : Opd) (r : Word) : (G.result d r).trapCause = G.trapCause := by cases d <;> rfl
@[simp] theorem Group.result_trapPc (G : Group) (d : Opd) (r : Word) : (G.result d r).trapPc = G.trapPc := by cases d <;> rfl
@[simp] theorem Group.result_trapInfo (G : Group) (d : Opd) (r : Word) : (G.result d r).trapInfo = G.trapInfo := by cases d <;> rfl
@[simp] theorem Group.result_handler (G : Group) (d : Opd) (r : Word) : (G.result d r).handler = G.handler := by cases d <;> rfl
@[simp] theorem Group.result_heldHandler (G : Group) (d : Opd) (r : Word) : (G.result d r).heldHandler = G.heldHandler := by cases d <;> rfl
@[simp] theorem Group.result_pending (G : Group) (d : Opd) (r : Word) : (G.result d r).pending = G.pending := by cases d <;> rfl
@[simp] theorem Group.result_history (G : Group) (d : Opd) (r : Word) : (G.result d r).history = G.history := by cases d <;> rfl
@[simp] theorem Group.result_nextBase (G : Group) (d : Opd) (r : Word) : (G.result d r).nextBase = G.nextBase := by cases d <;> rfl
@[simp] theorem Group.result_ended (G : Group) (d : Opd) (r : Word) : (G.result d r).ended = G.ended := by cases d <;> rfl
@[simp] theorem Group.result_stopped (G : Group) (d : Opd) (r : Word) : (G.result d r).stopped = G.stopped := by cases d <;> rfl
@[simp] theorem Group.result_stopping (G : Group) (d : Opd) (r : Word) : (G.result d r).stopping = G.stopping := by cases d <;> rfl
@[simp] theorem Group.result_saved (G : Group) (d : Opd) (r : Word) : (G.result d r).saved = G.saved := by cases d <;> rfl
@[simp] theorem Group.result_regBlocks (G : Group) (d : Opd) (r : Word) : (G.result d r).regBlocks = G.regBlocks := by cases d <;> rfl
@[simp] theorem Group.result_zBlocks (G : Group) (d : Opd) (r : Word) : (G.result d r).zBlocks = G.zBlocks := by cases d <;> rfl
@[simp] theorem Group.result_remote (G : Group) (d : Opd) (r : Word) : (G.result d r).remote = G.remote := by cases d <;> rfl
@[simp] theorem Group.result_began (G : Group) (d : Opd) (r : Word) : (G.result d r).began = G.began := by cases d <;> rfl
@[simp] theorem Group.result_word (G : Group) (d : Opd) (r : Word) : (G.result d r).word = G.word := by cases d <;> rfl
@[simp] theorem Group.result_ahead (G : Group) (d : Opd) (r : Word) : (G.result d r).ahead = G.ahead := by cases d <;> rfl
@[simp] theorem Group.result_pieces (G : Group) (d : Opd) (r : Word) : (G.result d r).pieces = G.pieces := by cases d <;> rfl
@[simp] theorem Group.result_lazy (G : Group) (d : Opd) (r : Word) : (G.result d r).lazy = G.lazy := by cases d <;> rfl
@[simp] theorem Group.results_quarter (G : Group) (d : Opd) (rs : List Word) : (G.results d rs).quarter = G.quarter := rfl
@[simp] theorem Group.results_lanes (G : Group) (d : Opd) (rs : List Word) : (G.results d rs).lanes = G.lanes := rfl
@[simp] theorem Group.results_k (G : Group) (d : Opd) (rs : List Word) : (G.results d rs).k = G.k := rfl
@[simp] theorem Group.results_f (G : Group) (d : Opd) (rs : List Word) : (G.results d rs).f = G.f := rfl
@[simp] theorem Group.results_z (G : Group) (d : Opd) (rs : List Word) : (G.results d rs).z = G.z := rfl
@[simp] theorem Group.results_runMask (G : Group) (d : Opd) (rs : List Word) : (G.results d rs).runMask = G.runMask := rfl
@[simp] theorem Group.results_runPos (G : Group) (d : Opd) (rs : List Word) : (G.results d rs).runPos = G.runPos := rfl
@[simp] theorem Group.results_fifo (G : Group) (d : Opd) (rs : List Word) : (G.results d rs).fifo = G.fifo := rfl
@[simp] theorem Group.results_early (G : Group) (d : Opd) (rs : List Word) : (G.results d rs).early = G.early := rfl
@[simp] theorem Group.results_handlers (G : Group) (d : Opd) (rs : List Word) : (G.results d rs).handlers = G.handlers := rfl
@[simp] theorem Group.results_trapLevel (G : Group) (d : Opd) (rs : List Word) : (G.results d rs).trapLevel = G.trapLevel := rfl
@[simp] theorem Group.results_trapCause (G : Group) (d : Opd) (rs : List Word) : (G.results d rs).trapCause = G.trapCause := rfl
@[simp] theorem Group.results_trapPc (G : Group) (d : Opd) (rs : List Word) : (G.results d rs).trapPc = G.trapPc := rfl
@[simp] theorem Group.results_trapInfo (G : Group) (d : Opd) (rs : List Word) : (G.results d rs).trapInfo = G.trapInfo := rfl
@[simp] theorem Group.results_handler (G : Group) (d : Opd) (rs : List Word) : (G.results d rs).handler = G.handler := rfl
@[simp] theorem Group.results_heldHandler (G : Group) (d : Opd) (rs : List Word) : (G.results d rs).heldHandler = G.heldHandler := rfl
@[simp] theorem Group.results_pending (G : Group) (d : Opd) (rs : List Word) : (G.results d rs).pending = G.pending := rfl
@[simp] theorem Group.results_history (G : Group) (d : Opd) (rs : List Word) : (G.results d rs).history = G.history := rfl
@[simp] theorem Group.results_nextBase (G : Group) (d : Opd) (rs : List Word) : (G.results d rs).nextBase = G.nextBase := rfl
@[simp] theorem Group.results_ended (G : Group) (d : Opd) (rs : List Word) : (G.results d rs).ended = G.ended := rfl
@[simp] theorem Group.results_stopped (G : Group) (d : Opd) (rs : List Word) : (G.results d rs).stopped = G.stopped := rfl
@[simp] theorem Group.results_stopping (G : Group) (d : Opd) (rs : List Word) : (G.results d rs).stopping = G.stopping := rfl
@[simp] theorem Group.results_saved (G : Group) (d : Opd) (rs : List Word) : (G.results d rs).saved = G.saved := rfl
@[simp] theorem Group.results_regBlocks (G : Group) (d : Opd) (rs : List Word) : (G.results d rs).regBlocks = G.regBlocks := rfl
@[simp] theorem Group.results_zBlocks (G : Group) (d : Opd) (rs : List Word) : (G.results d rs).zBlocks = G.zBlocks := rfl
@[simp] theorem Group.results_remote (G : Group) (d : Opd) (rs : List Word) : (G.results d rs).remote = G.remote := rfl
@[simp] theorem Group.results_began (G : Group) (d : Opd) (rs : List Word) : (G.results d rs).began = G.began := rfl
@[simp] theorem Group.results_word (G : Group) (d : Opd) (rs : List Word) : (G.results d rs).word = G.word := rfl
@[simp] theorem Group.results_ahead (G : Group) (d : Opd) (rs : List Word) : (G.results d rs).ahead = G.ahead := rfl
@[simp] theorem Group.results_pieces (G : Group) (d : Opd) (rs : List Word) : (G.results d rs).pieces = G.pieces := rfl
@[simp] theorem Group.results_lazy (G : Group) (d : Opd) (rs : List Word) : (G.results d rs).lazy = G.lazy := rfl
@[simp] theorem Group.endLanes_quarter (G : Group) (ls : List Nat) : (G.endLanes ls).quarter = G.quarter := rfl
@[simp] theorem Group.endLanes_s (G : Group) (ls : List Nat) : (G.endLanes ls).s = G.s := rfl
@[simp] theorem Group.endLanes_f (G : Group) (ls : List Nat) : (G.endLanes ls).f = G.f := rfl
@[simp] theorem Group.endLanes_z (G : Group) (ls : List Nat) : (G.endLanes ls).z = G.z := rfl
@[simp] theorem Group.endLanes_uq (G : Group) (ls : List Nat) : (G.endLanes ls).uq = G.uq := rfl
@[simp] theorem Group.endLanes_runPos (G : Group) (ls : List Nat) : (G.endLanes ls).runPos = G.runPos := rfl
@[simp] theorem Group.endLanes_fifo (G : Group) (ls : List Nat) : (G.endLanes ls).fifo = G.fifo := rfl
@[simp] theorem Group.endLanes_early (G : Group) (ls : List Nat) : (G.endLanes ls).early = G.early := rfl
@[simp] theorem Group.endLanes_handlers (G : Group) (ls : List Nat) : (G.endLanes ls).handlers = G.handlers := rfl
@[simp] theorem Group.endLanes_trapLevel (G : Group) (ls : List Nat) : (G.endLanes ls).trapLevel = G.trapLevel := rfl
@[simp] theorem Group.endLanes_trapCause (G : Group) (ls : List Nat) : (G.endLanes ls).trapCause = G.trapCause := rfl
@[simp] theorem Group.endLanes_trapPc (G : Group) (ls : List Nat) : (G.endLanes ls).trapPc = G.trapPc := rfl
@[simp] theorem Group.endLanes_trapInfo (G : Group) (ls : List Nat) : (G.endLanes ls).trapInfo = G.trapInfo := rfl
@[simp] theorem Group.endLanes_handler (G : Group) (ls : List Nat) : (G.endLanes ls).handler = G.handler := rfl
@[simp] theorem Group.endLanes_heldHandler (G : Group) (ls : List Nat) : (G.endLanes ls).heldHandler = G.heldHandler := rfl
@[simp] theorem Group.endLanes_pending (G : Group) (ls : List Nat) : (G.endLanes ls).pending = G.pending := rfl
@[simp] theorem Group.endLanes_history (G : Group) (ls : List Nat) : (G.endLanes ls).history = G.history := rfl
@[simp] theorem Group.endLanes_nextBase (G : Group) (ls : List Nat) : (G.endLanes ls).nextBase = G.nextBase := rfl
@[simp] theorem Group.endLanes_ended (G : Group) (ls : List Nat) : (G.endLanes ls).ended = G.ended := rfl
@[simp] theorem Group.endLanes_stopped (G : Group) (ls : List Nat) : (G.endLanes ls).stopped = G.stopped := rfl
@[simp] theorem Group.endLanes_stopping (G : Group) (ls : List Nat) : (G.endLanes ls).stopping = G.stopping := rfl
@[simp] theorem Group.endLanes_saved (G : Group) (ls : List Nat) : (G.endLanes ls).saved = G.saved := rfl
@[simp] theorem Group.endLanes_regBlocks (G : Group) (ls : List Nat) : (G.endLanes ls).regBlocks = G.regBlocks := rfl
@[simp] theorem Group.endLanes_zBlocks (G : Group) (ls : List Nat) : (G.endLanes ls).zBlocks = G.zBlocks := rfl
@[simp] theorem Group.endLanes_remote (G : Group) (ls : List Nat) : (G.endLanes ls).remote = G.remote := rfl
@[simp] theorem Group.endLanes_began (G : Group) (ls : List Nat) : (G.endLanes ls).began = G.began := rfl
@[simp] theorem Group.endLanes_word (G : Group) (ls : List Nat) : (G.endLanes ls).word = G.word := rfl
@[simp] theorem Group.endLanes_ahead (G : Group) (ls : List Nat) : (G.endLanes ls).ahead = G.ahead := rfl
@[simp] theorem Group.endLanes_pieces (G : Group) (ls : List Nat) : (G.endLanes ls).pieces = G.pieces := rfl
@[simp] theorem Group.endLanes_lazy (G : Group) (ls : List Nat) : (G.endLanes ls).lazy = G.lazy := rfl
@[simp] theorem Group.storeBytes_quarter (G : Group) (bs : List (Place × Byte)) : (G.storeBytes bs).quarter = G.quarter := by
  unfold Group.storeBytes; split <;> rfl
@[simp] theorem Group.storeBytes_lanes (G : Group) (bs : List (Place × Byte)) : (G.storeBytes bs).lanes = G.lanes := by
  unfold Group.storeBytes; split <;> rfl
@[simp] theorem Group.storeBytes_s (G : Group) (bs : List (Place × Byte)) : (G.storeBytes bs).s = G.s := by
  unfold Group.storeBytes; split <;> rfl
@[simp] theorem Group.storeBytes_k (G : Group) (bs : List (Place × Byte)) : (G.storeBytes bs).k = G.k := by
  unfold Group.storeBytes; split <;> rfl
@[simp] theorem Group.storeBytes_f (G : Group) (bs : List (Place × Byte)) : (G.storeBytes bs).f = G.f := by
  unfold Group.storeBytes; split <;> rfl
@[simp] theorem Group.storeBytes_z (G : Group) (bs : List (Place × Byte)) : (G.storeBytes bs).z = G.z := by
  unfold Group.storeBytes; split <;> rfl
@[simp] theorem Group.storeBytes_uq (G : Group) (bs : List (Place × Byte)) : (G.storeBytes bs).uq = G.uq := by
  unfold Group.storeBytes; split <;> rfl
@[simp] theorem Group.storeBytes_runMask (G : Group) (bs : List (Place × Byte)) : (G.storeBytes bs).runMask = G.runMask := by
  unfold Group.storeBytes; split <;> rfl
@[simp] theorem Group.storeBytes_runPos (G : Group) (bs : List (Place × Byte)) : (G.storeBytes bs).runPos = G.runPos := by
  unfold Group.storeBytes; split <;> rfl
@[simp] theorem Group.storeBytes_early (G : Group) (bs : List (Place × Byte)) : (G.storeBytes bs).early = G.early := by
  unfold Group.storeBytes; split <;> rfl
@[simp] theorem Group.storeBytes_handlers (G : Group) (bs : List (Place × Byte)) : (G.storeBytes bs).handlers = G.handlers := by
  unfold Group.storeBytes; split <;> rfl
@[simp] theorem Group.storeBytes_trapLevel (G : Group) (bs : List (Place × Byte)) : (G.storeBytes bs).trapLevel = G.trapLevel := by
  unfold Group.storeBytes; split <;> rfl
@[simp] theorem Group.storeBytes_trapCause (G : Group) (bs : List (Place × Byte)) : (G.storeBytes bs).trapCause = G.trapCause := by
  unfold Group.storeBytes; split <;> rfl
@[simp] theorem Group.storeBytes_trapPc (G : Group) (bs : List (Place × Byte)) : (G.storeBytes bs).trapPc = G.trapPc := by
  unfold Group.storeBytes; split <;> rfl
@[simp] theorem Group.storeBytes_trapInfo (G : Group) (bs : List (Place × Byte)) : (G.storeBytes bs).trapInfo = G.trapInfo := by
  unfold Group.storeBytes; split <;> rfl
@[simp] theorem Group.storeBytes_handler (G : Group) (bs : List (Place × Byte)) : (G.storeBytes bs).handler = G.handler := by
  unfold Group.storeBytes; split <;> rfl
@[simp] theorem Group.storeBytes_heldHandler (G : Group) (bs : List (Place × Byte)) : (G.storeBytes bs).heldHandler = G.heldHandler := by
  unfold Group.storeBytes; split <;> rfl
@[simp] theorem Group.storeBytes_pending (G : Group) (bs : List (Place × Byte)) : (G.storeBytes bs).pending = G.pending := by
  unfold Group.storeBytes; split <;> rfl
@[simp] theorem Group.storeBytes_history (G : Group) (bs : List (Place × Byte)) : (G.storeBytes bs).history = G.history := by
  unfold Group.storeBytes; split <;> rfl
@[simp] theorem Group.storeBytes_nextBase (G : Group) (bs : List (Place × Byte)) : (G.storeBytes bs).nextBase = G.nextBase := by
  unfold Group.storeBytes; split <;> rfl
@[simp] theorem Group.storeBytes_ended (G : Group) (bs : List (Place × Byte)) : (G.storeBytes bs).ended = G.ended := by
  unfold Group.storeBytes; split <;> rfl
@[simp] theorem Group.storeBytes_stopped (G : Group) (bs : List (Place × Byte)) : (G.storeBytes bs).stopped = G.stopped := by
  unfold Group.storeBytes; split <;> rfl
@[simp] theorem Group.storeBytes_stopping (G : Group) (bs : List (Place × Byte)) : (G.storeBytes bs).stopping = G.stopping := by
  unfold Group.storeBytes; split <;> rfl
@[simp] theorem Group.storeBytes_saved (G : Group) (bs : List (Place × Byte)) : (G.storeBytes bs).saved = G.saved := by
  unfold Group.storeBytes; split <;> rfl
@[simp] theorem Group.storeBytes_regBlocks (G : Group) (bs : List (Place × Byte)) : (G.storeBytes bs).regBlocks = G.regBlocks := by
  unfold Group.storeBytes; split <;> rfl
@[simp] theorem Group.storeBytes_zBlocks (G : Group) (bs : List (Place × Byte)) : (G.storeBytes bs).zBlocks = G.zBlocks := by
  unfold Group.storeBytes; split <;> rfl
@[simp] theorem Group.storeBytes_remote (G : Group) (bs : List (Place × Byte)) : (G.storeBytes bs).remote = G.remote := by
  unfold Group.storeBytes; split <;> rfl
@[simp] theorem Group.storeBytes_began (G : Group) (bs : List (Place × Byte)) : (G.storeBytes bs).began = G.began := by
  unfold Group.storeBytes; split <;> rfl
@[simp] theorem Group.storeBytes_word (G : Group) (bs : List (Place × Byte)) : (G.storeBytes bs).word = G.word := by
  unfold Group.storeBytes; split <;> rfl
@[simp] theorem Group.storeBytes_ahead (G : Group) (bs : List (Place × Byte)) : (G.storeBytes bs).ahead = G.ahead := by
  unfold Group.storeBytes; split <;> rfl
@[simp] theorem Group.storeBytes_pieces (G : Group) (bs : List (Place × Byte)) : (G.storeBytes bs).pieces = G.pieces := by
  unfold Group.storeBytes; split <;> rfl
@[simp] theorem Group.storeBytes_lazy (G : Group) (bs : List (Place × Byte)) : (G.storeBytes bs).lazy = G.lazy := by
  unfold Group.storeBytes; split <;> rfl

/-! ## Fields of a lane kept by its updates -/

@[simp] theorem Lane.latch_live (L : Lane) (r : Option Word) : (L.latch r).live = L.live := rfl
@[simp] theorem Lane.latch_pc (L : Lane) (r : Option Word) : (L.latch r).pc = L.pc := rfl
@[simp] theorem Lane.latch_meet (L : Lane) (r : Option Word) : (L.latch r).meet = L.meet := rfl
@[simp] theorem Lane.latch_status (L : Lane) (r : Option Word) : (L.latch r).status = L.status := rfl
@[simp] theorem Lane.latch_rpt (L : Lane) (r : Option Word) : (L.latch r).rpt = L.rpt := rfl
@[simp] theorem Lane.latch_frag (L : Lane) (r : Option Word) : (L.latch r).frag = L.frag := rfl
@[simp] theorem Lane.latch_hold (L : Lane) (r : Option Word) : (L.latch r).hold = L.hold := rfl
@[simp] theorem Lane.latch_halt (L : Lane) (r : Option Word) : (L.latch r).halt = L.halt := rfl
@[simp] theorem Lane.latch_stalled (L : Lane) (r : Option Word) : (L.latch r).stalled = L.stalled := rfl
@[simp] theorem Lane.latch_arrive (L : Lane) (r : Option Word) : (L.latch r).arrive = L.arrive := rfl
@[simp] theorem Lane.latch_inRun (L : Lane) (r : Option Word) : (L.latch r).inRun = L.inRun := rfl
@[simp] theorem Lane.latch_level (L : Lane) (r : Option Word) : (L.latch r).level = L.level := rfl
@[simp] theorem Lane.latch_helper (L : Lane) (r : Option Word) : (L.latch r).helper = L.helper := rfl
@[simp] theorem Lane.latch_v (L : Lane) (r : Option Word) : (L.latch r).v = L.v := rfl
@[simp] theorem Lane.setV_live (L : Lane) (r : Nat) (w : Word) : (L.setV r w).live = L.live := rfl
@[simp] theorem Lane.setV_pc (L : Lane) (r : Nat) (w : Word) : (L.setV r w).pc = L.pc := rfl
@[simp] theorem Lane.setV_meet (L : Lane) (r : Nat) (w : Word) : (L.setV r w).meet = L.meet := rfl
@[simp] theorem Lane.setV_status (L : Lane) (r : Nat) (w : Word) : (L.setV r w).status = L.status := rfl
@[simp] theorem Lane.setV_rpt (L : Lane) (r : Nat) (w : Word) : (L.setV r w).rpt = L.rpt := rfl
@[simp] theorem Lane.setV_frag (L : Lane) (r : Nat) (w : Word) : (L.setV r w).frag = L.frag := rfl
@[simp] theorem Lane.setV_hold (L : Lane) (r : Nat) (w : Word) : (L.setV r w).hold = L.hold := rfl
@[simp] theorem Lane.setV_halt (L : Lane) (r : Nat) (w : Word) : (L.setV r w).halt = L.halt := rfl
@[simp] theorem Lane.setV_stalled (L : Lane) (r : Nat) (w : Word) : (L.setV r w).stalled = L.stalled := rfl
@[simp] theorem Lane.setV_arrive (L : Lane) (r : Nat) (w : Word) : (L.setV r w).arrive = L.arrive := rfl
@[simp] theorem Lane.setV_inRun (L : Lane) (r : Nat) (w : Word) : (L.setV r w).inRun = L.inRun := rfl
@[simp] theorem Lane.setV_level (L : Lane) (r : Nat) (w : Word) : (L.setV r w).level = L.level := rfl
@[simp] theorem Lane.setV_helper (L : Lane) (r : Nat) (w : Word) : (L.setV r w).helper = L.helper := rfl
@[simp] theorem Lane.setV_q (L : Lane) (r : Nat) (w : Word) : (L.setV r w).q = L.q := rfl
@[simp] theorem Lane.setVs_live (L : Lane) (r : Nat) (ws : List Word) : (L.setVs r ws).live = L.live := rfl
@[simp] theorem Lane.setVs_pc (L : Lane) (r : Nat) (ws : List Word) : (L.setVs r ws).pc = L.pc := rfl
@[simp] theorem Lane.setVs_meet (L : Lane) (r : Nat) (ws : List Word) : (L.setVs r ws).meet = L.meet := rfl
@[simp] theorem Lane.setVs_status (L : Lane) (r : Nat) (ws : List Word) : (L.setVs r ws).status = L.status := rfl
@[simp] theorem Lane.setVs_rpt (L : Lane) (r : Nat) (ws : List Word) : (L.setVs r ws).rpt = L.rpt := rfl
@[simp] theorem Lane.setVs_frag (L : Lane) (r : Nat) (ws : List Word) : (L.setVs r ws).frag = L.frag := rfl
@[simp] theorem Lane.setVs_hold (L : Lane) (r : Nat) (ws : List Word) : (L.setVs r ws).hold = L.hold := rfl
@[simp] theorem Lane.setVs_halt (L : Lane) (r : Nat) (ws : List Word) : (L.setVs r ws).halt = L.halt := rfl
@[simp] theorem Lane.setVs_stalled (L : Lane) (r : Nat) (ws : List Word) : (L.setVs r ws).stalled = L.stalled := rfl
@[simp] theorem Lane.setVs_arrive (L : Lane) (r : Nat) (ws : List Word) : (L.setVs r ws).arrive = L.arrive := rfl
@[simp] theorem Lane.setVs_inRun (L : Lane) (r : Nat) (ws : List Word) : (L.setVs r ws).inRun = L.inRun := rfl
@[simp] theorem Lane.setVs_level (L : Lane) (r : Nat) (ws : List Word) : (L.setVs r ws).level = L.level := rfl
@[simp] theorem Lane.setVs_helper (L : Lane) (r : Nat) (ws : List Word) : (L.setVs r ws).helper = L.helper := rfl
@[simp] theorem Lane.setVs_q (L : Lane) (r : Nat) (ws : List Word) : (L.setVs r ws).q = L.q := rfl
@[simp] theorem Lane.raise_live (L : Lane) (f : Flags) : (L.raise f).live = L.live := rfl
@[simp] theorem Lane.raise_pc (L : Lane) (f : Flags) : (L.raise f).pc = L.pc := rfl
@[simp] theorem Lane.raise_meet (L : Lane) (f : Flags) : (L.raise f).meet = L.meet := rfl
@[simp] theorem Lane.raise_rpt (L : Lane) (f : Flags) : (L.raise f).rpt = L.rpt := rfl
@[simp] theorem Lane.raise_frag (L : Lane) (f : Flags) : (L.raise f).frag = L.frag := rfl
@[simp] theorem Lane.raise_hold (L : Lane) (f : Flags) : (L.raise f).hold = L.hold := rfl
@[simp] theorem Lane.raise_halt (L : Lane) (f : Flags) : (L.raise f).halt = L.halt := rfl
@[simp] theorem Lane.raise_stalled (L : Lane) (f : Flags) : (L.raise f).stalled = L.stalled := rfl
@[simp] theorem Lane.raise_arrive (L : Lane) (f : Flags) : (L.raise f).arrive = L.arrive := rfl
@[simp] theorem Lane.raise_inRun (L : Lane) (f : Flags) : (L.raise f).inRun = L.inRun := rfl
@[simp] theorem Lane.raise_level (L : Lane) (f : Flags) : (L.raise f).level = L.level := rfl
@[simp] theorem Lane.raise_helper (L : Lane) (f : Flags) : (L.raise f).helper = L.helper := rfl
@[simp] theorem Lane.raise_q (L : Lane) (f : Flags) : (L.raise f).q = L.q := rfl
@[simp] theorem Lane.raise_v (L : Lane) (f : Flags) : (L.raise f).v = L.v := rfl
@[simp] theorem Lane.writeOut_live (L : Lane) (d : Opd) (r : Word) : (L.writeOut d r).live = L.live := by cases d <;> rfl
@[simp] theorem Lane.writeOut_pc (L : Lane) (d : Opd) (r : Word) : (L.writeOut d r).pc = L.pc := by cases d <;> rfl
@[simp] theorem Lane.writeOut_meet (L : Lane) (d : Opd) (r : Word) : (L.writeOut d r).meet = L.meet := by cases d <;> rfl
@[simp] theorem Lane.writeOut_status (L : Lane) (d : Opd) (r : Word) : (L.writeOut d r).status = L.status := by cases d <;> rfl
@[simp] theorem Lane.writeOut_rpt (L : Lane) (d : Opd) (r : Word) : (L.writeOut d r).rpt = L.rpt := by cases d <;> rfl
@[simp] theorem Lane.writeOut_frag (L : Lane) (d : Opd) (r : Word) : (L.writeOut d r).frag = L.frag := by cases d <;> rfl
@[simp] theorem Lane.writeOut_hold (L : Lane) (d : Opd) (r : Word) : (L.writeOut d r).hold = L.hold := by cases d <;> rfl
@[simp] theorem Lane.writeOut_halt (L : Lane) (d : Opd) (r : Word) : (L.writeOut d r).halt = L.halt := by cases d <;> rfl
@[simp] theorem Lane.writeOut_stalled (L : Lane) (d : Opd) (r : Word) : (L.writeOut d r).stalled = L.stalled := by cases d <;> rfl
@[simp] theorem Lane.writeOut_arrive (L : Lane) (d : Opd) (r : Word) : (L.writeOut d r).arrive = L.arrive := by cases d <;> rfl
@[simp] theorem Lane.writeOut_inRun (L : Lane) (d : Opd) (r : Word) : (L.writeOut d r).inRun = L.inRun := by cases d <;> rfl
@[simp] theorem Lane.writeOut_level (L : Lane) (d : Opd) (r : Word) : (L.writeOut d r).level = L.level := by cases d <;> rfl
@[simp] theorem Lane.writeOut_helper (L : Lane) (d : Opd) (r : Word) : (L.writeOut d r).helper = L.helper := by cases d <;> rfl
@[simp] theorem Lane.writeOut_q (L : Lane) (d : Opd) (r : Word) : (L.writeOut d r).q = L.q := by cases d <;> rfl
@[simp] theorem Lane.result_live (L : Lane) (d : Opd) (r : Word) : (L.result d r).live = L.live := by cases d <;> rfl
@[simp] theorem Lane.result_pc (L : Lane) (d : Opd) (r : Word) : (L.result d r).pc = L.pc := by cases d <;> rfl
@[simp] theorem Lane.result_meet (L : Lane) (d : Opd) (r : Word) : (L.result d r).meet = L.meet := by cases d <;> rfl
@[simp] theorem Lane.result_status (L : Lane) (d : Opd) (r : Word) : (L.result d r).status = L.status := by cases d <;> rfl
@[simp] theorem Lane.result_rpt (L : Lane) (d : Opd) (r : Word) : (L.result d r).rpt = L.rpt := by cases d <;> rfl
@[simp] theorem Lane.result_frag (L : Lane) (d : Opd) (r : Word) : (L.result d r).frag = L.frag := by cases d <;> rfl
@[simp] theorem Lane.result_hold (L : Lane) (d : Opd) (r : Word) : (L.result d r).hold = L.hold := by cases d <;> rfl
@[simp] theorem Lane.result_halt (L : Lane) (d : Opd) (r : Word) : (L.result d r).halt = L.halt := by cases d <;> rfl
@[simp] theorem Lane.result_stalled (L : Lane) (d : Opd) (r : Word) : (L.result d r).stalled = L.stalled := by cases d <;> rfl
@[simp] theorem Lane.result_arrive (L : Lane) (d : Opd) (r : Word) : (L.result d r).arrive = L.arrive := by cases d <;> rfl
@[simp] theorem Lane.result_inRun (L : Lane) (d : Opd) (r : Word) : (L.result d r).inRun = L.inRun := by cases d <;> rfl
@[simp] theorem Lane.result_level (L : Lane) (d : Opd) (r : Word) : (L.result d r).level = L.level := by cases d <;> rfl
@[simp] theorem Lane.result_helper (L : Lane) (d : Opd) (r : Word) : (L.result d r).helper = L.helper := by cases d <;> rfl
@[simp] theorem Lane.resultF_live (L : Lane) (d : Opd) (r : Word) (f : Flags) : (L.resultF d r f).live = L.live := by cases d <;> rfl
@[simp] theorem Lane.resultF_pc (L : Lane) (d : Opd) (r : Word) (f : Flags) : (L.resultF d r f).pc = L.pc := by cases d <;> rfl
@[simp] theorem Lane.resultF_meet (L : Lane) (d : Opd) (r : Word) (f : Flags) : (L.resultF d r f).meet = L.meet := by cases d <;> rfl
@[simp] theorem Lane.resultF_rpt (L : Lane) (d : Opd) (r : Word) (f : Flags) : (L.resultF d r f).rpt = L.rpt := by cases d <;> rfl
@[simp] theorem Lane.resultF_frag (L : Lane) (d : Opd) (r : Word) (f : Flags) : (L.resultF d r f).frag = L.frag := by cases d <;> rfl
@[simp] theorem Lane.resultF_hold (L : Lane) (d : Opd) (r : Word) (f : Flags) : (L.resultF d r f).hold = L.hold := by cases d <;> rfl
@[simp] theorem Lane.resultF_halt (L : Lane) (d : Opd) (r : Word) (f : Flags) : (L.resultF d r f).halt = L.halt := by cases d <;> rfl
@[simp] theorem Lane.resultF_stalled (L : Lane) (d : Opd) (r : Word) (f : Flags) : (L.resultF d r f).stalled = L.stalled := by cases d <;> rfl
@[simp] theorem Lane.resultF_arrive (L : Lane) (d : Opd) (r : Word) (f : Flags) : (L.resultF d r f).arrive = L.arrive := by cases d <;> rfl
@[simp] theorem Lane.resultF_inRun (L : Lane) (d : Opd) (r : Word) (f : Flags) : (L.resultF d r f).inRun = L.inRun := by cases d <;> rfl
@[simp] theorem Lane.resultF_level (L : Lane) (d : Opd) (r : Word) (f : Flags) : (L.resultF d r f).level = L.level := by cases d <;> rfl
@[simp] theorem Lane.resultF_helper (L : Lane) (d : Opd) (r : Word) (f : Flags) : (L.resultF d r f).helper = L.helper := by cases d <;> rfl
@[simp] theorem Lane.results_live (L : Lane) (d : Opd) (rs : List Word) : (L.results d rs).live = L.live := rfl
@[simp] theorem Lane.results_pc (L : Lane) (d : Opd) (rs : List Word) : (L.results d rs).pc = L.pc := rfl
@[simp] theorem Lane.results_meet (L : Lane) (d : Opd) (rs : List Word) : (L.results d rs).meet = L.meet := rfl
@[simp] theorem Lane.results_status (L : Lane) (d : Opd) (rs : List Word) : (L.results d rs).status = L.status := rfl
@[simp] theorem Lane.results_rpt (L : Lane) (d : Opd) (rs : List Word) : (L.results d rs).rpt = L.rpt := rfl
@[simp] theorem Lane.results_frag (L : Lane) (d : Opd) (rs : List Word) : (L.results d rs).frag = L.frag := rfl
@[simp] theorem Lane.results_hold (L : Lane) (d : Opd) (rs : List Word) : (L.results d rs).hold = L.hold := rfl
@[simp] theorem Lane.results_halt (L : Lane) (d : Opd) (rs : List Word) : (L.results d rs).halt = L.halt := rfl
@[simp] theorem Lane.results_stalled (L : Lane) (d : Opd) (rs : List Word) : (L.results d rs).stalled = L.stalled := rfl
@[simp] theorem Lane.results_arrive (L : Lane) (d : Opd) (rs : List Word) : (L.results d rs).arrive = L.arrive := rfl
@[simp] theorem Lane.results_inRun (L : Lane) (d : Opd) (rs : List Word) : (L.results d rs).inRun = L.inRun := rfl
@[simp] theorem Lane.results_level (L : Lane) (d : Opd) (rs : List Word) : (L.results d rs).level = L.level := rfl
@[simp] theorem Lane.results_helper (L : Lane) (d : Opd) (rs : List Word) : (L.results d rs).helper = L.helper := rfl
@[simp] theorem Lane.advance_live (L : Lane) (pc n : Nat) : (L.advance pc n).live = L.live := rfl
@[simp] theorem Lane.advance_meet (L : Lane) (pc n : Nat) : (L.advance pc n).meet = L.meet := rfl
@[simp] theorem Lane.advance_status (L : Lane) (pc n : Nat) : (L.advance pc n).status = L.status := rfl
@[simp] theorem Lane.advance_rpt (L : Lane) (pc n : Nat) : (L.advance pc n).rpt = L.rpt := rfl
@[simp] theorem Lane.advance_frag (L : Lane) (pc n : Nat) : (L.advance pc n).frag = L.frag := rfl
@[simp] theorem Lane.advance_hold (L : Lane) (pc n : Nat) : (L.advance pc n).hold = L.hold := rfl
@[simp] theorem Lane.advance_arrive (L : Lane) (pc n : Nat) : (L.advance pc n).arrive = L.arrive := rfl
@[simp] theorem Lane.advance_level (L : Lane) (pc n : Nat) : (L.advance pc n).level = L.level := rfl
@[simp] theorem Lane.advance_helper (L : Lane) (pc n : Nat) : (L.advance pc n).helper = L.helper := rfl
@[simp] theorem Lane.advance_q (L : Lane) (pc n : Nat) : (L.advance pc n).q = L.q := rfl
@[simp] theorem Lane.advance_v (L : Lane) (pc n : Nat) : (L.advance pc n).v = L.v := rfl

end Sys2Proof.Machine
end

