-- ==== Sys2Proof/Laws/Word.lean ====
section
/-!
SUPPORT. What the shared shapes of a word come to: updates of one table joined, the checks of R149 passed, and the
end of a word whose lanes all complete.
-/
namespace Sys2Proof.Machine

/-! ## Tables and groups -/

theorem Tab.modify_modify {α : Type} (m : Tab α) (i : Nat) (f g : α → α) :
    Tab.modify (Tab.modify m i f) i g = Tab.modify m i (fun a => g (f a)) := by
  induction m with
  | nil => rfl
  | cons e m ih =>
    obtain ⟨k, a⟩ := e
    by_cases h : k = i
    · simp [Tab.modify, h]
    · simp [Tab.modify, h, ih]

theorem Tab.modify_id {α : Type} (m : Tab α) (i : Nat) : Tab.modify m i (fun a => a) = m := by
  induction m with
  | nil => rfl
  | cons e m ih =>
    obtain ⟨k, a⟩ := e
    by_cases h : k = i <;> simp [Tab.modify, h, ih]

theorem Tab.modify_congr {α : Type} (m : Tab α) (i : Nat) {f g : α → α}
    (h : ∀ a, Tab.get? m i = some a → f a = g a) : Tab.modify m i f = Tab.modify m i g := by
  induction m with
  | nil => rfl
  | cons e m ih =>
    obtain ⟨k, a⟩ := e
    by_cases hk : k = i
    · simp [Tab.modify, hk]; exact h a (by simp [Tab.get?, hk])
    · simp only [Tab.modify, hk, if_false, List.cons.injEq, true_and]
      exact ih (fun b hb => h b (by simpa [Tab.get?, hk] using hb))

theorem Tab.get?_modify {α : Type} (m : Tab α) (i j : Nat) (f : α → α) :
    Tab.get? (Tab.modify m i f) j = if i = j then (Tab.get? m j).map f else Tab.get? m j := by
  induction m with
  | nil => simp [Tab.modify, Tab.get?]
  | cons e m ih =>
    obtain ⟨k, a⟩ := e
    by_cases hk : k = i
    · subst hk
      by_cases hj : k = j <;> simp [Tab.modify, Tab.get?, hj]
    · by_cases hj : k = j
      · subst hj; simp [Tab.modify, Tab.get?, hk, Ne.symm hk]
      · simp [Tab.modify, Tab.get?, hk, hj, ih]

theorem State.modTeam_modTeam (s : State) (t : Nat) (f g : Team → Team) :
    (s.modTeam t f).modTeam t g = s.modTeam t (fun T => g (f T)) := by
  simp [State.modTeam, Tab.modify_modify]

theorem State.modGroup_modGroup (s : State) (t g : Nat) (f h : Group → Group) :
    (s.modGroup t g f).modGroup t g h = s.modGroup t g (fun G => h (f G)) := by
  simp [State.modGroup, State.modTeam_modTeam, Tab.modify_modify]

theorem State.modLane_modGroup (s : State) (t g l : Nat) (f : Lane → Lane) (h : Group → Group) :
    (s.modLane t g l f).modGroup t g h = s.modGroup t g (fun G => h { G with lanes := Tab.modify G.lanes l f }) :=
  State.modGroup_modGroup s t g _ h

theorem Group.mapLanes_nil (G : Group) (f : Nat → Lane → Lane) : G.mapLanes [] f = G := by
  simp [Group.mapLanes]

/-! ## Issuing a word (R149) -/

theorem allows_stepOne (c : Ctx) (i : Instr) : c.allows i (c.ownCheck i) = c.stepOne i := rfl

/-- The checks pass: the word goes on to its effect. -/
theorem verdict_go {s : State} {c : Ctx} {i : Instr} (h : Executes s c i) : c.verdict i (c.ownCheck i) = .go := by
  have h1 : (heldOutside i && decide (c.level < c.grp.handlers.length)) = false := by
    cases hH : heldOutside i with
    | false => rfl
    | true => have := h.inside hH; simp; omega
  have h2 : (holdPoint i && c.grp.mustHold c.level c.key c.lanes c.pc) = false := by
    cases hH : holdPoint i with
    | false => rfl
    | true => simp [h.free hH]
  have h3 : (if (i.kind == StepKind.uniform) = true then c.grp.uq.lost i.latches else none) = none := by
    split
    · rename_i hk; exact h.uniform (by simpa using hk)
    · rfl
  unfold Ctx.verdict
  simp only [h1, allows_stepOne, h.legal, h2, h.registers, Bool.not_true, Bool.and_false, Bool.false_eq_true,
    if_false, h3]

/-- A word that executes has its effect. -/
theorem word_next {s : State} {c : Ctx} {i : Instr} (h : Executes s c i) (own : Ctx → Bool)
    (ho : own c = c.ownCheck i) (body : Ctx → State) : word i own body s = .next (body c) := by
  simp [word, h.issuer, ho, verdict_go h]

theorem sound_all {s : State} {c : Ctx} {i : Instr} (h : Executes s c i) (hk : i.kind = .lane) :
    c.sound i = c.lanes := by
  unfold Ctx.sound
  exact List.filter_eq_self.2 (fun l hl => by simp [h.lanes hk l hl])

theorem lost_none {s : State} {c : Ctx} {i : Instr} (h : Executes s c i) (hk : i.kind = .lane) :
    c.lostLanes i = [] := by
  unfold Ctx.lostLanes
  exact List.filterMap_eq_nil_iff.2 (fun l hl => by simp [h.lanes hk l hl])

/-! ## The end of a word -/

/-- A word whose active lanes are all done, its effect being one on the group. -/
theorem finish_group (s : State) (c : Ctx) (i : Instr) (e : Bool) (f : Group → Group) (target : Nat → Nat)
    (he : i.ends = e) :
    finish s c e { Ran.init (s.modGroup c.t c.g f) with done := c.lanes } target = s.afterTo c i target f := by
  subst he
  simp [finish, conclude, Ran.init, firstTraps, State.modGroup_modGroup, State.afterTo, Group.goOn, Group.mapLanes_nil]

/-- A word whose active lanes are all done, whatever its effect. -/
theorem finish_done (s s1 : State) (c : Ctx) (i : Instr) (e : Bool) (target : Nat → Nat) (he : i.ends = e) :
    finish s c e { Ran.init s1 with done := c.lanes } target = s1.afterTo c i target (fun G => G) := by
  subst he
  simp [finish, conclude, Ran.init, firstTraps, State.afterTo, Group.goOn, Group.mapLanes_nil]

/-- A lane word on registers alone (R172). -/
theorem aluWord_next {s : State} {c : Ctx} {i : Instr} (h : Executes s c i) (hk : i.kind = .lane)
    (ho : c.ownCheck i = true) (e : Bool) (he : i.ends = e) (f : Ctx → Nat → Lane → Lane) :
    aluWord i e f s = .next (s.afterLanes c i (f c)) := by
  rw [aluWord, word_next h _ ho.symm]
  simp only [sound_all h hk, lost_none h hk]
  exact congrArg Host.Outcome.next (finish_group s c i e _ _ he)

/-- A uniform word that is done (R152). -/
theorem uniWord_next {s s1 : State} {c : Ctx} {i : Instr} (h : Executes s c i) (e : Bool) (he : i.ends = e)
    (own : Ctx → Bool) (ho : own c = c.ownCheck i) (f : Ctx → LaneRes) (hf : f c = .done s1) :
    uniWord i e own f s = .next (s1.after c i (fun G => G)) := by
  rw [uniWord, word_next h _ ho, hf]
  exact congrArg Host.Outcome.next (finish_done s s1 c i e _ he)

/-- A uniform word on the group alone (R155). -/
theorem uniAlu_next {s : State} {c : Ctx} {i : Instr} (h : Executes s c i) (ho : c.ownCheck i = true) (e : Bool)
    (he : i.ends = e) (f : Ctx → Group → Group) : uniAlu i e f s = .next (s.after c i (f c)) := by
  rw [uniAlu, uniWord, word_next h _ ho.symm]
  exact congrArg Host.Outcome.next (finish_group s c i e _ _ he)

end Sys2Proof.Machine
end

