-- ==== Sys2Proof/Laws/Lanes.lean ====
section
/-!
SUPPORT. Lane words that act lane by lane: the group a fragment belongs to as other lanes run, lanes changed one after
another joined into one change of all of them, and what running every lane comes to when all of them are done.
-/
namespace Sys2Proof.Machine

/-! ## The issuing fragment's group -/

/-- What the issuer's record is made of. -/
theorem issuer_spec {s : State} {c : Ctx} (h : s.issuer = some c) :
    Tab.get? s.teams c.t = some c.team ∧ Tab.get? c.team.groups c.g = some c.grp ∧
      Tab.get? s.grids c.team.grid = some c.grid ∧
      ∃ L : Lane, Tab.get? c.grp.lanes (s.sched.cur.map (·.2.2) |>.getD 0) = some L ∧ L.joins L = true ∧
        c.lanes = c.grp.lanesWhere L.joins ∧ c.pc = L.pc.toNat ∧ c.key = L.frag ∧ c.level = L.level := by
  unfold State.issuer at h
  split at h
  · cases h
  · rename_i t g l hc
    split at h
    · cases h
    · rename_i T hT
      split at h
      · rename_i G gr hG hgr
        split at h
        · cases h
        · rename_i L hL
          split at h
          · rename_i hj
            cases h
            exact ⟨hT, hG, hgr, L, by simpa [hc] using hL, hj, rfl, rfl, rfl, rfl⟩
          · cases h
      · cases h

theorem grpOf_issuer {s : State} {c : Ctx} (h : s.issuer = some c) : s.grpOf c = c.grp := by
  obtain ⟨h1, h2, -⟩ := issuer_spec h
  simp [State.grpOf, h1, h2]

theorem State.grpOf_modGroup (s : State) (c : Ctx) (f : Group → Group) (h : s.issuer = some c) :
    (s.modGroup c.t c.g f).grpOf c = f c.grp := by
  obtain ⟨h1, h2, -⟩ := issuer_spec h
  simp [State.grpOf, State.modGroup, State.modTeam, Tab.get?_modify, h1, h2]

/-- The group of a fragment after a change of it, wherever the fragment's group exists. -/
theorem State.grpOf_modGroup_of {s : State} {c : Ctx} {T : Team} {G : Group} (hT : Tab.get? s.teams c.t = some T)
    (hG : Tab.get? T.groups c.g = some G) (f : Group → Group) : (s.modGroup c.t c.g f).grpOf c = f (s.grpOf c) := by
  simp [State.grpOf, State.modGroup, State.modTeam, Tab.get?_modify, hT, hG]

/-! ## Lanes changed one after another -/

theorem Group.mapLanes_append (G : Group) (ls : List Nat) (l : Nat) (f : Nat → Lane → Lane) (hn : l ∉ ls)
    (hw : (G.lanes.map (·.1)).Nodup) :
    { G.mapLanes ls f with lanes := Tab.modify (G.mapLanes ls f).lanes l (f l) } = G.mapLanes (ls ++ [l]) f := by
  have key : ∀ m : Tab Lane, (m.map (·.1)).Nodup →
      Tab.modify (m.map (fun e => if ls.contains e.1 then (e.1, f e.1 e.2) else e)) l (f l) =
        m.map (fun e => if (ls ++ [l]).contains e.1 then (e.1, f e.1 e.2) else e) := by
    intro m
    induction m with
    | nil => intro _; rfl
    | cons e m ih =>
      intro hnd
      obtain ⟨k, a⟩ := e
      simp only [List.map_cons, List.nodup_cons] at hnd
      by_cases hk : k = l
      · subst hk
        have hmem : ls.contains k = false := by simpa using hn
        have hrest : m.map (fun e => if ls.contains e.1 then (e.1, f e.1 e.2) else e) =
            m.map (fun e => if (ls ++ [k]).contains e.1 then (e.1, f e.1 e.2) else e) := by
          apply List.map_congr_left
          intro x hx
          have : x.1 ≠ k := by
            intro he; exact hnd.1 (he ▸ List.mem_map_of_mem hx)
          simp [this]
        simp only [List.map_cons, hmem, Bool.false_eq_true, if_false, Tab.modify, if_true]
        simp only [hrest, List.contains_append, hmem, Bool.false_or]
        simp
      · have hc : (ls ++ [l]).contains k = ls.contains k := by simp [hk]
        rw [List.map_cons, List.map_cons, ← ih hnd.2]
        simp only [hc]
        cases ls.contains k <;> simp only [Bool.false_eq_true, if_false, if_true, Tab.modify, hk]
  simp only [Group.mapLanes]
  rw [key _ hw]

theorem Group.Whole.nodup {G : Group} (h : G.Whole) : (G.lanes.map (·.1)).Nodup := by
  rw [h]; exact List.nodup_range

theorem Group.lanesWhere_nodup {G : Group} (h : G.Whole) (p : Lane → Bool) : (G.lanesWhere p).Nodup :=
  ((List.filter_sublist (l := G.lanes)).map _).nodup h.nodup

theorem Group.mapLanes_keys (G : Group) (ls : List Nat) (f : Nat → Lane → Lane) :
    (G.mapLanes ls f).lanes.map (·.1) = G.lanes.map (·.1) := by
  simp only [Group.mapLanes, List.map_map]
  apply List.map_congr_left
  intro e _
  simp only [Function.comp]
  split <;> rfl

/-- Some lanes changed in turn are changed together. -/
theorem State.foldl_modLane (s : State) (c : Ctx) (f : Nat → Lane → Lane) (h : s.issuer = some c) (hw : c.grp.Whole)
    (done ls : List Nat) (hn : (done ++ ls).Nodup) :
    ls.foldl (fun s l => s.modLane c.t c.g l (f l)) (s.modGroup c.t c.g (·.mapLanes done f)) =
      s.modGroup c.t c.g (·.mapLanes (done ++ ls) f) := by
  induction ls generalizing done with
  | nil => simp
  | cons l ls ih =>
    have hl : l ∉ done := by
      intro hm
      exact (List.nodup_append.1 hn).2.2 l hm l (by simp) rfl
    have hstep : (s.modGroup c.t c.g (·.mapLanes done f)).modLane c.t c.g l (f l) =
        s.modGroup c.t c.g (·.mapLanes (done ++ [l]) f) := by
      obtain ⟨hT, hG, -⟩ := issuer_spec h
      simp only [State.modLane, State.modGroup_modGroup]
      simp only [State.modGroup, State.modTeam]
      congr 1
      apply Tab.modify_congr
      intro T hT'
      rw [hT] at hT'; cases hT'
      congr 1
      apply Tab.modify_congr
      intro G hG'
      rw [hG] at hG'; cases hG'
      exact Group.mapLanes_append c.grp done l f hl hw.nodup
    rw [List.foldl_cons, hstep, ih (done ++ [l]) (by simpa using hn)]
    simp

/-- Every active lane changed in turn. -/
theorem State.foldl_lanes {s : State} {c : Ctx} (f : Nat → Lane → Lane) (h : s.issuer = some c) (hw : c.grp.Whole)
    : c.lanes.foldl (fun s l => s.modLane c.t c.g l (f l)) s = s.modGroup c.t c.g (·.mapLanes c.lanes f) := by
  obtain ⟨-, -, -, L, -, -, hl, -⟩ := issuer_spec h
  have hid : s.modGroup c.t c.g (·.mapLanes [] f) = s := by
    simp only [Group.mapLanes_nil, State.modGroup, State.modTeam, Tab.modify_id]
  have := State.foldl_modLane s c f h hw [] c.lanes (by simpa [hl] using Group.lanesWhere_nodup hw L.joins)
  simpa [hid] using this

/-! ## Running the lanes -/

/-- Lanes that are all done, one after another, the state keeping what each of them needs. -/
theorem runLanes_done (body : State → Nat → LaneRes) (g : State → Nat → State) (Inv : List Nat → State → Prop) :
    ∀ (ls : List Nat) (r : Ran), Inv ls r.s →
      (∀ s l rest, Inv (l :: rest) s → body s l = .done (g s l) ∧ Inv rest (g s l)) →
      runLanes body ls r = { r with s := ls.foldl g r.s, done := r.done ++ ls }
  | [], r, _, _ => by simp [runLanes]
  | l :: ls, r, hi, hs => by
    obtain ⟨h1, h2⟩ := hs r.s l ls hi
    simp only [runLanes, h1, Ran.add]
    rw [runLanes_done body g Inv ls _ h2 hs]
    simp

/-- Lanes that all trap alike, with no effect. -/
theorem runLanes_trap (body : State → Nat → LaneRes) (cause info : Nat) :
    ∀ (ls : List Nat) (r : Ran), (∀ l ∈ ls, body r.s l = .trap r.s cause info) →
      runLanes body ls r = { r with traps := r.traps ++ ls.map (fun l => (l, cause, info)) }
  | [], r, _ => by simp [runLanes]
  | l :: ls, r, h => by
    have := runLanes_trap body cause info ls { r with traps := r.traps ++ [(l, cause, info)] }
      (fun m hm => h m (by simp [hm]))
    simp only [runLanes, h l (by simp), Ran.add, this]
    simp

/-- A word all of whose active lanes trap alike. -/
theorem finish_trap (s : State) (c : Ctx) (e : Bool) (cause info : Nat) (target : Nat → Nat)
    (hl : c.lanes ≠ []) :
    finish s c e { Ran.init s with traps := c.lanes.map (fun l => (l, cause, info)) } target =
      trapWord s c cause info e := by
  have ht : (c.lanes.map (fun l => (l, cause, info))) ≠ [] := by simpa using hl
  simp only [finish, trapWord, trapAll, conclude, Ran.init, ht, if_false, ne_eq, not_false_eq_true, true_and,
    Group.mapLanes_nil, Bool.false_eq_true]

/-- A lane outside a changed set is as it was. -/
theorem Group.lane_mapLanes_of_not_mem (G : Group) (ls : List Nat) (f : Nat → Lane → Lane) (l : Nat) (h : l ∉ ls) :
    (G.mapLanes ls f).lane l = G.lane l := by
  have key : ∀ m : Tab Lane, Tab.get? (m.map (fun e => if ls.contains e.1 then (e.1, f e.1 e.2) else e)) l =
      Tab.get? m l := by
    intro m
    induction m with
    | nil => rfl
    | cons e m ih =>
      obtain ⟨k, a⟩ := e
      by_cases hk : k = l
      · subst hk
        have hmem : ls.contains k = false := by simpa using h
        simp only [List.map_cons, hmem, Bool.false_eq_true, if_false, Tab.get?, if_true]
      · rw [List.map_cons]
        cases hc : ls.contains k <;> simp only [Bool.false_eq_true, if_false, if_true, Tab.get?, hk, ih]
  simp only [Group.lane, Group.mapLanes, key]

/-- A lane of a changed set has the change. -/
theorem Group.lane_mapLanes_of_mem (G : Group) (ls : List Nat) (f : Nat → Lane → Lane) (l : Nat) (h : l ∈ ls)
    {L : Lane} (hL : Tab.get? G.lanes l = some L) : (G.mapLanes ls f).lane l = f l L := by
  have key : ∀ m : Tab Lane, Tab.get? m l = some L →
      Tab.get? (m.map (fun e => if ls.contains e.1 then (e.1, f e.1 e.2) else e)) l = some (f l L) := by
    intro m
    induction m with
    | nil => intro h; cases h
    | cons e m ih =>
      obtain ⟨k, a⟩ := e
      intro hm
      by_cases hk : k = l
      · subst hk
        simp only [Tab.get?, if_true, Option.some.injEq] at hm
        have hmem : ls.contains k = true := by simpa using h
        simp only [List.map_cons, hmem, if_true, Tab.get?, hm]
      · simp only [Tab.get?, hk, if_false] at hm
        rw [List.map_cons]
        cases hc : ls.contains k <;> simp only [Bool.false_eq_true, if_false, if_true, Tab.get?, hk, ih hm]
  simp only [Group.lane, Group.mapLanes, key _ hL, Option.getD_some]

/-- The active lanes are distinct. -/
theorem issuer_nodup {s : State} {c : Ctx} (h : s.issuer = some c) (hw : c.grp.Whole) : c.lanes.Nodup := by
  obtain ⟨-, -, -, L, -, -, hl, -⟩ := issuer_spec h
  rw [hl]; exact Group.lanesWhere_nodup hw L.joins

/-- There is an active lane. -/
theorem issuer_lanes {s : State} {c : Ctx} (h : s.issuer = some c) : c.lanes ≠ [] := by
  obtain ⟨-, -, -, L, hL, hj, hl, -⟩ := issuer_spec h
  rw [hl]
  have mem : ∀ (m : Tab Lane) (l : Nat), Tab.get? m l = some L → (l, L) ∈ m := by
    intro m l
    induction m with
    | nil => intro h; cases h
    | cons e m ih =>
      obtain ⟨k, a⟩ := e
      intro h
      by_cases hk : k = l
      · simp only [Tab.get?, hk, if_true, Option.some.injEq] at h; subst hk; subst h; simp
      · simp only [Tab.get?, hk, if_false] at h; exact List.mem_cons_of_mem _ (ih h)
  intro hnil
  have := mem _ _ hL
  have hm : _ ∈ c.grp.lanesWhere L.joins := List.mem_map.2 ⟨_, List.mem_filter.2 ⟨this, hj⟩, rfl⟩
  rw [hnil] at hm; cases hm

/-- A lane word whose every active lane is done with a change of itself alone, and of nothing that the other lanes'
parts look at. -/
theorem laneWord_lanes {s : State} {c : Ctx} {i : Instr} (h : Executes s c i) (hk : i.kind = .lane)
    (ho : c.ownCheck i = true) (e : Bool) (he : i.ends = e) (f : Ctx → State → Nat → LaneRes) (g : Nat → Lane → Lane)
    (hf : ∀ (before : List Nat) (l : Nat), l ∈ c.lanes → l ∉ before →
      f c (s.modGroup c.t c.g (·.mapLanes before g)) l =
        .done ((s.modGroup c.t c.g (·.mapLanes before g)).modLane c.t c.g l (g l))) :
    laneWord i e f s = .next (s.afterLanes c i g) := by
  rw [laneWord, word_next h _ ho.symm]
  have hid : s.modGroup c.t c.g (·.mapLanes [] g) = s := by
    simp only [Group.mapLanes_nil, State.modGroup, State.modTeam, Tab.modify_id]
  have hrun := runLanes_done (lanePart i c (f c)) (fun s l => s.modLane c.t c.g l (g l))
    (fun ls s1 => ∃ before, before ++ ls = c.lanes ∧ s1 = s.modGroup c.t c.g (·.mapLanes before g))
    c.lanes (Ran.init s) ⟨[], rfl, hid.symm⟩ (by
      rintro s1 l rest ⟨before, hb, rfl⟩
      have hn := issuer_nodup h.issuer h.whole
      rw [← hb] at hn
      have hl : l ∉ before := fun hm => (List.nodup_append.1 hn).2.2 l hm l (by simp) rfl
      have hm : l ∈ c.lanes := by rw [← hb]; simp
      have hlost : ((s.modGroup c.t c.g (·.mapLanes before g)).grpOf c |>.lane l).q.lost i.latches = none := by
        rw [State.grpOf_modGroup _ _ _ h.issuer, Group.lane_mapLanes_of_not_mem _ _ _ _ hl]
        exact h.lanes hk l hm
      refine ⟨?_, before ++ [l], by rw [List.append_assoc]; exact hb, ?_⟩
      · simp only [lanePart, hlost]
        exact hf before l hm hl
      · have := State.foldl_modLane s c g h.issuer h.whole before [l]
          (by simpa using hn.sublist (List.Sublist.append_left (by simp) before))
        simpa using this)
  rw [hrun]
  simp only [Ran.init, List.nil_append]
  rw [State.foldl_lanes g h.issuer h.whole]
  exact congrArg Host.Outcome.next (finish_group s c i e _ _ he)

end Sys2Proof.Machine
end

