-- ==== Sys2Proof/Laws/Access.lean ====
section
/-!
SUPPORT. Translation and the path of a lane access (R191, R326 to R330) neither look at nor change a team, but for the
stores of the access's own group that are not performed, which a load or atomic consults for poison.
-/
namespace Sys2Proof.Machine

/-! ## Parts of the machine that a change of teams leaves alone -/

theorem walkFrom_modTeam (s : State) (t : Nat) (f : Team → Team) (cached : List TlbEntry) (sp : Space) (va : Nat) :
    ∀ (level : Nat) (global : Bool) (ppn : Nat),
      walkFrom (s.modTeam t f) cached sp va global level ppn = walkFrom s cached sp va global level ppn := by
  intro level
  induction level with
  | zero => intro global ppn; unfold walkFrom; rfl
  | succ l ih => intro global ppn; unfold walkFrom; simp only [ih]; rfl

/-- A translation's result with the teams changed. -/
def XRes.modTeam (r : XRes) (t : Nat) (f : Team → Team) : XRes :=
  match r with
  | .ok s pa pbmt mixed => .ok (s.modTeam t f) pa pbmt mixed
  | .fail x => .fail x

theorem useFrame_modTeam (s : State) (t : Nat) (f : Team → Team) (pa z : Nat) :
    (s.modTeam t f).useFrame pa z = (s.useFrame pa z).modTeam t f := by
  unfold State.useFrame
  by_cases h : Store.get s.enc (pa / 4096) = 0
  · rw [if_pos h, if_pos (by exact h)]; rfl
  · rw [if_neg h, if_neg (by exact h)]

theorem trackFrame_modTeam (s : State) (t : Nat) (f : Team → Team) (pa p : Nat) :
    (s.modTeam t f).trackFrame pa p = (s.trackFrame pa p).modTeam t f := by
  unfold State.trackFrame
  by_cases h : Store.get s.prot (pa / 4096) = pCode p
  · rw [if_pos h, if_pos (by exact h)]
  · rw [if_neg h, if_neg (by exact h)]; rfl

theorem reach_modTeam (s : State) (t : Nat) (f : Team → Team) (e level va : Nat) :
    reach (s.modTeam t f) e level va = (reach s e level va).modTeam t f := by
  unfold reach
  by_cases h : remotePa (leafAddr e level va) = true
  · simp only [h, if_true]; rfl
  · simp only [h, Bool.false_eq_true, if_false, useFrame_modTeam, trackFrame_modTeam]; rfl

theorem frameOk_modTeam (s : State) (t : Nat) (f : Team → Team) (sp : Space) (e level va : Nat) :
    frameOk (s.modTeam t f) sp e level va = frameOk s sp e level va := rfl

theorem cachePut_modTeam (s : State) (t : Nat) (f : Team → Team) (sel : TlbSel) (e : TlbEntry) (path : List TlbEntry) :
    (s.modTeam t f).cachePut sel e path = (s.cachePut sel e path).modTeam t f := by
  cases sel <;> rfl

theorem translate_modTeam (s : State) (t : Nat) (f : Team → Team) (sel : TlbSel) (sp : Space) (va : Nat)
    (k : AccKind) : translate (s.modTeam t f) sel sp va k = (translate s sel sp va k).modTeam t f := by
  unfold translate
  by_cases hc : (!canonical va) = true
  · simp only [hc, if_true]; rfl
  · simp only [hc, Bool.false_eq_true, if_false]
    have htlb : (s.modTeam t f).tlbOf sel = s.tlbOf sel := by cases sel <;> rfl
    have hwalks : (s.modTeam t f).walksOf sel = s.walksOf sel := by cases sel <;> rfl
    simp only [htlb, hwalks, frameOk_modTeam, walkFrom_modTeam, reach_modTeam]
    split
    · rfl
    · split
      · rfl
      · rename_i w _
        by_cases hg : (!leafGrants w.pte k) = true
        · simp only [hg, if_true]; rfl
        · simp only [hg, Bool.false_eq_true, if_false]
          split
          · rfl
          · rw [← reach_modTeam]
            congr 1
            rw [← cachePut_modTeam]
            (repeat' split) <;> rfl

/-- An access's outcome with the teams changed. -/
def Access.modTeam (r : Access) (t : Nat) (f : Team → Team) : Access :=
  match r with
  | .ok s ps io => .ok (s.modTeam t f) ps io
  | .trap s cause info => .trap (s.modTeam t f) cause info
  | .park s va x => .park (s.modTeam t f) va x

theorem placesFrom_modTeam (t : Nat) (f : Team → Team) (sel : TlbSel) (sp : Space) (k : AccKind) :
    ∀ (fuel a n : Nat) (s : State),
      placesFrom (s.modTeam t f) sel sp k fuel a n = (placesFrom s sel sp k fuel a n).modTeam t f
  | 0, _, _, _ => rfl
  | _ + 1, _, 0, _ => rfl
  | fuel + 1, a, n + 1, s => by
    simp only [placesFrom, translate_modTeam]
    cases translate s sel sp a k with
    | fail x => rfl
    | ok u pa pbmt mixed =>
      simp only [XRes.modTeam, placesFrom_modTeam t f sel sp k fuel]
      cases placesFrom u sel sp k fuel (a + min (n + 1) (4096 - a % 4096)) (n + 1 - min (n + 1) (4096 - a % 4096)) <;> rfl

/-! ## Translation leaves the teams alone -/

/-- A translation that, where it succeeds, leaves a table of teams. -/
def XRes.Leaves (m : Tab Team) : XRes → Prop
  | .ok u _ _ _ => u.teams = m
  | .fail _ => True

/-- An access that, where it succeeds, leaves a table of teams. -/
def Access.Leaves (m : Tab Team) : Access → Prop
  | .ok u _ _ => u.teams = m
  | .trap _ _ _ => True
  | .park _ _ _ => True

theorem reach_leaves (s : State) (e level va : Nat) : (reach s e level va).Leaves s.teams := by
  simp only [reach]; split <;> simp [XRes.Leaves]

theorem XRes.leaves_cast {m n : Tab Team} {r : XRes} (h : r.Leaves m) (e : m = n) : r.Leaves n := e ▸ h

theorem translate_leaves (s : State) (sel : TlbSel) (sp : Space) (va : Nat) (k : AccKind) :
    (translate s sel sp va k).Leaves s.teams := by
  have put (u : State) (e : TlbEntry) (path : List TlbEntry) : (u.cachePut sel e path).teams = u.teams := by cases sel <;> rfl
  simp only [translate]
  repeat' split
  all_goals first
    | trivial
    | exact XRes.leaves_cast (reach_leaves _ _ _ _) (by simp [put])

theorem placesFrom_leaves (sel : TlbSel) (sp : Space) (k : AccKind) :
    ∀ (fuel a n : Nat) (s : State), (placesFrom s sel sp k fuel a n).Leaves s.teams
  | 0, _, _, _ => rfl
  | _ + 1, _, 0, _ => rfl
  | fuel + 1, a, n + 1, s => by
    have first_ := translate_leaves s sel sp a k
    simp only [placesFrom]
    cases hx : translate s sel sp a k with
    | fail f => trivial
    | ok v pa pbmt mixed =>
      have rest := placesFrom_leaves sel sp k fuel (a + min (n + 1) (4096 - a % 4096)) (n + 1 - min (n + 1) (4096 - a % 4096)) v
      rw [hx] at first_
      simp only
      generalize placesFrom v sel sp k fuel _ _ = r at rest ⊢
      cases r <;> simp_all [Access.Leaves, XRes.Leaves]

theorem laneAccess_leaves (s : State) (c : Ctx) (a n : Nat) (k : AccKind) : (laneAccess s c a n k).Leaves s.teams := by
  have walk := placesFrom_leaves (.core c.team.pcore) c.space k 4 a n s
  simp only [laneAccess]
  generalize placesFrom s (.core c.team.pcore) c.space k 4 a n = r at walk ⊢
  (repeat' split) <;> simp_all [Access.Leaves]

/-! ## A lane access in a changed group -/

/-- What a group has stored and not performed, when it has changed in nothing of its FIFO. -/
theorem ownStores_modGroup {s : State} {c : Ctx} {T : Team} {G : Group} (hT : Tab.get? s.teams c.t = some T)
    (hG : Tab.get? T.groups c.g = some G) (f : Group → Group) (hf : (f G).fifo = G.fifo) :
    (s.modGroup c.t c.g f).ownStores c = s.ownStores c := by
  have hg := State.grpOf_modGroup_of hT hG f
  have hold : s.grpOf c = G := by simp [State.grpOf, hT, hG]
  have hb : ((s.modGroup c.t c.g f).teamOf c).buffer = (s.teamOf c).buffer := by
    simp [State.teamOf, State.modGroup, State.modTeam, Tab.get?_modify, hT]
  simp only [State.ownStores, hb, hg, hold, hf]

/-- What it takes that a lane's access passes the checks of R191, and where it comes to lie. -/
theorem laneAccess_ok {s u : State} {c : Ctx} {a n : Nat} {k : AccKind} {ps : List Place} {io : Bool} :
    laneAccess s c a n k = .ok u ps io ↔
      canonical a = true ∧ (meetsWindow a n && scratchBad a n c.team.limit) = false ∧
      lockHit (s.locksOf c.team.pcore) c.t c.space a n k = none ∧
      if inWindow a = true then Access.ok s ((List.range n).map (fun i => .scratch (a - windowBase + i))) false = .ok u ps io
      else placesFrom s (.core c.team.pcore) c.space k 4 a n = .ok u ps io ∧ (k == .atomic && io) = false ∧
        ((k == .load || k == .atomic) && poisonHit u (u.ownStores c) ps) = false := by
  simp only [laneAccess]
  generalize placesFrom s (.core c.team.pcore) c.space k 4 a n = r
  cases canonical a <;> cases (meetsWindow a n && scratchBad a n c.team.limit) <;>
    cases lockHit (s.locksOf c.team.pcore) c.t c.space a n k <;> simp
  split
  · simp
  · cases r with
    | ok v qs jo =>
      simp only [Access.ok.injEq]
      constructor
      · intro h; (repeat' split at h) <;> simp_all
      · rintro ⟨⟨rfl, rfl, rfl⟩, h1, h2⟩
        cases jo <;> cases k <;> simp_all
    | trap _ _ _ => simp
    | park _ _ _ => simp

/-- A lane access when its group has changed in nothing that the path looks at: for a load or an atomic, its store
FIFO. -/
theorem laneAccess_modGroup {s u : State} {c : Ctx} {a n : Nat} {k : AccKind} {ps : List Place} {io : Bool}
    {T : Team} {G : Group} (hT : Tab.get? s.teams c.t = some T) (hG : Tab.get? T.groups c.g = some G)
    (f : Group → Group) (hf : k = .load ∨ k = .atomic → (f G).fifo = G.fifo)
    (h : laneAccess s c a n k = .ok u ps io) :
    laneAccess (s.modGroup c.t c.g f) c a n k = .ok (u.modGroup c.t c.g f) ps io := by
  rw [laneAccess_ok] at h ⊢
  refine ⟨h.1, h.2.1, h.2.2.1, ?_⟩
  have h := h.2.2.2
  by_cases hw : inWindow a = true
  · simp only [hw, if_true, Access.ok.injEq] at h ⊢
    exact ⟨congrArg (State.modGroup · c.t c.g f) h.1, h.2⟩
  · simp only [hw, Bool.false_eq_true, if_false] at h ⊢
    have left := placesFrom_leaves (.core c.team.pcore) c.space k 4 a n s
    rw [h.1] at left
    refine ⟨?_, h.2.1, ?_⟩
    · simp only [State.modGroup, placesFrom_modTeam, h.1, Access.modTeam]
    · have same (hk : k = .load ∨ k = .atomic) := ownStores_modGroup (left ▸ hT) hG f (hf hk)
      have hit := h.2.2
      cases k <;> first | rfl | (rw [same (by simp)]; exact hit)

/-- The path of an access of a lane that had not begun when its word issued before. -/
theorem lanePath_fresh {s : State} {c : Ctx} {kind : ReqKind} {l a n : Nat} (h : c.grp.began = []) :
    lanePath s c kind l a n = laneAccess s c a n kind.access := by
  simp [lanePath, Group.begunAt, h]

/-- An access that passes its path and has nothing to wait for goes on at its places. -/
theorem accessBytes_ok {c : Ctx} {kind : ReqKind} {l a n : Nat} {s : State} {ps : List Place} {io : Bool}
    (ask : List Place → List (Nat × Nat) → List (Nat × Nat × RemoteReq))
    (h1 : remoteState (s.grpOf c).remote kind l ps = .ready) (h2 : remoteLost (s.grpOf c).remote kind l ps = false) :
    accessBytes c kind l a n ask (.ok s ps io) = .ok (s, ps) := by
  simp [accessBytes, h1, h2]

end Sys2Proof.Machine
end

