-- ==== Sys2Proof/Laws/Memory.lean ====
section
/-!
SUPPORT. Tables, stores and memory: every operation keeps the canonical form, what is read after each, and that two
stores in canonical form which read alike are equal.
-/
namespace Sys2Proof.Machine

/-! ## Tables -/

theorem Tab.risingFrom_mono {α : Type} {b c : Nat} {m : Tab α} (h : Tab.risingFrom c m = true) (hb : b ≤ c) :
    Tab.risingFrom b m = true := by
  cases m with
  | nil => rfl
  | cons e m =>
    simp only [Tab.risingFrom, Bool.and_eq_true, decide_eq_true_eq] at h ⊢
    exact ⟨by omega, h.2⟩

/-- A key below the bound is not listed. -/
theorem Tab.get?_below {α : Type} {m : Tab α} : ∀ {b i : Nat}, Tab.risingFrom b m = true → i < b → Tab.get? m i = none := by
  induction m with
  | nil => intros; rfl
  | cons e m ih =>
    intro b i h hi
    simp only [Tab.risingFrom, Bool.and_eq_true, decide_eq_true_eq] at h
    have : e.1 ≠ i := by omega
    simpa [Tab.get?, this] using ih h.2 (by omega)

theorem Tab.put_risingFrom {α : Type} {m : Tab α} {i : Nat} {a : α} :
    ∀ {b : Nat}, Tab.risingFrom b m = true → b ≤ i → Tab.risingFrom b (Tab.put m i a) = true := by
  induction m with
  | nil => intro b _ hi; simp [Tab.put, Tab.risingFrom, hi]
  | cons e m ih =>
    intro b h hi
    obtain ⟨k, x⟩ := e
    simp only [Tab.risingFrom, Bool.and_eq_true, decide_eq_true_eq] at h
    unfold Tab.put
    split
    · simp [Tab.risingFrom, hi, h.2]; omega
    · split
      · subst_vars; simp [Tab.risingFrom, h.1, h.2]
      · simp [Tab.risingFrom, h.1]; exact ih h.2 (by omega)

theorem Tab.drop_risingFrom {α : Type} {m : Tab α} {i : Nat} :
    ∀ {b : Nat}, Tab.risingFrom b m = true → Tab.risingFrom b (Tab.drop m i) = true := by
  induction m with
  | nil => intro b h; exact h
  | cons e m ih =>
    intro b h
    obtain ⟨k, x⟩ := e
    simp only [Tab.risingFrom, Bool.and_eq_true, decide_eq_true_eq] at h
    unfold Tab.drop
    split
    · exact Tab.risingFrom_mono h.2 (by omega)
    · simp [Tab.risingFrom, h.1, ih h.2]

theorem Tab.modify_risingFrom {α : Type} {m : Tab α} {i : Nat} {f : α → α} :
    ∀ {b : Nat}, Tab.risingFrom b (Tab.modify m i f) = Tab.risingFrom b m := by
  induction m with
  | nil => intro b; rfl
  | cons e m ih =>
    intro b
    unfold Tab.modify
    split <;> simp [Tab.risingFrom, ih]

theorem Tab.put_wf {α : Type} {m : Tab α} (h : Tab.wf m = true) (i : Nat) (a : α) : Tab.wf (Tab.put m i a) = true :=
  Tab.put_risingFrom h (Nat.zero_le i)

theorem Tab.drop_wf {α : Type} {m : Tab α} (h : Tab.wf m = true) (i : Nat) : Tab.wf (Tab.drop m i) = true :=
  Tab.drop_risingFrom h

theorem Tab.modify_wf {α : Type} {m : Tab α} (h : Tab.wf m = true) (i : Nat) (f : α → α) :
    Tab.wf (Tab.modify m i f) = true := Tab.modify_risingFrom.trans h

theorem Tab.filter_risingFrom {α : Type} {m : Tab α} (p : Nat × α → Bool) :
    ∀ {b : Nat}, Tab.risingFrom b m = true → Tab.risingFrom b (m.filter p) = true := by
  induction m with
  | nil => intro b h; exact h
  | cons e m ih =>
    intro b h
    simp only [Tab.risingFrom, Bool.and_eq_true, decide_eq_true_eq] at h
    by_cases hp : p e = true
    · simp [hp, Tab.risingFrom, h.1, ih h.2]
    · simpa [hp] using Tab.risingFrom_mono (ih h.2) (by omega)

theorem Tab.get?_put {α : Type} (m : Tab α) (i j : Nat) (a : α) :
    Tab.get? (Tab.put m i a) j = if i = j then some a else Tab.get? m j := by
  induction m with
  | nil => rfl
  | cons e m ih =>
    obtain ⟨k, x⟩ := e
    unfold Tab.put
    split
    · by_cases hj : i = j <;> simp [Tab.get?, hj]
    · split
      · subst_vars; by_cases hj : k = j <;> simp [Tab.get?, hj]
      · rename_i h1 h2
        by_cases hk : k = j
        · subst hk; simp [Tab.get?, h2]
        · simp [Tab.get?, hk, ih]

theorem Tab.get?_drop {α : Type} {m : Tab α} : ∀ {b : Nat}, Tab.risingFrom b m = true → ∀ i j : Nat,
    Tab.get? (Tab.drop m i) j = if i = j then none else Tab.get? m j := by
  induction m with
  | nil => intro b _ i j; simp [Tab.drop, Tab.get?]
  | cons e m ih =>
    intro b h i j
    obtain ⟨k, x⟩ := e
    simp only [Tab.risingFrom, Bool.and_eq_true, decide_eq_true_eq] at h
    unfold Tab.drop
    split
    · subst_vars
      by_cases hj : k = j
      · subst hj; simpa using Tab.get?_below h.2 (by omega)
      · simp [Tab.get?, hj]
    · rename_i hk
      by_cases hj : k = j
      · subst hj; simp [Tab.get?, Ne.symm hk]
      · simp [Tab.get?, hj, ih h.2]

/-- Two canonical tables that list the same records are equal. -/
theorem Tab.ext {α : Type} : ∀ {m n : Tab α} {b : Nat}, Tab.risingFrom b m = true → Tab.risingFrom b n = true →
    (∀ i, Tab.get? m i = Tab.get? n i) → m = n := by
  intro m
  induction m with
  | nil =>
    intro n b _ _ h
    cases n with
    | nil => rfl
    | cons e n => simpa [Tab.get?] using h e.1
  | cons e m ih =>
    intro n b hm hn h
    obtain ⟨k, x⟩ := e
    cases n with
    | nil => simpa [Tab.get?] using h k
    | cons e' n =>
      obtain ⟨k', x'⟩ := e'
      simp only [Tab.risingFrom, Bool.and_eq_true, decide_eq_true_eq] at hm hn
      have hk : k = k' := by
        rcases Nat.lt_trichotomy k k' with hlt | heq | hgt
        · have := h k
          simp [Tab.get?, Nat.ne_of_gt hlt, Tab.get?_below hn.2 (show k < k' + 1 by omega)] at this
        · exact heq
        · have := h k'
          simp [Tab.get?, Nat.ne_of_gt hgt, Tab.get?_below hm.2 (show k' < k + 1 by omega)] at this
      subst hk
      have hx : x = x' := by simpa [Tab.get?] using h k
      subst hx
      refine congrArg _ (ih hm.2 hn.2 fun i => ?_)
      by_cases hi : k = i
      · subst hi
        rw [Tab.get?_below hm.2 (by omega), Tab.get?_below hn.2 (by omega)]
      · simpa [Tab.get?, hi] using h i

/-! ## Stores -/

theorem Tab.mem_put {α : Type} {m : Tab α} {i : Nat} {a : α} {e : Nat × α} (h : e ∈ Tab.put m i a) :
    e = (i, a) ∨ e ∈ m := by
  induction m with
  | nil => simpa [Tab.put] using h
  | cons x m ih =>
    obtain ⟨k, y⟩ := x
    unfold Tab.put at h
    split at h
    · simpa using h
    · split at h
      · rcases List.mem_cons.1 h with h | h
        · exact .inl h
        · exact .inr (List.mem_cons_of_mem _ h)
      · rcases List.mem_cons.1 h with h | h
        · exact .inr (h ▸ List.mem_cons_self ..)
        · exact (ih h).imp id (List.mem_cons_of_mem _)

theorem Tab.mem_drop {α : Type} {m : Tab α} {i : Nat} {e : Nat × α} (h : e ∈ Tab.drop m i) : e ∈ m := by
  induction m with
  | nil => exact h
  | cons x m ih =>
    unfold Tab.drop at h
    split at h
    · exact List.mem_cons_of_mem _ h
    · rcases List.mem_cons.1 h with h | h
      · exact h ▸ List.mem_cons_self ..
      · exact List.mem_cons_of_mem _ (ih h)

theorem Store.wf_iff {w : Nat} {m : Store w} :
    Store.wf m = true ↔ Tab.wf m = true ∧ ∀ e ∈ m, e.2 ≠ 0 := by
  simp [Store.wf]

@[simp] theorem Store.wf_nil {w : Nat} : Store.wf ([] : Store w) = true := rfl

theorem Store.set_wf {w : Nat} {m : Store w} (h : Store.wf m = true) (i : Nat) (a : BitVec w) :
    Store.wf (Store.set m i a) = true := by
  rw [Store.wf_iff] at h ⊢
  unfold Store.set
  split
  · exact ⟨Tab.drop_wf h.1 i, fun e he => h.2 e (Tab.mem_drop he)⟩
  · rename_i ha
    refine ⟨Tab.put_wf h.1 i a, fun e he => ?_⟩
    rcases Tab.mem_put he with rfl | he
    · exact ha
    · exact h.2 e he

theorem Store.setRange_wf {w : Nat} (bs : List (BitVec w)) : ∀ {m : Store w} {i : Nat}, Store.wf m = true →
    Store.wf (Store.setRange m i bs) = true := by
  induction bs with
  | nil => intro m i h; exact h
  | cons a bs ih => intro m i h; exact ih (Store.set_wf h i a)

theorem Store.copy_wf {w : Nat} {m : Store w} (h : Store.wf m = true) (src dst n : Nat) :
    Store.wf (Store.copy m src dst n) = true := by
  have step : ∀ (l : Store w) (o : Store w), Store.wf o = true → Store.wf (l.foldl (fun o e =>
      if src ≤ e.1 && e.1 < src + n then Store.set o (dst + (e.1 - src)) e.2 else o) o) = true := by
    intro l
    induction l with
    | nil => intro o ho; exact ho
    | cons e l ih =>
      intro o ho
      refine ih _ ?_
      by_cases hc : (decide (src ≤ e.1) && decide (e.1 < src + n)) = true
      · simp only [if_pos hc]; exact Store.set_wf ho _ _
      · simp only [if_neg hc]; exact ho
  refine step m _ ?_
  rw [Store.wf_iff] at h ⊢
  exact ⟨Tab.filter_risingFrom _ h.1, fun e he => h.2 e (List.mem_filter.1 he).1⟩

theorem Store.get_set {w : Nat} {m : Store w} (h : Store.wf m = true) (i j : Nat) (a : BitVec w) :
    Store.get (Store.set m i a) j = if i = j then a else Store.get m j := by
  have hm := (Store.wf_iff.1 h).1
  unfold Store.set Store.get
  split
  · rw [Tab.get?_drop hm]; split <;> simp_all
  · rw [Tab.get?_put]; split <;> simp

theorem Store.get_setRange {w : Nat} (bs : List (BitVec w)) : ∀ {m : Store w} {i : Nat}, Store.wf m = true → ∀ j,
    Store.get (Store.setRange m i bs) j = if i ≤ j then (bs[j - i]?).getD (Store.get m j) else Store.get m j := by
  induction bs with
  | nil => intro m i _ j; simp [Store.setRange]
  | cons a bs ih =>
    intro m i h j
    rw [Store.setRange, ih (Store.set_wf h i a), Store.get_set h]
    by_cases hij : i = j
    · subst hij; simp [show ¬(i + 1 ≤ i) by omega]
    · by_cases hlt : i + 1 ≤ j
      · have : j - i = (j - (i + 1)) + 1 := by omega
        simp [hij, hlt, show i ≤ j by omega, this]
      · simp [hij, hlt, show ¬i ≤ j by omega]

theorem Store.getRange_length {w : Nat} (m : Store w) (i n : Nat) : (Store.getRange m i n).length = n := by
  induction n generalizing i with
  | zero => rfl
  | succ n ih => simp [Store.getRange, ih]

theorem Store.getRange_eq {w : Nat} (m : Store w) (i n : Nat) :
    Store.getRange m i n = (List.range n).map (fun k => Store.get m (i + k)) := by
  induction n generalizing i with
  | zero => rfl
  | succ n ih =>
    rw [Store.getRange, ih, List.range_succ_eq_map]
    simp [Function.comp_def, Nat.add_assoc, Nat.add_comm 1]

/-- Two stores in canonical form that read alike are equal. -/
theorem Store.ext {w : Nat} {m n : Store w} (hm : Store.wf m = true) (hn : Store.wf n = true)
    (h : ∀ i, Store.get m i = Store.get n i) : m = n := by
  rw [Store.wf_iff] at hm hn
  have listed : ∀ {m : Store w} {i : Nat} {a : BitVec w}, Tab.get? m i = some a → (i, a) ∈ m := by
    intro m
    induction m with
    | nil => intro i a h; exact absurd h (by simp [Tab.get?])
    | cons e m ih =>
      intro i a h
      obtain ⟨k, x⟩ := e
      by_cases hk : k = i
      · subst hk; simp only [Tab.get?, if_pos, Option.some.injEq] at h; simp [h]
      · simp only [Tab.get?, hk, if_false] at h; exact List.mem_cons_of_mem _ (ih h)
  refine Tab.ext hm.1 hn.1 fun i => ?_
  have hi := h i
  unfold Store.get at hi
  cases h1 : Tab.get? m i with
  | none =>
    cases h2 : Tab.get? n i with
    | none => rfl
    | some b => rw [h1, h2] at hi; exact absurd hi.symm (hn.2 _ (listed h2))
  | some a =>
    cases h2 : Tab.get? n i with
    | none => rw [h1, h2] at hi; exact absurd hi (hm.2 _ (listed h1))
    | some b => rw [h1, h2] at hi; simpa using hi

/-! ## Memory -/

/-- Reset's memory is in canonical form. -/
theorem reset_memory_wf : Memory.wf State.reset.mem = true := rfl

/-- Writing bytes keeps memory's canonical form. -/
theorem State.writePhys_wf {s : State} (h : Memory.wf s.mem = true) (pa : Nat) (bs : List Byte) :
    Memory.wf (s.writePhys pa bs).mem = true := Store.setRange_wf bs h

/-- What is read after writing bytes: the byte written inside them, and what was there outside. -/
theorem State.byte_writePhys {s : State} (h : Memory.wf s.mem = true) (pa : Nat) (bs : List Byte) (a : Nat) :
    (s.writePhys pa bs).byte a = if pa ≤ a then (bs[a - pa]?).getD (s.byte a) else s.byte a :=
  Store.get_setRange bs h a

/-- Spoiling a compressed unit keeps memory's canonical form. -/
theorem State.spoilUnit_wf {s : State} (h : Memory.wf s.mem = true) (a : Nat) : Memory.wf (s.spoilUnit a).mem = true :=
  State.writePhys_wf h _ _

/-- Performing a byte of a store keeps memory's canonical form. -/
theorem State.performByte_wf {s : State} (h : Memory.wf s.mem = true) (t : Nat) (e : Place × Byte) :
    Memory.wf (s.performByte t e).mem = true := by
  obtain ⟨p, b⟩ := e
  cases p with
  | scratch o => exact h
  | phys a =>
    simp only [State.performByte]
    split
    · exact h
    · exact State.writePhys_wf h a [b]
  | enc a => exact State.spoilUnit_wf h a

/-- Poison and frame encodings keep theirs. -/
theorem State.setPoison_wf {s : State} (h : Store.wf s.poison = true) (pa : Nat) (on : Bool) :
    Store.wf (s.setPoison pa on).poison = true := Store.set_wf h _ _

theorem State.useFrame_wf {s : State} (h : Store.wf s.enc = true) (pa z : Nat) : Store.wf (s.useFrame pa z).enc = true := by
  unfold State.useFrame
  split
  · exact Store.set_wf h _ _
  · exact h

theorem State.trackFrame_wf {s : State} (h : Store.wf s.prot = true) (pa p : Nat) :
    Store.wf (s.trackFrame pa p).prot = true := by
  unfold State.trackFrame
  split
  · exact h
  · exact Store.set_wf h _ _

/-! ## Stores performed (R93, R98, R99) -/

/-- What every step of a fold keeps, the fold keeps. -/
theorem foldl_keeps {α β : Type} {P : β → Prop} (f : β → α → β) (hf : ∀ b a, P b → P (f b a)) :
    ∀ (l : List α) (b : β), P b → P (l.foldl f b)
  | [], _, h => h
  | a :: l, b, h => foldl_keeps f hf l (f b a) (hf b a h)

theorem State.performBytes_wf {s : State} (h : Memory.wf s.mem = true) (t : Nat) (bs : List (Place × Byte)) :
    Memory.wf (s.performBytes t bs).mem = true :=
  foldl_keeps (P := fun u => Memory.wf u.mem = true) _ (fun _ e hs => State.performByte_wf hs t e) bs s h

theorem State.clearPoison_mem (s : State) (bs : List (Place × Byte)) : (s.clearPoison bs).mem = s.mem := by
  refine foldl_keeps (P := fun u => u.mem = s.mem) _ (fun u n hu => ?_) _ s rfl
  split
  · simpa using hu
  · exact hu

theorem State.performEntry_wf {s : State} (h : Memory.wf s.mem = true) (t : Nat) (e : FifoEntry) :
    Memory.wf (s.performEntry t e).mem = true := by
  rw [State.performEntry, State.clearPoison_mem]
  exact State.performBytes_wf h t _

theorem State.spillWhere_wf {s : State} (h : Memory.wf s.mem = true) (t : Nat) (pick : Buffered → Bool) :
    Memory.wf (s.spillWhere t pick).mem = true := by
  unfold State.spillWhere
  split
  · exact h
  · simp only [State.modTeam_mem]
    exact foldl_keeps (P := fun u => Memory.wf u.mem = true) _ (fun _ _ hu => State.performEntry_wf hu t _) _ s h

theorem State.shareEntry_wf {s : State} (h : Memory.wf s.mem = true) (t g : Nat) (e : FifoEntry) :
    Memory.wf (s.shareEntry t g e).mem = true := by
  unfold State.shareEntry State.spillSectors
  refine State.spillWhere_wf ?_ t _
  simp only [State.dropEarly, State.modTeam_mem]
  exact State.performBytes_wf h t _

theorem State.drainFifo_wf {s : State} (h : Memory.wf s.mem = true) (t g : Nat) :
    Memory.wf (s.drainFifo t g).mem = true := by
  unfold State.drainFifo
  split
  · exact h
  · split
    · exact h
    · simp only [State.modGroup_mem]
      exact foldl_keeps (P := fun u => Memory.wf u.mem = true) _ (fun _ _ hu => State.shareEntry_wf hu t g _) _ s h

/-- Every store of a group performed: memory stays canonical. -/
theorem State.drainGroup_wf {s : State} (h : Memory.wf s.mem = true) (t g : Nat) :
    Memory.wf (s.drainGroup t g).mem = true := State.spillWhere_wf (State.drainFifo_wf h t g) t _

/-- A page re-encoded, and a migration, keep memory's, poison's and the encodings' canonical form. -/
theorem State.recode_wf {s : State} (h : Memory.wf s.mem = true) (src dst : Nat) (zs zd : Bool) :
    Memory.wf (s.recode src dst zs zd).mem = true := by
  unfold State.recode
  by_cases hc : Store.get s.enc (src / 4096) = 0 ∨ Store.get s.enc (src / 4096) = zCode (if zs then 1 else 0)
  · simpa only [if_pos hc] using h
  · simp only [if_neg hc]; exact State.writePhys_wf h _ _

theorem State.recode_enc_wf {s : State} (h : Store.wf s.enc = true) (src dst : Nat) (zs zd : Bool) :
    Store.wf (s.recode src dst zs zd).enc = true := by
  unfold State.recode
  by_cases hc : Store.get s.enc (src / 4096) = 0 ∨ Store.get s.enc (src / 4096) = zCode (if zs then 1 else 0)
  · simp only [if_pos hc]; exact Store.set_wf h _ _
  · simp only [if_neg hc]; exact Store.set_wf h _ _

theorem State.migrate_wf {s : State} (h : Memory.wf s.mem = true) (src dst n : Nat) (zs zd : Bool) :
    Memory.wf (s.migrate src dst n zs zd).mem = true := by
  have step : ∀ (l : List Nat) (u : State), Memory.wf u.mem = true →
      Memory.wf (l.foldl (fun u i => u.recode (src + 4096 * i) (dst + 4096 * i) zs zd) u).mem = true := by
    intro l
    induction l with
    | nil => intro u hu; exact hu
    | cons i l ih => intro u hu; exact ih _ (State.recode_wf hu ..)
  exact step _ _ (Store.copy_wf h src dst n)

end Sys2Proof.Machine
end

