-- ==== Sys2Proof/Tests/Slice0.lean ====
section
/-!
SUPPORT. Tests of our own: ill-formed terms that the check refuses, words of each family written out from the spec's
encodings, single steps with results from the spec's text and worked examples, and for each statement with hypotheses a
concrete state that meets them.
-/
open Sys2Proof Sys2Proof.Machine

namespace Sys2Proof.Tests

set_option Elab.async false

/-! ## A small machine -/

/-- The staged machine (log 1) with the issue slot of lane 0's fragment of group 0: one team of four groups, nothing in its
registers but what R20 puts there. -/
def base : State := (State.reset.staged 0xC0000000).setCur (some (2, 0, 0))

/-- Group 0 of the staged team. -/
def group : Group := Group.start 0x400004 (startRegs 0 524288) 0 (0, [(0, 128), (128, 64)], [(0, 64)])

/-- A state with its group 0 changed. -/
def inGroup (f : Group → Group) (s : State) : State := s.modGroup 2 0 f

/-- A state with a v register set in every lane of group 0. -/
def vset (r : Nat) (f : Nat → Word) (s : State) : State :=
  inGroup (fun G => G.mapLanes (List.range 32) (fun l L => L.setV r (f l))) s

/-- A state with an s register of group 0 set. -/
def sset (r : Nat) (w : Word) (s : State) : State := inGroup (·.setS r w) s

/-- With only lane 0 live. -/
def solo : State := inGroup (fun G => G.mapLanes ((List.range 31).map (· + 1)) (fun _ L => { L with live := false })) base

/-- With an address in v0:v1 of every lane. -/
def vaddr (a : Nat) (s : State) : State :=
  s |> vset 0 (fun _ => BitVec.ofNat 32 a) |> vset 1 (fun _ => BitVec.ofNat 32 (a / 2 ^ 32))

/-- With an address in s0:s1. -/
def saddr (a : Nat) (s : State) : State := inGroup (·.setSPair 0 a) s

/-- A register of a lane of group 0 of the state that an outcome leads to. -/
def vOf (o : Out) (l r : Nat) : Option Word :=
  match o with
  | .next t => do
    let T ← Tab.get? t.teams 2
    let G ← Tab.get? T.groups 0
    pure ((G.lane l).vreg r)
  | _ => none

/-- What a function says of group 0 in the state that an outcome leads to. -/
def grpOf {α : Type} (o : Out) (f : Group → α) : Option α :=
  match o with
  | .next t => do
    let T ← Tab.get? t.teams 2
    let G ← Tab.get? T.groups 0
    pure (f G)
  | _ => none

/-- Every condition of `Executes`, as one check, with a further one on the fragment. -/
def can (s : State) (i : Instr) (p : Ctx → Bool) : Bool :=
  match s.issuer with
  | none => false
  | some c =>
    (!(heldOutside i) || decide (c.grp.handlers.length ≤ c.level)) &&
    (!(holdPoint i) || c.grp.mustHold c.level c.key c.lanes c.pc == false) &&
    decide (c.grp.lanes.map (·.1) = List.range 32) && c.stepOne i && (i.regRange c.team.regs c.team.ztiles).isNone &&
    (!(i.kind == .uniform) || (c.grp.uq.lost i.latches).isNone) &&
    (!(i.kind == .lane) || c.lanes.all (fun l => ((c.grp.lane l).q.lost i.latches).isNone)) && p c

theorem executes_of {s : State} {i : Instr} {p : Ctx → Bool} (h : can s i p = true) :
    ∃ c, Executes s c i ∧ p c = true := by
  unfold can at h
  split at h
  · exact absurd h (by simp)
  · rename_i c hc
    simp only [Bool.and_eq_true, Bool.or_eq_true, Bool.not_eq_true', decide_eq_true_eq, beq_iff_eq, beq_eq_false_iff_ne,
      Option.isNone_iff_eq_none, List.all_eq_true] at h
    refine ⟨c, { issuer := hc, inside := ?_, free := ?_, whole := ?_, legal := ?_, registers := ?_, uniform := ?_, lanes := ?_ }, h.2⟩ <;>
      (try intro hh) <;> simp_all [Group.Whole]

theorem exists_exec {s : State} {i : Instr} {P : Ctx → Prop} [DecidablePred P]
    (h : can s i (fun c => decide (P c)) = true) : ∃ c, Executes s c i ∧ P c := by
  obtain ⟨c, he, hp⟩ := executes_of h
  exact ⟨c, he, of_decide_eq_true hp⟩

theorem all_execute {s : State} {is : List Instr} (h : is.all (fun i => can s i fun _ => true) = true) :
    ∀ i ∈ is, ∃ c, Executes s c i := by
  intro i hi
  obtain ⟨c, he, _⟩ := executes_of (List.all_eq_true.1 h i hi)
  exact ⟨c, he⟩

/-- A condition on the fragment that holds the issue slot. -/
def check (s : State) (p : Ctx → Bool) : Bool :=
  match s.issuer with
  | none => false
  | some c => p c

theorem exists_ctx {s : State} {P : Ctx → Prop} [DecidablePred P] (h : check s (fun c => decide (P c)) = true) :
    ∃ c, s.issuer = some c ∧ P c := by
  unfold check at h
  split at h
  · exact absurd h (by simp)
  · rename_i c hc
    exact ⟨c, hc, of_decide_eq_true h⟩

/-- As `can`, for `Issues`. -/
def may (s : State) (i : Instr) (p : Ctx → Bool) : Bool :=
  check s fun c => (!(heldOutside i) || decide (c.grp.handlers.length ≤ c.level)) &&
    (!(holdPoint i) || c.grp.mustHold c.level c.key c.lanes c.pc == false) && p c

theorem exists_issue {s : State} {i : Instr} {P : Ctx → Prop} [DecidablePred P]
    (h : may s i (fun c => decide (P c)) = true) : ∃ c, Issues s c i ∧ P c := by
  unfold may check at h
  split at h
  · exact absurd h (by simp)
  · rename_i c hc
    simp only [Bool.and_eq_true, Bool.or_eq_true, Bool.not_eq_true', decide_eq_true_eq, beq_iff_eq] at h
    obtain ⟨⟨h1, h2⟩, h3⟩ := h
    exact ⟨c, ⟨hc, fun hh => h1.resolve_left (by simp [hh]), fun hh => h2.resolve_left (by simp [hh])⟩, h3⟩

/-- Nothing of a lane's access still has to come from another device, as a check. -/
def here (c : Ctx) (k : ReqKind) (l : Nat) (ps : List Place) : Bool :=
  remoteState c.grp.remote k l ps == .ready && !remoteLost c.grp.remote k l ps

theorem here_of {c : Ctx} {k : ReqKind} {l : Nat} {ps : List Place} (h : here c k l ps = true) : c.Here k l ps := by
  simpa [here, Ctx.Here] using h

/-- An access of a kind by lane 0 that passes, and of which nothing still has to come from another device. -/
def passes (r : Access) (k : ReqKind) (c : Ctx) : Bool :=
  match r with
  | .ok _ ps _ => here c k 0 ps
  | _ => false

/-- A word of lane 0 alone whose access passes. -/
theorem reaches_of {s : State} {i : Instr} {k : ReqKind} {n : Nat} {a : Ctx → Nat → Nat} {ls : Ctx → List Nat}
    (h : can s i (fun c => ls c == [0] && passes (lanePath s c k 0 (a c 0) n) k c) = true) :
    ∃ c t ps, Executes s c i ∧ ls c = [0] ∧ Reaches c k n (a c) (fun _ => ps) (ls c) s t ∧ ∀ l ∈ ls c, c.Here k l ps := by
  obtain ⟨c, he, hp⟩ := executes_of h
  simp only [Bool.and_eq_true, beq_iff_eq] at hp
  obtain ⟨h0, hp⟩ := hp
  unfold passes at hp
  split at hp
  · rename_i u ps io hacc
    refine ⟨c, u, ps, he, h0, ?_, ?_⟩
    · rw [h0]; exact .cons ⟨io, hacc⟩ (.nil _)
    · rw [h0]; intro l hl; rw [List.mem_singleton.1 hl]; exact here_of hp
  · exact absurd hp (by simp)

theorem chain_one {R : State → Nat → State → Prop} {s t : State} {l : Nat} (h : R s l t) : Chain R [l] s t :=
  .cons h (.nil _)

/-- A condition on what an option holds. -/
def has {α : Type} (o : Option α) (p : α → Bool) : Bool :=
  match o with
  | some a => p a
  | none => false

theorem exists_some {α : Type} {o : Option α} {P : α → Prop} [DecidablePred P]
    (h : has o (fun a => decide (P a)) = true) : ∃ a, o = some a ∧ P a := by
  cases o with
  | none => exact absurd h (by simp [has])
  | some a => exact ⟨a, rfl, of_decide_eq_true h⟩

theorem reach_all {s : State} {xs : List (Instr × Nat)} {k : ReqKind} {a : Nat → Ctx → Nat → Nat} {ls : Ctx → List Nat}
    (h : xs.all (fun p => can s p.1 (fun c => ls c == [0] && passes (lanePath s c k 0 (a p.2 c 0) p.2) k c)) = true) :
    ∀ p ∈ xs, ∃ c t ps, Executes s c p.1 ∧ ls c = [0] ∧ Reaches c k p.2 (a p.2 c) (fun _ => ps) (ls c) s t ∧
      ∀ l ∈ ls c, c.Here k l ps :=
  fun p hp => reaches_of (List.all_eq_true.1 h p hp)

theorem exists_group {s : State} {t g : Nat} {P : Team → Group → Prop} [∀ T G, Decidable (P T G)]
    (h : has (Tab.get? s.teams t) (fun T => has (Tab.get? T.groups g) (fun G => decide (P T G))) = true) :
    ∃ T G, Tab.get? s.teams t = some T ∧ Tab.get? T.groups g = some G ∧ P T G := by
  cases hT : Tab.get? s.teams t with
  | none => rw [hT] at h; exact absurd h (by simp [has])
  | some T =>
    rw [hT] at h
    cases hG : Tab.get? T.groups g with
    | none => simp [has, hG] at h
    | some G => exact ⟨T, G, rfl, hG, by simpa [has, hG] using h⟩

/-- A condition on an access that passes. -/
def okThen (r : Access) (p : State → List Place → Bool → Bool) : Bool :=
  match r with
  | .ok s ps io => p s ps io
  | _ => false

theorem ok_then {r : Access} {p : State → List Place → Bool → Bool} (h : okThen r p = true) :
    ∃ s ps io, r = .ok s ps io ∧ p s ps io = true := by
  cases r with
  | ok s ps io => exact ⟨s, ps, io, rfl, h⟩
  | trap s c i => exact absurd h (by simp [okThen])
  | park s v f => exact absurd h (by simp [okThen])

/-- A condition on a translation failure. -/
def parkThen (r : Access) (p : State → Nat → XFail → Bool) : Bool :=
  match r with
  | .park s va f => p s va f
  | _ => false

theorem park_then {r : Access} {p : State → Nat → XFail → Bool} (h : parkThen r p = true) :
    ∃ s va f, r = .park s va f ∧ p s va f = true := by
  cases r with
  | ok s ps io => exact absurd h (by simp [parkThen])
  | trap s c i => exact absurd h (by simp [parkThen])
  | park s v f => exact ⟨s, v, f, rfl, h⟩

/-- A condition on what a read gives. -/
def valThen (g : Got) (p : State → List Byte → Bool) : Bool :=
  match g with
  | .val s bs => p s bs
  | .stop _ => false

theorem val_then {g : Got} {p : State → List Byte → Bool} (h : valThen g p = true) : ∃ s bs, g = .val s bs ∧ p s bs = true := by
  cases g with
  | val s bs => exact ⟨s, bs, rfl, h⟩
  | stop r => exact absurd h (by simp [valThen])

/-- A condition on a read that parks. -/
def stopThen (g : Got) (p : State → Bool) : Bool :=
  match g with
  | .stop (.park s _ _ _) => p s
  | _ => false

theorem stop_then {g : Got} {p : State → Bool} (h : stopThen g p = true) :
    ∃ s va k f, g = .stop (.park s va k f) ∧ p s = true := by
  unfold stopThen at h
  split at h
  · exact ⟨_, _, _, _, rfl, h⟩
  · exact absurd h (by simp)

theorem mem_of_get {α : Type} {m : Tab α} {i : Nat} {a : α} (h : Tab.get? m i = some a) : (i, a) ∈ m := by
  induction m with
  | nil => exact absurd h (by simp [Tab.get?])
  | cons e m ih =>
    simp only [Tab.get?] at h
    split at h
    · next hi => rw [← hi, ← Option.some.inj h]; exact List.mem_cons_self
    · exact List.mem_cons_of_mem _ (ih h)

/-- What holds of the lanes of a group holds of the lane of every number. -/
theorem lane_all {G : Group} {P : Lane → Prop} (h : ∀ L ∈ G.lanes, P L.2) (h0 : P { Lane.start 0 with live := false }) (l : Nat) :
    P (G.lane l) := by
  unfold Group.lane
  cases hl : Tab.get? G.lanes l with
  | none => exact h0
  | some L => exact h _ (mem_of_get hl)

/-- Names of fragments below the next one, for every lane number. -/
theorem names_of {G : Group} (h : ∀ L ∈ G.lanes, L.2.frag.base < G.nextBase) (h0 : (Lane.start 0).frag.base < G.nextBase)
    (l : Nat) : (G.lane l).frag.base < G.nextBase :=
  lane_all (P := fun L => L.frag.base < G.nextBase) h h0 l

theorem barrier_all {T : Team} {P : Barrier → Prop} (h : ∀ e ∈ T.barriers, P e.2) (h0 : P ⟨0, 0, 0⟩) (b : Nat) : P (T.barrier b) := by
  unfold Team.barrier
  cases hb : Tab.get? T.barriers b with
  | none => exact h0
  | some r => exact h _ (mem_of_get hb)

/-- Whether an outcome is a next state. -/
def goes (o : Out) : Bool :=
  match o with
  | .next _ => true
  | _ => false

theorem next_of {o : Out} (h : goes o = true) : ∃ t, o = .next t := by
  cases o <;> simp_all [goes]

/-! ## Lane words on registers -/

/-- With valid latches in every lane. -/
def latched : State := inGroup (fun G => (G.mapLanes (List.range 32) (fun l L => { L with
  q := ⟨some (BitVec.ofNat 32 l), some 7, some 7, some 7⟩ }))) base

set_option maxRecDepth 100000 in
/-- Every register word of R174 to R180 can execute, with "_" as its destination and with latches as its sources. -/
theorem witness_integer_words : ∀ i ∈ [Instr.iadd false (.q 3) (.q 0) (.s 1), .isub true (.v 0) (.v 0) (.v 191),
    .imul false (.v 191) (.v 1) (.v 2), .imulhI32 false (.v 3) (.v 1) (.v 2), .imulhN32 false (.v 3) (.v 1) (.v 2),
    .imac false (.v 3) (.v 1) (.v 2), .iminI32 false (.v 3) (.v 1) (.v 2), .iminN32 false (.v 3) (.v 1) (.v 2),
    .imaxI32 false (.v 3) (.v 1) (.v 2), .imaxN32 false (.v 3) (.v 1) (.v 2), .and false (.v 3) (.v 1) (.v 2),
    .or false (.v 3) (.v 1) (.v 2), .xor false (.v 3) (.v 1) (.v 2), .andn false (.v 3) (.v 1) (.v 2),
    .shl false (.v 3) (.v 1) (.v 2), .shr false (.v 3) (.v 1) (.v 2), .sar false (.v 3) (.v 1) (.v 2),
    .iaddImm false (.v 3) (.v 1) 0x80, .shlImm false (.v 3) (.v 1) 31, .shrImm false (.v 3) (.v 1) 0,
    .sarImm false (.v 3) (.v 1) 31, .icmpEq false (.v 3) (.v 1) (.v 2), .icmpNe false (.v 3) (.v 1) (.v 2),
    .icmpLtI32 false (.v 3) (.v 1) (.v 2), .icmpLeI32 false (.v 3) (.v 1) (.v 2), .icmpLtN32 false (.v 3) (.v 1) (.v 2),
    .icmpLeN32 false (.v 3) (.v 1) (.v 2), .sel false (.v 3) (.v 1) (.v 2), .lea false (.v 190) (.s 58) (.q 3),
    .bfx false (.v 3) (.v 1) (.v 2), .bfi false (.v 3) (.v 1) (.v 2), .iabs false (.v 3) (.v 1), .clz false (.v 3) (.v 1),
    .popc false (.v 3) (.v 1), .brev false (.v 3) (.v 1), .bint2 false (.v 3) (.v 1), .bint3 false (.v 3) (.v 1),
    .bdeint3 false (.v 3) (.v 1), .laneid false (.v 3)], ∃ c, Executes latched c i := all_execute (by decide +kernel)

set_option maxRecDepth 100000 in
/-- As the last, for the float words, the cross-lane words and FCVT through a format register. -/
theorem witness_float_and_cross_words : ∀ i ∈ [Instr.faddF32 false (.v 3) (.v 1) (.v 2), .fsubF32 false (.v 3) (.v 1) (.v 2),
    .fmulF32 false (.v 3) (.v 1) (.v 2), .ffmaF32 false (.v 3) (.v 1) (.v 2), .fminF32 false (.v 3) (.v 1) (.v 2),
    .fmaxF32 false (.v 3) (.v 1) (.v 2), .fcmpEq false (.v 3) (.v 1) (.v 2), .fcmpLt false (.v 3) (.v 1) (.v 2),
    .fcmpLe false (.v 3) (.v 1) (.v 2), .fcmpUn false (.v 3) (.v 1) (.v 2), .faddPacked false (.v 3) (.v 0) 0,
    .fsubPacked false (.v 3) (.v 1) 1, .fmulPacked false (.v 3) (.v 1) 0, .ffmaPacked false (.v 3) (.v 1) 1,
    .fminPacked false (.v 3) (.v 1) 0, .fmaxPacked false (.v 3) (.v 1) 1, .pack2F16X2 false (.v 3) (.v 1) (.v 2),
    .pack2G16X2 false (.v 3) (.v 1) (.v 2), .unpack2F16X2 false (.v 4) (.v 1), .unpack2G16X2 false (.v 4) (.v 1),
    .frcp false (.v 3) (.v 1), .frsq false (.v 3) (.v 1), .fsqrt false (.v 3) (.v 1), .fexp2 false (.v 3) (.v 1),
    .flog2 false (.v 3) (.v 1), .fsin false (.v 3) (.v 1), .fcvtF16F32 false (.v 3) (.v 1) 4, .fcvtG16F32 false (.v 3) (.v 1) 0,
    .fcvtF32F16 false (.v 3) (.v 1) 1, .fcvtF32G16 false (.v 3) (.v 1) 2, .fcvtI32F32 false (.v 3) (.v 1) 3,
    .fcvtN32F32 false (.v 3) (.v 1) 0, .fcvtF32I32 false (.v 3) (.v 1) 0, .fcvtF32N32 false (.v 3) (.v 1) 0,
    .fcvtF32F32 false (.v 3) (.v 1) 0, .fcvtQF32 false (.v 3) (.v 1) 7 4, .fcvtF32Q false (.v 3) (.v 1) 0 0,
    .shfl false (.v 3) (.v 1) (.v 2), .shflup false (.v 3) (.v 1) 31, .shfldn false (.v 3) (.v 1) 0, .shflx false (.v 3) (.v 1) 31,
    .ballot false (.v 3) (.v 1), .voteAny false (.v 3) (.v 1), .voteAll false (.v 3) (.v 1), .scan false (.v 3) (.v 1) 9,
    .red false (.v 3) (.v 1) 10], ∃ c, Executes base c i := all_execute (by decide +kernel)

set_option maxRecDepth 100000 in
/-- FCVT's two cases: a format register that holds nothing valid, as at the start, and one that does. -/
theorem witness_format_register : (∃ c, Executes base c (.fcvtQF32 false (.v 3) (.v 1) 7 4) ∧
      descValid (Store.get c.grp.f 7) = false) ∧
    ∃ c, Executes (inGroup (fun G => { G with f := Store.set G.f 7 0x6A }) base) c (.fcvtQF32 false (.v 3) (.v 1) 7 4) ∧
      descValid (Store.get c.grp.f 7) = true :=
  ⟨exists_exec (by decide +kernel), exists_exec (by decide +kernel)⟩

/-- Words that read d, under "_"; LEA with an odd pair, at the ends of each class; SCAN and RED with codes of no
function. -/
def refusedWords : List Instr := [.imac false (.q 3) (.v 0) (.v 1), .sel false (.q 3) (.v 0) (.v 1),
  .bfi false (.q 3) (.v 0) (.v 1), .lea false (.v 191) (.v 0) (.v 0), .lea false (.v 0) (.s 59) (.v 0),
  .lea false (.s 0) (.v 0) (.v 0), .lea false (.v 0) (.q 0) (.v 0), .scan false (.v 0) (.v 1) 3, .scan false (.v 0) (.v 1) 10,
  .red false (.v 0) (.v 1) 6, .red false (.v 0) (.v 1) 11, .red false (.v 0) (.v 1) 31]

set_option maxRecDepth 100000 in
/-- Each of them issues, and is refused. -/
theorem witness_refused_operands : ∀ i ∈ refusedWords, ∃ c, Issues base c i ∧ c.stepOne i = false := by
  have h : refusedWords.all (fun i => may base i (fun c => decide (c.stepOne i = false))) = true := by decide +kernel
  exact fun i hi => exists_issue (List.all_eq_true.1 h i hi)

/-- Words of majors 0x13 and 0x2E that are no instruction, at the ends of their ranges. -/
theorem witness_unallocated_shifts :
    ((0x13000060#32).toNat / 2 ^ 31 = 0 ∧ (0x13000060#32).toNat / 2 ^ 24 % 2 ^ 6 = 0x13 ∧ 3 ≤ (0x13000060#32).toNat / 2 ^ 5 % 2 ^ 3) ∧
    ((0x130000FF#32).toNat / 2 ^ 31 = 0 ∧ (0x130000FF#32).toNat / 2 ^ 24 % 2 ^ 6 = 0x13 ∧ 3 ≤ (0x130000FF#32).toNat / 2 ^ 5 % 2 ^ 3) := by decide

theorem witness_unallocated_cross :
    ((0x2E0000A1#32).toNat / 2 ^ 31 = 0 ∧ (0x2E0000A1#32).toNat / 2 ^ 24 % 2 ^ 6 = 0x2E ∧ 0xA0 ≤ (0x2E0000A1#32).toNat % 2 ^ 8 ∧
      (0x2E0000A1#32).toNat % 2 ^ 8 ∉ [0xA0, 0xC0, 0xC1]) ∧
    ((0x2E0000BF#32).toNat / 2 ^ 31 = 0 ∧ (0x2E0000BF#32).toNat / 2 ^ 24 % 2 ^ 6 = 0x2E ∧ 0xA0 ≤ (0x2E0000BF#32).toNat % 2 ^ 8 ∧
      (0x2E0000BF#32).toNat % 2 ^ 8 ∉ [0xA0, 0xC0, 0xC1]) ∧
    ((0x2E0000C2#32).toNat / 2 ^ 31 = 0 ∧ (0x2E0000C2#32).toNat / 2 ^ 24 % 2 ^ 6 = 0x2E ∧ 0xA0 ≤ (0x2E0000C2#32).toNat % 2 ^ 8 ∧
      (0x2E0000C2#32).toNat % 2 ^ 8 ∉ [0xA0, 0xC0, 0xC1]) ∧
    ((0x2E0000FF#32).toNat / 2 ^ 31 = 0 ∧ (0x2E0000FF#32).toNat / 2 ^ 24 % 2 ^ 6 = 0x2E ∧ 0xA0 ≤ (0x2E0000FF#32).toNat % 2 ^ 8 ∧
      (0x2E0000FF#32).toNat % 2 ^ 8 ∉ [0xA0, 0xC0, 0xC1]) := by decide

/-- The trees are over sets such as all 32 lanes, one lane, and none. -/
theorem witness_lane_sets : ∀ A ∈ [List.range 32, [31], []], A.Nodup ∧ ∀ l ∈ A, l < 32 := by decide

/-- Bit positions and operands of the special values of R52's table. -/
theorem witness_negative_operands : (0x80000000 < 0x80000001 ∧ 0x80000001 < 0xFF800000) ∧
    (0x80000000 < 0xFF7FFFFF ∧ 0xFF7FFFFF < 0xFF800000) := by decide

set_option maxRecDepth 100000 in
/-- The frames of the lane words: words that execute and go on. -/
theorem witness_lane_frame : ∀ i ∈ [Instr.iadd false (.v 3) (.v 1) (.v 2), .lea false (.v 190) (.s 58) (.v 2),
    .faddF32 false (.q 3) (.v 1) (.v 2), .unpack2F16X2 false (.v 0) (.v 1)],
    (∃ c, Executes base c i) ∧ ∃ t, exec i base = .next t := by
  have h : [Instr.iadd false (.v 3) (.v 1) (.v 2), .lea false (.v 190) (.s 58) (.v 2), .faddF32 false (.q 3) (.v 1) (.v 2),
    .unpack2F16X2 false (.v 0) (.v 1)].all (fun i => can base i (fun _ => true) && goes (exec i base)) = true := by
    decide +kernel
  intro i hi
  have h := List.all_eq_true.1 h i hi
  simp only [Bool.and_eq_true] at h
  obtain ⟨c, hc, _⟩ := executes_of h.1
  exact ⟨⟨c, hc⟩, next_of h.2⟩


/-- Codes at the ends of the ranges of R53 to R57: a NaN of both kinds, an infinity, a finite number that is not zero, and a
valid description of a narrow format. -/
theorem witness_conversions :
    (∀ f ∈ [f32, f16, g16], f.inf < (f.sign - 1) % f.sign ∧ f.sign - 1 < 2 * f.sign ∧ f.nan ≤ (f.sign - 1) % f.sign ∧
      f.inf < (f.inf + 1) % f.sign ∧ (f.inf + 1) % f.sign < f.nan ∧ (f.sign + f.inf) % f.sign = f.inf ∧
      f.sign + f.inf < 2 * f.sign ∧ ¬f.inf < 0 % f.sign ∧ f.Finite (f.inf - 1) ∧ f.Finite (f.sign + 1)) ∧
    f32.units (f32.inf - 1) ≠ 0 ∧ f32.Finite (f32.inf - 1) ∧ descValid 0x6A = true ∧ descValid 0 = false := by
  unfold Fmt.Finite
  decide +kernel
/-! ## Lane and uniform accesses -/

/-- With a range lock on core 0 over the scratchpad bytes 64 to 127, as the destination of an operation of the team. -/
def locked : State := base.modCore 0 fun k => { k with locks := [(3, ⟨2, 0, 0, windowBase + 64, 64, true, 0⟩)] }

/-- With the sector of physical address 0x400100 poisoned. -/
def poisoned : State := base.setPoison 0x400100 true

set_option maxRecDepth 100000 in
/-- The clauses of the access checks at the ends of their ranges: the first and last addresses that are not canonical; one
byte below the window and one past the limit, and the last bytes inside; the first and last bytes of a lock, and those
beside it; a page that is mapped and one that is not; a poisoned sector, read and stored to. -/
theorem witness_access_checks :
    (canonical (2 ^ 56) = false ∧ canonical (2 ^ 64 - 2 ^ 56 - 1) = false ∧ canonical (2 ^ 56 - 1) = true ∧
      canonical (2 ^ 64 - 2 ^ 56) = true) ∧
    (∃ c, base.issuer = some c ∧ meetsWindow (windowBase - 1) 2 = true ∧ windowBase - 1 < windowBase) ∧
    (∃ c, (inGroup (fun G => G) (base.modTeam 2 fun T => { T with limit := 4096 })).issuer = some c ∧
      windowBase + c.team.limit < windowBase + 4095 + 2 ∧ ¬windowBase + c.team.limit < windowBase + 4095 + 1) ∧
    (∃ c, locked.issuer = some c ∧ lockHit (locked.locksOf 0) c.t c.space (windowBase + 63) 2 .load = some 3 ∧
      lockHit (locked.locksOf 0) c.t c.space (windowBase + 127) 1 .load = some 3 ∧
      lockHit (locked.locksOf 0) c.t c.space (windowBase + 63) 1 .load = none ∧
      lockHit (locked.locksOf 0) c.t c.space (windowBase + 128) 1 .load = none) ∧
    (∃ c, base.issuer = some c ∧ lockHit (base.locksOf c.team.pcore) c.t c.space windowBase 1 .load = none) ∧
    (∃ c, base.issuer = some c ∧ parkThen (placesFrom base (.core c.team.pcore) c.space .load 4 0x200000 1) (fun _ _ _ => true) ∧
      okThen (placesFrom base (.core c.team.pcore) c.space .load 4 0x1FFFFF 1) (fun u ps _ => !poisonHit u (u.ownStores c) ps)) ∧
    (∃ c, poisoned.issuer = some c ∧
      okThen (placesFrom poisoned (.core c.team.pcore) c.space .load 4 0x40011F 1) (fun u ps _ => poisonHit u (u.ownStores c) ps) ∧
      okThen (placesFrom poisoned (.core c.team.pcore) c.space .store 4 0x40011F 1) (fun _ _ _ => true)) :=
  ⟨by decide +kernel, exists_ctx (by decide +kernel), exists_ctx (by decide +kernel), exists_ctx (by decide +kernel),
    exists_ctx (by decide +kernel), exists_ctx (by decide +kernel), exists_ctx (by decide +kernel)⟩

set_option maxRecDepth 100000 in
/-- Loads of every size from the scratchpad and from a mapped page, each reaching its bytes. -/
theorem witness_loads (a : Nat) (ha : a = windowBase ∨ a = 0x400100) : ∀ p ∈ [(Instr.ldB false (.v 4) (.v 0) 0x7F, 1),
    (.ldH false (.v 4) (.v 0) 0x7F, 2), (.ldW false (.v 4) (.v 0) 0x7F, 4), (.ldD false (.v 4) (.v 0) 0x7F, 8),
    (.ldO false (.v 4) (.v 0) 0x7F, 16)], ∃ c t ps, Executes (vaddr a solo) c p.1 ∧ c.lanes = [0] ∧
      Reaches c .read p.2 (fun l => addOffset (c.grp.pairVal (c.grp.lane l) (.v 0)) ((0x7F#8).toInt * p.2)) (fun _ => ps)
        c.lanes (vaddr a solo) t ∧ ∀ l ∈ c.lanes, c.Here .read l ps := by
  rcases ha with rfl | rfl <;>
    exact reach_all (k := .read) (s := vaddr _ solo)
      (a := fun n c l => addOffset (c.grp.pairVal (c.grp.lane l) (.v 0)) ((0x7F#8).toInt * n)) (ls := Ctx.lanes) (by decide +kernel)

/-- The four places of a word of another device's memory (R72, R380). -/
def farPlaces : List Place := (List.range 4).map (fun i => .phys (2 ^ 55 + 0x100 + i))

/-- With the bytes of lane 0's load there, some of them poisoned (R346). -/
def fetched (lost : List Nat) : State := (vaddr 0x400100 solo) |> inGroup (fun G => { G with
  began := [⟨0, 0, .read, 0x400100, 4, farPlaces, none⟩],
  remote := [⟨.read, 0, 2 ^ 55 + 0x100, 4, 0, 1, 0, some (false, ⟨[1, 2, 3, 4], lost⟩)⟩] })

set_option maxRecDepth 100000 in
/-- A load of which another device has answered every byte, with none poisoned and with the last one poisoned. -/
theorem witness_remote_load (lost : List Nat) (h : lost = [] ∨ lost = [3]) : ∃ c, Executes (fetched lost) c (.ldW false (.v 4) (.v 0) 0) ∧
    (c.lanes = [0] ∧ c.grp.handlers.length ≤ c.level ∧
    okThen (lanePath (fetched lost) c .read 0 (addOffset (c.grp.pairVal (c.grp.lane 0) (.v 0)) ((0#8).toInt * 4)) 4) (fun _ ps _ =>
      ps == farPlaces && remoteState c.grp.remote .read 0 ps == .ready && remoteLost c.grp.remote .read 0 ps == !lost.isEmpty)) := by
  rcases h with rfl | rfl <;> exact exists_exec (by decide +kernel)

set_option maxRecDepth 100000 in
/-- The word then ends in a POISON trap (R346), and with no byte poisoned gives what came. -/
theorem test_remote_load : grpOf (exec (.ldW false (.v 4) (.v 0) 0) (fetched [3])) (·.stopped) = some true ∧
    vOf (exec (.ldW false (.v 4) (.v 0) 0) (fetched [])) 0 4 = some 0x04030201 := by decide +kernel

set_option maxRecDepth 100000 in
/-- Stores likewise; the word goes on. -/
theorem witness_stores (a : Nat) (ha : a = windowBase ∨ a = 0x400100) : ∀ p ∈ [(Instr.stB false (.v 4) (.v 0) 0x00, 1),
    (.stH false (.v 4) (.v 0) 0x00, 2), (.stW false (.v 4) (.v 0) 0x00, 4), (.stD false (.v 4) (.v 0) 0x00, 8),
    (.stO false (.v 4) (.v 0) 0x00, 16)], ∃ c t ps, Executes (vaddr a solo) c p.1 ∧ c.storers = [0] ∧
      Reaches c .write p.2 (fun l => addOffset (c.grp.pairVal (c.grp.lane l) (.v 0)) ((0x00#8).toInt * p.2)) (fun _ => ps)
        c.storers (vaddr a solo) t ∧ ∀ l ∈ c.storers, c.Here .write l ps := by
  rcases ha with rfl | rfl <;>
    exact reach_all (k := .write) (s := vaddr _ solo)
      (a := fun n c l => addOffset (c.grp.pairVal (c.grp.lane l) (.v 0)) ((0x00#8).toInt * n)) (ls := Ctx.storers) (by decide +kernel)

set_option maxRecDepth 100000 in
theorem witness_fences : ∀ i ∈ [Instr.fence false 0 0, .fence true 2 4, .prf false 0 (.v 0), .prf false 1 (.s 0)],
    ∃ c, Executes base c i := all_execute (by decide +kernel)

/-- With a store in group 0's FIFO, to memory and the scratchpad, and an older one in the team's buffer. -/
def storing : State :=
  (inGroup (fun G => { G with fifo := [⟨[(.phys 0x100, 1), (.scratch 5, 2)]⟩] }) base).modTeam 2 fun T =>
    { T with buffer := [⟨1, [(.phys 0x102, 3)]⟩] }

set_option maxRecDepth 100000 in
/-- Stores that can be performed: one that waits for its team, and one that waits for memory. -/
theorem witness_waiting_stores : ∃ T G, Tab.get? storing.teams 2 = some T ∧ Tab.get? T.groups 0 = some G ∧
    (G.fifo = [⟨[(.phys 0x100, 1), (.scratch 5, 2)]⟩] ∧ T.buffer = [⟨1, [(.phys 0x102, 3)]⟩] ∧ Store.wf T.scratch = true ∧
      Memory.wf storing.mem = true ∧ storing.poisoned 0x100 = false ∧ remotePa 0x100 = false ∧ remotePa 0x102 = false ∧
      ([(Place.phys 0x100, (1 : Byte)), (.scratch 5, 2)].map (·.1)).Nodup ∧ 0x100 / 32 = 8 ∧ 0x102 / 32 = 8) :=
  exists_group (by decide +kernel)

set_option maxRecDepth 100000 in
/-- LDT of both kinds, with its lines ending exactly at the limit. -/
theorem witness_matrix_loads : ∀ i ∈ [Instr.ldt false (.v 8) (.s 0) 0 2 31, .ldt false (.v 8) (.s 0) 1 0 0],
    ∃ c, Executes (saddr windowBase base) c i ∧ windowBase ≤ c.grp.sPair 0 ∧ c.grp.sPair 0 % 16 = 0 ∧
      c.grp.sPair 0 + (15 * 512 + 64) ≤ windowBase + c.team.limit ∧
      lockHit ((saddr windowBase base).locksOf c.team.pcore) c.t c.space (c.grp.sPair 0) (15 * 512 + 64) .load = none := by
  have h : [Instr.ldt false (.v 8) (.s 0) 0 2 31, .ldt false (.v 8) (.s 0) 1 0 0].all (fun i => can (saddr windowBase base) i
    fun c => decide (windowBase ≤ c.grp.sPair 0 ∧ c.grp.sPair 0 % 16 = 0 ∧ c.grp.sPair 0 + (15 * 512 + 64) ≤ windowBase + c.team.limit ∧
      lockHit ((saddr windowBase base).locksOf c.team.pcore) c.t c.space (c.grp.sPair 0) (15 * 512 + 64) .load = none)) = true := by
    decide +kernel
  exact fun i hi => exists_exec (List.all_eq_true.1 h i hi)

set_option maxRecDepth 100000 in
/-- ATOM.d.ar at die scope by lane 0 alone, at an aligned address of memory. -/
theorem witness_atomics_global : ∃ (c : Ctx) (s1 : State) (ps : List Place),
    Executes (vaddr 0x400100 solo) c (.atomD false (.v 4) 0 0 0 3 2) ∧ c.lanes = [0] ∧ (c.grp.lane 0).helper = false ∧
    inWindow (c.grp.pairVal (c.grp.lane 0) (Opd.ofCode (2 * (0 : BitVec 7).toNat))) = false ∧ 2 ≤ (2#3).toNat ∧
    (3#2).getLsbD 0 = true ∧ (3#2).getLsbD 1 = true ∧
    lanePath ((vaddr 0x400100 solo).drainGroup c.t c.g) c .atomic 0 (c.grp.pairVal (c.grp.lane 0) (Opd.ofCode (2 * (0 : BitVec 7).toNat)))
      8 = .ok s1 ps false ∧ c.Here .atomic 0 ps := by
  have h : can (vaddr 0x400100 solo) (.atomD false (.v 4) 0 0 0 3 2) (fun c => decide (c.lanes = [0] ∧ (c.grp.lane 0).helper = false ∧
      inWindow (c.grp.pairVal (c.grp.lane 0) (Opd.ofCode (2 * (0 : BitVec 7).toNat))) = false ∧
      okThen (lanePath ((vaddr 0x400100 solo).drainGroup c.t c.g) c .atomic 0
        (c.grp.pairVal (c.grp.lane 0) (Opd.ofCode (2 * (0 : BitVec 7).toNat))) 8) (fun _ ps io => !io && here c .atomic 0 ps))) = true := by
    decide +kernel
  obtain ⟨c, he, h0, h1, h2, h3⟩ := exists_exec h
  obtain ⟨s1, ps, io, ha, hr⟩ := ok_then h3
  simp only [Bool.and_eq_true, Bool.not_eq_true'] at hr
  obtain ⟨rfl, hr⟩ := hr
  exact ⟨c, s1, ps, he, h0, h1, h2, by decide, by decide, by decide, ha, here_of hr⟩

/-- A team's buffer with stores of group 0 before and after one of group 1 to the first one's sector. -/
def sharing : State := base.modTeam 2 fun T =>
  { T with buffer := [⟨0, [(.phys 0x400100, 1)]⟩, ⟨1, [(.phys 0x400108, 2)]⟩, ⟨0, [(.phys 0x400200, 3)]⟩] }

set_option maxRecDepth 100000 in
/-- An acquiring fence of group 0 performs group 1's store, with the older one of its sector, and leaves the last (R99). -/
theorem test_acquiring_fence : (∃ T, Tab.get? sharing.teams 2 = some T ∧
      (T.buffer.all (fun e => e.bytes.all (fun b => b.1.sector == (e.bytes.headD (.scratch 0, 0)).1.sector)) = true)) ∧
    (match exec (.fence true 0 2) sharing with
      | .next t => ((Tab.get? t.teams 2).map (·.buffer), t.byte 0x400100, t.byte 0x400108, t.byte 0x400200)
      | _ => (none, 0, 0, 0)) = (some [⟨0, [(.phys 0x400200, 3)]⟩], 1, 2, 0) :=
  ⟨exists_some (by decide +kernel), by decide +kernel⟩

set_option maxRecDepth 100000 in
/-- ATOM of each width by lane 0 alone, adding, at an aligned address of the scratchpad. -/
theorem witness_atomics (wide : Bool) : ∃ (c : Ctx) (s1 : State) (ps : List Place),
    Executes (vaddr windowBase solo) c (if wide then .atomD false (.v 4) 0 0 0 0 0 else .atomW false (.v 4) 0 0 0 0 0) ∧
    c.lanes = [0] ∧ (c.grp.lane 0).helper = false ∧ c.grp.pairVal (c.grp.lane 0) (Opd.ofCode (2 * (0 : BitVec 7).toNat)) % 8 = 0 ∧
    lanePath ((vaddr windowBase solo).drainFifo c.t c.g) c .atomic 0 (c.grp.pairVal (c.grp.lane 0) (Opd.ofCode (2 * (0 : BitVec 7).toNat)))
      (if wide then 8 else 4) = .ok s1 ps false ∧ c.Here .atomic 0 ps := by
  have h : can (vaddr windowBase solo) (if wide then .atomD false (.v 4) 0 0 0 0 0 else .atomW false (.v 4) 0 0 0 0 0)
      (fun c => decide (c.lanes = [0] ∧ (c.grp.lane 0).helper = false ∧
        c.grp.pairVal (c.grp.lane 0) (Opd.ofCode (2 * (0 : BitVec 7).toNat)) % 8 = 0 ∧
        okThen (lanePath ((vaddr windowBase solo).drainFifo c.t c.g) c .atomic 0
          (c.grp.pairVal (c.grp.lane 0) (Opd.ofCode (2 * (0 : BitVec 7).toNat))) (if wide then 8 else 4))
          (fun _ ps io => !io && here c .atomic 0 ps))) = true := by
    cases wide <;> decide +kernel
  obtain ⟨c, he, h0, h1, h2, h3⟩ := exists_exec h
  obtain ⟨s1, ps, io, ha, hr⟩ := ok_then h3
  simp only [Bool.and_eq_true, Bool.not_eq_true'] at hr
  obtain ⟨rfl, hr⟩ := hr
  exact ⟨c, s1, ps, he, h0, h1, h2, ha, here_of hr⟩

/-- A texture's descriptor: 64 by 64 elements of a byte in tiles of 4 KiB, two levels, its map at 0x402000. -/
def texture (at_ : Nat) : LodDesc :=
  { base := at_, map := 0x402000, width := 64, height := 64, levels := 2, esize := 0, tlog := 6, ring := 0, resid := 0,
    zero := true }

/-- A machine with such a descriptor at 0x401000, whose address is in s0:s1, and only lane 0 live. -/
def textured (at_ : Nat) : State :=
  saddr 0x401000 (solo.writePhys 0x401000 (toBytes 64 (at_ + 0x402000 * 2 ^ 64 + 63 * 2 ^ 128 + 63 * 2 ^ 144 + 2 ^ 160 + 6 * 2 ^ 168)))

/-- Whether the probes of a lane come to an end, from a level on, with so many more levels to go. -/
def probed (element : State → Nat → Got) (levels : Nat) : Nat → State → Nat → Bool
  | 0, _, level => level == levels
  | more + 1, s, level => decide (level < levels) &&
    match element s level with
    | .val _ _ => true
    | .stop (.park u _ _ _) => probed element levels more u (level + 1)
    | .stop _ => false

theorem probes_of {element : State → Nat → Got} {levels : Nat} : ∀ (more : Nat) (s : State) (level code : Nat),
    probed element levels more s level = true → ∃ u v at_ last, Probes element levels s level code u v at_ last := by
  intro more
  induction more with
  | zero => intro s level code h; simp [probed] at h; subst h; exact ⟨s, 0, 15, 3, .none⟩
  | succ n ih =>
    intro s level code h
    simp only [probed, Bool.and_eq_true, decide_eq_true_eq] at h
    obtain ⟨hl, h⟩ := h
    split at h
    · rename_i u bs he; exact ⟨u, _, level, code, .hit hl he⟩
    · rename_i u va k f he
      obtain ⟨w, v, a, b, hp⟩ := ih u (level + 1) 2 h
      exact ⟨w, v, a, b, .coarser hl he hp⟩
    · exact absurd h (by simp)

/-- An element of a texture that lane 0 reads with its registers zero. -/
def texel (at_ : Nat) (c : Ctx) (s : State) (level : Nat) : Got :=
  readLane s s c 0 ((texture at_).texAddr level (0 / 2 ^ level) (0 / 2 ^ level)) (2 ^ (texture at_).esize)

set_option maxRecDepth 100000 in
/-- LDL with a valid descriptor by lane 0 alone: the probes end at its finest level, at the next coarser one, or past the
last one; and one with a descriptor that is not valid. -/
theorem witness_lod_load (at_ more : Nat) (h : (at_, more) ∈ [(0x404000, 1), (0x3FF000, 2), (0x3FE000, 2)]) :
    ∃ (c : Ctx) (s1 : State) (bs : List Byte), Executes (textured at_) c (.ldl false (.v 4) (.v 0) (.s 0)) ∧
    c.lanes = [0] ∧ readOnce (textured at_) (textured at_) c (c.lanes.headD 0) (c.grp.sPair 0) 64 = .val s1 bs ∧
    LodDesc.ofNat (leValue bs) = texture at_ ∧ (texture at_).valid (c.grp.sPair 0) = true ∧
    4 + (texture at_).dataRegs < c.team.regs ∧ min (c.grp.blockVal (c.grp.lane 0) (.v 0) 2).toNat 1 = 0 ∧
    ∃ sm mb u v level code, readOnce (textured at_) s1 c 0 (((texture at_).map + (texture at_).tileOf 0 0 0) % 2 ^ 64) 1 = .val sm mb ∧
      Probes (texel at_ c) (texture at_).levels sm (max 0 (min (leValue mb) 1)) 0 u v level code := by
  have h : can (textured at_) (.ldl false (.v 4) (.v 0) (.s 0)) (fun c => decide (c.lanes = [0] ∧
      (texture at_).valid (c.grp.sPair 0) = true ∧ 4 + (texture at_).dataRegs < c.team.regs ∧
      min (c.grp.blockVal (c.grp.lane 0) (.v 0) 2).toNat 1 = 0 ∧
      valThen (readOnce (textured at_) (textured at_) c (c.lanes.headD 0) (c.grp.sPair 0) 64) (fun s1 bs =>
        LodDesc.ofNat (leValue bs) == texture at_ &&
        valThen (readOnce (textured at_) s1 c 0 (((texture at_).map + (texture at_).tileOf 0 0 0) % 2 ^ 64) 1) (fun sm mb =>
          probed (texel at_ c) (texture at_).levels more sm (max 0 (min (leValue mb) 1)))))) = true := by
    simp only [List.mem_cons, Prod.mk.injEq, List.not_mem_nil, or_false] at h
    rcases h with ⟨rfl, rfl⟩ | ⟨rfl, rfl⟩ | ⟨rfl, rfl⟩ <;> decide +kernel
  obtain ⟨c, he, h0, h1, h2, hm, h3⟩ := exists_exec h
  obtain ⟨s1, bs, hv, hd⟩ := val_then h3
  simp only [Bool.and_eq_true, beq_iff_eq] at hd
  obtain ⟨hd, hl⟩ := hd
  obtain ⟨sm, mb, hr, hp⟩ := val_then hl
  obtain ⟨u, v, level, code, hp⟩ := probes_of _ _ _ 0 hp
  exact ⟨c, s1, bs, he, h0, hv, hd, h1, h2, hm, sm, mb, u, v, level, code, hr, hp⟩

set_option maxRecDepth 100000 in
theorem witness_lod_invalid : ∃ c, Executes (textured 0x404001) c (.ldl false (.v 4) (.v 0) (.s 0)) ∧
    (valThen (readOnce (textured 0x404001) (textured 0x404001) c (c.lanes.headD 0) (c.grp.sPair 0) 64) (fun _ bs =>
      !(LodDesc.ofNat (leValue bs)).valid (c.grp.sPair 0)) = true ∧ c.grp.handlers.length ≤ c.level) :=
  exists_exec (by decide +kernel)

set_option maxRecDepth 100000 in
/-- Guestbook ring 0 as it resets, and enabled; a key that the core's filter holds, and one that it does not. -/
theorem witness_guestbook : ∃ k P r, Tab.get? base.cores 0 = some k ∧ Tab.get? base.parts 0 = some P ∧
    Tab.get? P.rings 0 = some r ∧ r.en = false ∧ ⟨0, 1, 2, 3⟩ ∉ k.filter ∧
    ⟨0, 1, 2, 3⟩ ∈ ({ k with filter := [⟨0, 1, 2, 3⟩] } : Core).filter ∧
    (let r' : GbRing := { r with en := true }
     ¬(r'.en = false ∨ 2 ^ r'.cap.toNat ≤ (r'.produce - r'.consume).toNat + r'.waiting.length)) := by
  have hk : has (Tab.get? base.cores 0) (fun k => decide (k.filter = [])) = true := by decide +kernel
  have hp : has (Tab.get? base.parts 0) (fun P => has (Tab.get? P.rings 0) (fun r => decide (r.en = false ∧ r.cap = 0 ∧
    r.produce = 0 ∧ r.consume = 0 ∧ r.waiting = []))) = true := by decide +kernel
  obtain ⟨k, hk, hf⟩ := exists_some hk
  obtain ⟨P, hP, hr⟩ := exists_some (P := fun P : Part => has (Tab.get? P.rings 0) (fun r => decide (r.en = false ∧ r.cap = 0 ∧
    r.produce = 0 ∧ r.consume = 0 ∧ r.waiting = [])) = true) (by simpa using hp)
  obtain ⟨r, hr, he, h1, h2, h3, h4⟩ := exists_some hr
  exact ⟨k, P, r, hk, hP, hr, he, by simp [hf], by simp, by simp [h1, h2, h3, h4]⟩

/-- With ring 0 of the tenant's partition as given. -/
def withRing (r : GbRing) : State := base.modPart 0 fun P => { P with rings := Tab.put P.rings 0 r }

/-- An entry of a ring whose STAMP is 5. -/
def guest : BitVec 128 := 5 + 3 * 2 ^ 64

/-- A ring with two entries that wait, one of them for %time to pass. -/
def guests : GbRing := { base := 0x400000, cap := 6, en := true, ovf := false, produce := 63, consume := 0, ovfCount := 0,
                         waiting := [guest, guest + 1] }

set_option maxRecDepth 100000 in
/-- A ring of which one entry can be placed, at the last slot, and whose next STAMP is not passed; and one moment later all
of them are past. -/
theorem witness_guests_wait : (∃ P, Tab.get? { withRing guests with time := 6 }.parts 0 = some P ∧
      (Tab.get? P.rings 0 = some guests ∧ Memory.wf (withRing guests).mem = true ∧
        (guests.waiting.takeWhile (fun e => decide ((e.extractLsb' 0 64).toNat < 6 % 2 ^ 64))).length = 1 ∧ 1 ≤ 2 ^ guests.cap.toNat ∧
        P.rings.all (fun r => r.2.waiting.all (fun e => decide ((e.extractLsb' 0 64).toNat ≤ 6))) = true)) ∧ 6 + 1 < 2 ^ 64 :=
  ⟨exists_some (by decide +kernel), by decide⟩

set_option maxRecDepth 100000 in
/-- The entry is placed and counted. -/
theorem test_guest_placed : (let t := { withRing guests with time := 6 }.settleGuests
    (t.byte (0x400000 + 16 * 63), t.byte (0x400000 + 16 * 63 + 8), (Tab.get? t.parts 0).bind (fun P => (Tab.get? P.rings 0).map (fun r =>
      (r.produce, r.waiting))))) = (5, 3, some (64, [guest + 1])) := by decide +kernel
/-! ## Uniform words, transfers, masks and barriers -/

/-- With an open handler instance that lane 0 entered. -/
def handling : State := inGroup (fun G => { G.mapLanes [0] (fun _ L => { L with level := 1, frag := ⟨1, []⟩ }) with
  handlers := [⟨1, BitVec.ofNat 64 (windowBase + 523264), List.replicate 32 ⟨0, []⟩, [], [], []⟩], trapLevel := 1, nextBase := 2 }) base

/-- With a %handler, s58:s59 and handler instances as given. -/
def trapping (handler ptr : Nat) (hs : List Handler) : State :=
  inGroup (fun G => { G.setSPair 58 ptr with
      handlers := hs, trapLevel := BitVec.ofNat 2 hs.length, handler := BitVec.ofNat 64 handler })
    (base.modTeam 2 fun T => { T with handler := BitVec.ofNat 64 handler })

set_option maxRecDepth 100000 in
/-- Every uniform register word can execute. -/
theorem witness_uniform_words : ∀ i ∈ [Instr.umov false (.s 3) (.s 1), .umovi false (.q 3) 0x8000, .umovhi false (.s 3) 1,
    .uadd false (.s 3) (.s 1) (.s 2), .usub false (.s 3) (.s 1) (.s 2), .umul false (.s 3) (.s 1) (.s 2),
    .uand false (.s 3) (.s 1) (.s 2), .uor false (.s 3) (.s 1) (.s 2), .uxor false (.s 3) (.s 1) (.s 2),
    .ushl false (.s 3) (.s 1) (.s 2), .ushr false (.s 3) (.s 1) (.s 2), .usar false (.s 3) (.s 1) (.s 2),
    .uminI32 false (.s 3) (.s 1) (.s 2), .uminN32 false (.s 3) (.s 1) (.s 2), .umaxI32 false (.s 3) (.s 1) (.s 2),
    .umaxN32 false (.s 3) (.s 1) (.s 2), .ucmpEq false (.s 3) (.s 1) (.s 2), .ucmpNe false (.s 3) (.s 1) (.s 2),
    .ucmpLtI32 false (.s 3) (.s 1) (.s 2), .ucmpLeI32 false (.s 3) (.s 1) (.s 2), .ucmpLtN32 false (.s 3) (.s 1) (.s 2),
    .ucmpLeN32 false (.s 3) (.s 1) (.s 2), .usel false (.s 3) (.s 1) (.s 2), .ureadlane false (.s 3) (.v 191) (.s 2),
    .ufirst false (.q 3), .nop true, .yield false], ∃ c, Executes base c i := all_execute (by decide +kernel)

set_option maxRecDepth 100000 in
/-- Uniform words go on, for their frames. -/
theorem witness_uniform_frame : ∀ i ∈ [Instr.nop false, .umov false (.s 59) (.s 0), .ureadlane false (.s 3) (.v 191) (.s 2)],
    (∃ c, Executes base c i) ∧ ∃ t, exec i base = .next t := by
  have h : [Instr.nop false, .umov false (.s 59) (.s 0), .ureadlane false (.s 3) (.v 191) (.s 2)].all
      (fun i => can base i (fun _ => true) && goes (exec i base)) = true := by decide +kernel
  intro i hi
  have h := List.all_eq_true.1 h i hi
  simp only [Bool.and_eq_true] at h
  obtain ⟨c, hc, _⟩ := executes_of h.1
  exact ⟨⟨c, hc⟩, next_of h.2⟩

set_option maxRecDepth 100000 in
/-- Loads and stores go on, for their frames. -/
theorem witness_memory_frame : (∃ t, exec (.ldW false (.v 4) (.v 0) 0) (vaddr windowBase solo) = .next t) ∧
    ∃ t, exec (.stO false (.v 4) (.v 0) 0) (vaddr windowBase solo) = .next t :=
  ⟨next_of (by decide +kernel), next_of (by decide +kernel)⟩

set_option maxRecDepth 100000 in
/-- ULD and UST of both widths whose access passes; and by helper lanes alone. -/
theorem witness_uniform_accesses : (∀ i ∈ [Instr.uldW false (.s 4) (.s 0) 0, .uldD false (.s 4) (.s 0) 0, .ustW false (.s 4) (.s 0) 0,
      .ustD false (.s 4) (.s 0) 0], ∃ c, Executes (saddr windowBase base) c i) ∧
    (∃ c, (saddr windowBase base).issuer = some c ∧ okThen (lanePath (saddr windowBase base) c .read (c.lanes.headD 0) (c.grp.sPair 0) 8)
      (fun _ ps _ => here c .read (c.lanes.headD 0) ps)) ∧
    (∃ c, (saddr windowBase base).issuer = some c ∧ (∃ m ∈ c.lanes, (c.grp.lane m).helper = false) ∧
      okThen (lanePath (saddr windowBase base) c .write (c.lanes.headD 0) (c.grp.sPair 0) 8)
        (fun _ ps _ => here c .write (c.lanes.headD 0) ps)) ∧
    (∃ c, Executes (inGroup (fun G => G.mapLanes (List.range 32) (fun _ L => { L with helper := true })) base) c
      (.ustW false (.s 4) (.s 0) 0) ∧ ∀ m ∈ c.lanes, (c.grp.lane m).helper = true) :=
  ⟨all_execute (by decide +kernel), exists_ctx (by decide +kernel), exists_ctx (by decide +kernel),
    exists_exec (by decide +kernel)⟩

set_option maxRecDepth 100000 in
/-- Transfers to code addresses and to addresses that are none: the window's first word, an address not a multiple of 4. -/
theorem witness_transfers : (∀ i ∈ [Instr.ujmp 0, .uret (.s 2), .ujr (.s 2), .ucall (.s 4) 0x7FFF, .ubrZ (.s 0) 0x8000,
      .ubrNz (.s 0) 1], ∃ c, Executes (saddr windowBase base) c i) ∧
    (∃ c, Executes base c (.ujmp 0) ∧ c.pc % 4 = 0 ∧ canonical c.pc = true ∧ c.pc < windowBase) ∧
    (∃ c, Executes (saddr windowBase base) c (.ujr (.s 0)) ∧ ¬c.grp.sPair 0 < windowBase) ∧
    (∃ c, Executes (saddr 0x400002 base) c (.uret (.s 0)) ∧ c.grp.sPair 0 % 4 ≠ 0) ∧
    (∃ c, Executes (sset 2 1 base) c (.ubrZ (.s 2) 0) ∧ c.grp.uniVal (.s 2) ≠ 0 ∧ c.grp.uniVal (.s 3) = 0) :=
  ⟨all_execute (by decide +kernel), exists_exec (by decide +kernel), exists_exec (by decide +kernel),
    exists_exec (by decide +kernel), exists_exec (by decide +kernel)⟩

set_option maxRecDepth 100000 in
/-- A lane branch that splits, one that all lanes take, and one that no lane takes. -/
theorem witness_branches : (∃ c, Executes (vset 0 (fun l => BitVec.ofNat 32 (l % 2)) base) c (.brz 0 (.v 0) 1) ∧
      c.laneValue (.v 0) 0 = 0 ∧ c.laneValue (.v 0) 1 ≠ 0 ∧ canonical (addOffset c.pc 4) = true ∧ addOffset c.pc 4 < windowBase) ∧
    (∃ c, Executes base c (.brz 1 (.v 0) 0x3FFF) ∧ ∀ l ∈ c.lanes, c.laneValue (.v 0) l = 0) ∧
    (∃ c, Executes base c (.brnz 2 (.v 0) 1) ∧ ∀ l ∈ c.lanes, ¬(c.laneValue (.v 0) l == 0) = false) :=
  ⟨exists_exec (by decide +kernel), exists_exec (by decide +kernel), exists_exec (by decide +kernel)⟩

/-- With every lane of group 0 at the last word below the window (R160). -/
def atEdge (s : State) : State := inGroup (fun G => G.mapLanes (List.range 32) (fun _ L => { L with pc := BitVec.ofNat 64 (windowBase - 4) })) s

set_option maxRecDepth 100000 in
/-- A lane branch whose target is the window's first word, by a group outside its handler and by a fragment that a handler keeps out. -/
theorem witness_branch_to_no_code : (∃ c, Executes (atEdge (vset 0 (fun l => BitVec.ofNat 32 (l % 2)) base)) c (.brz 0 (.v 0) 1) ∧
      (c.lanes.filter (fun l => (c.laneValue (.v 0) l == 0) == true) ≠ [] ∧ ¬addOffset c.pc 4 < windowBase ∧
        c.grp.handlers.length ≤ c.level)) ∧
    (∃ c, Executes (atEdge (handling.setCur (some (2, 0, 1)))) c (.brz 0 (.v 0) 1) ∧
      (c.lanes.filter (fun l => (c.laneValue (.v 0) l == 0) == true) ≠ [] ∧ ¬addOffset c.pc 4 < windowBase ∧
        c.level < c.grp.handlers.length)) :=
  ⟨exists_exec (by decide +kernel), exists_exec (by decide +kernel)⟩

set_option maxRecDepth 100000 in
/-- The lanes that would take it trap, the others go on and latch nothing (R160). -/
theorem test_branch_to_no_code : grpOf (exec (.brz 0 (.v 0) 1) (atEdge (vset 0 (fun l => BitVec.ofNat 32 (l % 2))
    (trapping 0x400000 (windowBase + 1024) [])))) (fun G => [0, 1].map (fun l => ((G.lane l).level, (G.lane l).pc))) =
    some [(1, 0x400000), (0, BitVec.ofNat 64 windowBase)] := by decide +kernel

/-- With group 1 on group 0's quarter. -/
def mates : State := base.modGroup 2 1 fun G => { G with quarter := 0 }

set_option maxRecDepth 100000 in
/-- After a YIELD of group 0 another group of its quarter is ready and has begun no run; once it has, group 0 may go on. -/
theorem witness_yield : ((2, 1) : Nat × Nat) ≠ (2, 0) ∧ (mates.groupAt 2 1).isSome = true ∧ mates.quarterMates 2 0 = [(2, 1)] ∧
    (mates.yielded 2 0).sched.yieldOver 2 0 (mates.quarterMates 2 0) = false ∧
    (mates.yielded 2 0).groupTurn 2 0 = false ∧ ((mates.yielded 2 0).countRun 2 1 0).groupTurn 2 0 = true := by decide +kernel

set_option maxRecDepth 100000 in
/-- Two sides of one fragment of a group. -/
theorem witness_split_sides : (∀ l ∈ [0, 31] ++ [1, 30], l ∈ group.lanes.map (·.1) ∧ (group.lane l).frag = (group.lane 0).frag) ∧
    ∀ l ∈ [0, 31], l ∉ [1, 30] := by decide +kernel

set_option maxRecDepth 100000 in
/-- EXIT by lanes that report nothing, and by lanes of which one has a flag to report; each ends. -/
theorem witness_exit : (∃ c t, Executes solo c (.exit true) ∧ c.lanes = [0] ∧ Chain (fun s l u => exitLane c s l = .done u) c.lanes solo t) ∧
    (∃ c, Executes (inGroup (fun G => { G.mapLanes [0] (fun _ L => { L with status := 1 }) with handler := 0x400000 })
      (base.modTeam 2 fun T => { T with handler := 0x400000 })) c (.exit true) ∧ c.grp.handlers = [] ∧
      (c.grp.lane 0).status &&& 7#6 &&& ~~~ (c.grp.lane 0).rpt ≠ 0) := by
  refine ⟨?_, exists_exec (by decide +kernel)⟩
  have h : can solo (.exit true) (fun c => decide (c.lanes = [0] ∧
      (match exitLane c solo 0 with | .done _ => true | _ => false) = true)) = true := by decide +kernel
  obtain ⟨c, he, h0, h1⟩ := exists_exec h
  split at h1
  · rename_i t ht
    exact ⟨c, t, he, h0, by rw [h0]; exact chain_one ht⟩
  · exact absurd h1 (by simp)

set_option maxRecDepth 100000 in
/-- A group as the mask lemmas ask for, and lanes at both ends; masks 0 and 11. -/
theorem witness_masks : group.Whole ∧ Store.wf group.k = true ∧ (0 : BitVec 8).toNat < 12 ∧ (11 : BitVec 8).toNat < 12 ∧
    ∀ l ∈ [0, 31], l < 32 := by
  refine ⟨?_, ?_⟩
  · show group.lanes.map (·.1) = List.range 32
    decide +kernel
  · decide +kernel

set_option maxRecDepth 100000 in
theorem witness_mask_words : ∀ i ∈ [Instr.join false 0, .join true 11, .leave false 11, .kset false 0 (.v 0), .kset false 11 (.s 0),
    .kread false (.q 3) 11], ∃ c, Executes base c i := all_execute (by decide +kernel)

set_option maxRecDepth 100000 in
/-- KSET of an invalid latch issues, and its registers are in range. -/
theorem witness_kset_lost : ∃ c, Issues base c (.kset false 1 (.q 0)) ∧ c.stepOne (.kset false 1 (.q 0)) = true ∧
    (Instr.kset false 1 (.q 0)).regRange c.team.regs c.team.ztiles = none ∧
    (c.grp.lane (c.lanes.headD 0)).q.lost (Instr.kset false 1 (.q 0)).latches = some 0 := exists_issue (by decide +kernel)

set_option maxRecDepth 100000 in
theorem witness_holding_words : ∀ i ∈ [Instr.wait 0, .wait 11, .bar, .barn 0 1, .barn 15 32], ∃ c, Executes base c i :=
  all_execute (by decide +kernel)

/-- A group of which lane 0 is a member of k0 and is held at a WAIT on it. -/
def waiting : Group := { group.mapLanes [0] (fun _ L => { L with hold := .wait 0, meet := 1 }) with k := [(0, 1)] }

set_option maxRecDepth 100000 in
/-- A WAIT that can be released, and one that waits for a member. -/
theorem witness_waits : (waiting.Whole ∧ Store.wf waiting.k = true ∧ ∀ l, (waiting.lane l).frag.base < waiting.nextBase) ∧
    waiting.waitReady 0 = true ∧ ({ waiting with k := [(0, 3)] } : Group).waitReady 0 = false :=
  ⟨⟨by show waiting.lanes.map (·.1) = List.range 32; decide +kernel, by decide +kernel,
    names_of (by decide +kernel) (by decide +kernel)⟩, by decide +kernel, by decide +kernel⟩

/-- As `base`, the groups of the team that a condition names held at a barrier that counts them, and those that another
names ended. -/
def met (b count : Nat) (there ended : Nat → Bool) : State := base.modTeam 2 fun T => { (T.putBarrier b
    ⟨0, BitVec.ofNat 6 count, laneMask ((List.range 4).filter there)⟩) with
  groups := T.groups.map fun e => (e.1, if there e.1 then e.2.mapLanes (List.range 32) (fun _ L => { L with hold := .barrier b count })
    else if ended e.1 then { e.2.mapLanes (List.range 32) (fun _ L => { L with live := false }) with ended := true } else e.2) }

/-- Outside a handler, and in one that lane 0 alone has entered. -/
def rejoining (s : State) : State := s |> inGroup fun G => { G.mapLanes [1] (fun _ L => { L with live := true, hold := .wait 0, meet := 1 }) with
  k := [(0, 3)] }

set_option maxRecDepth 100000 in
/-- A WAIT that is the last arrival: with a member held, with no member, and by a handler's lane. -/
theorem witness_last_wait (s : State) (hs : s = solo ∨ s = rejoining solo ∨ s = handling.setCur (some (2, 0, 0))) :
    ∃ c, Executes s c (.wait 0) ∧ c.lanes ≠ [] ∧ c.grp.ended = false ∧ c.level = c.grp.handlers.length ∧
      (∀ h, c.grp.handlers.getLast? = some h → ∃ l ∈ c.lanes, h.enter.getLsbD l = true) ∧
      (∀ G ∈ c.team.groups, ∀ L ∈ G.2.lanes, L.2.atBarrier = false) ∧ (∀ b, (c.team.barrier b).arrived = 0) ∧
      ∀ l, l < 32 ∧ (c.grp.lane l).live = true → (Store.get c.grp.k (0 : BitVec 8).toNat).getLsbD l = true →
        c.level ≤ (c.grp.lane l).level → l ∈ c.lanes ∨ (c.grp.lane l).hold = .wait (0 : BitVec 8).toNat ∧ (c.grp.lane l).level = c.level := by
  have h : can s (.wait 0) (fun c => decide (c.lanes ≠ [] ∧ c.grp.ended = false ∧ c.level = c.grp.handlers.length) &&
      has c.grp.handlers.getLast? (fun h => c.lanes.any (fun l => h.enter.getLsbD l)) == !c.grp.handlers.isEmpty &&
      decide ((∀ G ∈ c.team.groups, ∀ L ∈ G.2.lanes, L.2.atBarrier = false) ∧ ∀ e ∈ c.team.barriers, e.2.arrived = 0) &&
      (List.range 32).all (fun l => let L := c.grp.lane l
        !(L.live && (Store.get c.grp.k (0 : BitVec 8).toNat).getLsbD l && decide (c.level ≤ L.level)) ||
          (decide (l ∈ c.lanes) || decide (L.hold = .wait (0 : BitVec 8).toNat) && decide (L.level = c.level)))) = true := by
    rcases hs with rfl | rfl | rfl <;> decide +kernel
  obtain ⟨c, he, h⟩ := executes_of h
  simp only [Bool.and_eq_true, Bool.or_eq_true, Bool.not_eq_true', decide_eq_true_eq, beq_iff_eq, List.all_eq_true, List.mem_range] at h
  obtain ⟨⟨⟨where_, entered⟩, quiet, none⟩, members⟩ := h
  refine ⟨c, he, where_.1, where_.2.1, where_.2.2, ?_, quiet, barrier_all (P := fun r => r.arrived = 0) none rfl, fun l hl hk hv =>
    (members l hl.1).resolve_left (by simp only [hl.2, hk, hv, decide_true, Bool.and_true]; decide)⟩
  intro x hx
  rw [hx] at entered
  cases hh : c.grp.handlers with
  | nil => rw [hh] at hx; exact absurd hx (by simp)
  | cons a as => simpa [has, hh] using entered

/-- The last arrivals at a barrier: the state, the word, the barrier and its count. -/
def lastArrivals : List (State × Instr × Nat × Nat) :=
  [(met 16 0 (fun g => g != 0) (fun _ => false), .bar, 16, 0), (met 16 0 (fun _ => false) (fun g => g != 0), .bar, 16, 0),
   (met 15 4 (fun g => g != 0) (fun _ => false), .barn 15 4, 15, 4), (base, .barn 0 1, 0, 1)]

set_option maxRecDepth 100000 in
/-- A BAR that is the last arrival, the other groups held there or ended; a BARN, the other groups counted or none wanted. -/
theorem witness_last_barrier : ∀ x ∈ lastArrivals, ∃ c, Executes x.1 c x.2.1 ∧
    (x.2.1 = .bar ∧ x.2.2.1 = 16 ∧ x.2.2.2 = 0 ∨ ∃ B N, x.2.1 = .barn B N ∧ B.toNat = x.2.2.1 ∧ N.toNat = x.2.2.2) ∧
    c.lanes ≠ [] ∧ c.grp.ended = false ∧ c.g < 32 ∧ c.grp.handlers = [] ∧
    (∀ l, l < 32 ∧ (c.grp.lane l).live = true →
      (l ∈ c.lanes ∨ (c.grp.lane l).hold = .barrier x.2.2.1 x.2.2.2 ∧ (c.grp.lane l).pc.toNat = c.pc) ∧
      (c.grp.lane l).status &&& 0b000111#6 &&& ~~~ (c.grp.lane l).rpt = 0) ∧
    (∀ b, (c.team.barrier b).arrived.getLsbD c.g = false) ∧
    (∀ g G l m, g ≠ c.g → Tab.get? c.team.groups g = some G → (G.lane l).hold = .barrier x.2.2.1 m →
      (c.team.barrier x.2.2.1).arrived.getLsbD g = true) ∧
    (x.2.2.1 = 16 → ∀ g ∈ c.team.openGroups, g ≠ c.g → (c.team.barrier x.2.2.1).arrived.getLsbD g = true) ∧
    (x.2.2.1 < 16 → x.2.2.2 ≤ c.team.ngroup ∧ ((c.team.barrier x.2.2.1).count = 0 ∨ (c.team.barrier x.2.2.1).count.toNat = x.2.2.2) ∧
      (arrivedGroups (c.team.barrier x.2.2.1)).length + 1 = x.2.2.2) := by
  have h : lastArrivals.all (fun x => can x.1 x.2.1 fun c => decide (c.lanes ≠ [] ∧ c.grp.ended = false ∧ c.g < 32 ∧ c.grp.handlers = []) &&
      (List.range 32).all (fun l => let L := c.grp.lane l
        !L.live || ((decide (l ∈ c.lanes) || decide (L.hold = .barrier x.2.2.1 x.2.2.2) && decide (L.pc.toNat = c.pc)) &&
          decide (L.status &&& 0b000111#6 &&& ~~~ L.rpt = 0))) &&
      decide (∀ e ∈ c.team.barriers, e.2.arrived.getLsbD c.g = false) &&
      decide (∀ e ∈ c.team.groups, e.1 ≠ c.g → (c.team.barrier x.2.2.1).arrived.getLsbD e.1 = false → ∀ L ∈ e.2.lanes, L.2.atBarrier = false) &&
      decide (x.2.2.1 = 16 → ∀ g ∈ c.team.openGroups, g ≠ c.g → (c.team.barrier x.2.2.1).arrived.getLsbD g = true) &&
      decide (x.2.2.1 < 16 → x.2.2.2 ≤ c.team.ngroup ∧ ((c.team.barrier x.2.2.1).count = 0 ∨ (c.team.barrier x.2.2.1).count.toNat = x.2.2.2) ∧
        (arrivedGroups (c.team.barrier x.2.2.1)).length + 1 = x.2.2.2)) = true := by decide +kernel
  have names : ∀ x ∈ lastArrivals, x.2.1 = .bar ∧ x.2.2.1 = 16 ∧ x.2.2.2 = 0 ∨
      ∃ B N, x.2.1 = .barn B N ∧ B.toNat = x.2.2.1 ∧ N.toNat = x.2.2.2 := by
    intro x hx
    simp only [lastArrivals, List.mem_cons, List.not_mem_nil, or_false] at hx
    rcases hx with rfl | rfl | rfl | rfl
    any_goals exact .inl ⟨rfl, rfl, rfl⟩
    · exact .inr ⟨15, 4, rfl, rfl, rfl⟩
    · exact .inr ⟨0, 1, rfl, rfl, rfl⟩
  intro x hx
  obtain ⟨c, he, h⟩ := executes_of (List.all_eq_true.1 h x hx)
  simp only [Bool.and_eq_true, Bool.or_eq_true, Bool.not_eq_true', decide_eq_true_eq, List.all_eq_true, List.mem_range] at h
  obtain ⟨⟨⟨start, away⟩, everyone⟩, counted⟩ := h
  refine ⟨c, he, names x hx, start.1.1.1, start.1.1.2.1, start.1.1.2.2.1, start.1.1.2.2.2, fun l hl => (start.1.2 l hl.1).resolve_left (by simp [hl.2]),
    barrier_all (P := fun r => r.arrived.getLsbD c.g = false) start.2 (by simp), ?_, everyone, counted⟩
  intro g G l m hg hG hm
  cases hn : (c.team.barrier x.2.2.1).arrived.getLsbD g with
  | true => rfl
  | false =>
    have := lane_all (P := fun L => L.atBarrier = false) (away _ (mem_of_get hG) hg hn) rfl l
    simp [Lane.atBarrier, hm] at this

set_option maxRecDepth 100000 in
/-- Barriers whose generation completes, can no longer complete, and stay; a group that is released. -/
theorem witness_settled_barriers :
    (∃ T, Tab.get? (met 16 0 (fun _ => true) (fun _ => false)).teams 2 = some T ∧ 16 < 17 ∧ arrivedGroups (T.barrier 16) ≠ [] ∧
      T.openGroups.filter (fun g => !(T.barrier 16).arrived.getLsbD g) = []) ∧
    (∃ T, Tab.get? (met 15 2 (fun g => g != 0 && g != 3) (fun _ => false)).teams 2 = some T ∧ (T.barrier 15).count ≠ 0 ∧
      (arrivedGroups (T.barrier 15)).length = (T.barrier 15).count.toNat) ∧
    (∃ T, Tab.get? (met 15 4 (fun g => g != 0) (fun g => g == 0)).teams 2 = some T ∧ (T.barrier 15).count ≠ 0 ∧
      (arrivedGroups (T.barrier 15)).length + (T.openGroups.filter (fun g => !(T.barrier 15).arrived.getLsbD g)).length <
        (T.barrier 15).count.toNat) ∧
    (∃ T G, Tab.get? (met 16 0 (fun _ => true) (fun _ => false)).teams 2 = some T ∧ Tab.get? T.groups 0 = some G ∧
      (G.lanes.map (·.1) = List.range 32 ∧ (∀ L ∈ G.lanes, L.2.frag.base < G.nextBase) ∧ (Lane.start 0).frag.base < G.nextBase ∧
        G.liveLanes = 0 :: (List.range 31).map (· + 1))) ∧
    ∃ T G, Tab.get? (inGroup (fun _ => waiting) base).teams 2 = some T ∧ Tab.get? T.groups 0 = some G ∧ G.waitReady 0 = true :=
  ⟨exists_some (by decide +kernel), exists_some (by decide +kernel), exists_some (by decide +kernel), exists_group (by decide +kernel),
    exists_group (by decide +kernel)⟩

set_option maxRecDepth 100000 in
/-- With its members held, the masked lanes go on at the next word (R208); a BAR's last arrival releases the other groups. -/
theorem test_last_arrivals : grpOf (exec (.wait 0) (rejoining solo)) (fun G => ([0, 1].map (fun l => ((G.lane l).hold, (G.lane l).pc)),
      Store.get G.k 0)) = some ([(.run, 0x400008), (.run, 0x400008)], 0) ∧
    (match exec .bar (met 16 0 (fun g => g != 0) (fun _ => false)) with
      | .next t => (Tab.get? t.teams 2).map (fun T => ((T.barrier 16), T.groups.map (fun G => (G.2.lane 31).hold)))
      | _ => none) = some (⟨1, 0, 0⟩, [.run, .run, .run, .run]) := by decide +kernel

set_option maxRecDepth 100000 in
/-- Arrivals at a named barrier, counts at the ends of their range: the first; one with the count, with another count,
above %ngroup; a second one of the same group; the team barrier. -/
theorem witness_barriers : ∃ T, Tab.get? base.teams 2 = some T ∧ (T.barrier 0).arrived.getLsbD 31 = false ∧ (T.barrier 0).count = 0 ∧
    T.ngroup = 4 ∧ T.ngroup < 5 ∧ 32 < 33 ∧
    ((T.putBarrier 15 ⟨0, 2, 1⟩).barrier 15).arrived.getLsbD 0 = true ∧
    ((T.putBarrier 15 ⟨0, 2, 1⟩).barrier 15).arrived.getLsbD 1 = false ∧
    ((T.putBarrier 15 ⟨0, 2, 1⟩).barrier 15).count.toNat = 2 ∧ ((T.putBarrier 15 ⟨0, 2, 1⟩).barrier 15).count.toNat ≠ 3 ∧
    (T.barrier 16).arrived.getLsbD 0 = false := exists_some (by decide +kernel)

/-- With convergence register 0 as given. -/
def converging (r : Conv) : State := base.modTeam 2 fun T => { T with conv := [(0, r)] }

set_option maxRecDepth 100000 in
/-- SIGN of an empty register, of a complete one, and of one fixed for another set; a register that waits to complete. -/
theorem witness_signs : (∃ c, Executes base c (.sign 0 15) ∧ c.g < 32 ∧ (c.team.convReg 0).complete = false ∧
      (c.team.convReg 0).fixed = false) ∧
    (∃ c, Executes (converging ⟨0, 0, true, 0, 15, true⟩) c (.sign 0 15) ∧ (c.team.convReg 0).complete = true) ∧
    (∃ c, Executes (converging ⟨0, 0, true, 0, 3, false⟩) c (.sign 0 15) ∧ (c.team.convReg 0).complete = false ∧
      (c.team.convReg 0).fixed = true ∧ (c.team.convReg 0).mask ≠ 15) ∧
    (∃ T, Tab.get? (converging ⟨0, 0, true, 0, 15, false⟩).teams 2 = some T ∧ Tab.get? T.conv 0 = some ⟨0, 0, true, 0, 15, false⟩) :=
  ⟨exists_exec (by decide +kernel), exists_exec (by decide +kernel), exists_exec (by decide +kernel),
    exists_some (by decide +kernel)⟩

set_option maxRecDepth 100000 in
/-- WAITB and POLLB of objects at the ends of the scratchpad, with a count of zero and another. -/
theorem witness_counts : (∃ c, Executes (vaddr windowBase base) c (.waitb (.v 0)) ∧
      (∀ l ∈ c.lanes, windowBase ≤ c.grp.pairVal (c.grp.lane l) (.v 0) ∧ c.grp.pairVal (c.grp.lane l) (.v 0) % 16 = 0 ∧
        c.grp.pairVal (c.grp.lane l) (.v 0) + 16 ≤ windowBase + c.team.limit ∧
        lockHit ((vaddr windowBase base).locksOf c.team.pcore) c.t c.space (c.grp.pairVal (c.grp.lane l) (.v 0)) 16 .load = none) ∧
      (vaddr windowBase base).loadPlace c (.scratch 0) = 0) ∧
    (∃ c, Executes (vaddr (windowBase + 524272) base) c (.pollb false (.v 4) (.v 0)) ∧
      (∀ l ∈ c.lanes, c.grp.pairVal (c.grp.lane l) (.v 0) + 16 ≤ windowBase + c.team.limit)) ∧
    (∃ c, Executes (vaddr windowBase (base.modTeam 2 fun T => { T with scratch := [(0, 1)] })) c (.waitb (.v 0)) ∧
      (vaddr windowBase (base.modTeam 2 fun T => { T with scratch := [(0, 1)] })).loadPlace c (.scratch 0) = 1) :=
  ⟨exists_exec (by decide +kernel), exists_exec (by decide +kernel), exists_exec (by decide +kernel)⟩

/-! ## Word checks, traps and handlers -/

set_option maxRecDepth 100000 in
/-- A word that a handler keeps out, one that waits for a parked lane of its fragment, and words that fail each step of
the checks: a register past the allocation, the first tile past it, an invalid latch in either set. -/
theorem witness_word_checks :
    (∃ c, (handling.setCur (some (2, 0, 1))).issuer = some c ∧ heldOutside (.join true 0) = true ∧ c.level < c.grp.handlers.length) ∧
    (∃ c, (inGroup (fun G => G.mapLanes [1] (fun _ L => { L with hold := .parked 5 })) base).issuer = some c ∧
      holdPoint (.ballot true (.v 0) (.v 1)) = true ∧ c.grp.mustHold c.level c.key c.lanes c.pc = true ∧
      c.stepOne (.ballot true (.v 0) (.v 1)) = true) ∧
    (∃ c, Issues (base.modTeam 2 fun T => { T with regs := 8 }) c (.iadd true (.v 0) (.v 7) (.v 8)) ∧
      c.stepOne (.iadd true (.v 0) (.v 7) (.v 8)) = true ∧
      (Instr.iadd true (.v 0) (.v 7) (.v 8)).regRange c.team.regs c.team.ztiles = some 8) ∧
    (∃ c, Issues (base.modTeam 2 fun T => { T with ztiles := 63 }) c (.zclr true 63) ∧ c.stepOne (.zclr true 63) = true ∧
      (Instr.zclr true 63).regRange c.team.regs c.team.ztiles = some 319) ∧
    (∃ c, Issues base c (.umov true (.s 0) (.q 2)) ∧ c.stepOne (.umov true (.s 0) (.q 2)) = true ∧
      (Instr.umov true (.s 0) (.q 2)).regRange c.team.regs c.team.ztiles = none ∧
      c.grp.uq.lost (Instr.umov true (.s 0) (.q 2)).latches = some 2) ∧
    (∃ c, Issues base c (.iadd true (.v 0) (.v 0) (.q 3)) ∧ c.stepOne (.iadd true (.v 0) (.v 0) (.q 3)) = true ∧
      (Instr.iadd true (.v 0) (.v 0) (.q 3)).regRange c.team.regs c.team.ztiles = none ∧
      ∀ l ∈ c.lanes, (c.grp.lane l).q.lost (Instr.iadd true (.v 0) (.v 0) (.q 3)).latches = some 3) :=
  ⟨exists_ctx (by decide +kernel), exists_ctx (by decide +kernel), exists_issue (by decide +kernel),
    exists_issue (by decide +kernel), exists_issue (by decide +kernel), exists_issue (by decide +kernel)⟩

set_option maxRecDepth 100000 in
theorem witness_trap_words : (∃ c, Executes base c (.trap true 255) ∧ c.lanes ≠ [] ∧ c.grp.handlers.length ≤ c.level) ∧
    ∃ c, Executes base c (.bkpt true) ∧ c.lanes ≠ [] ∧ c.grp.handlers.length ≤ c.level :=
  ⟨exists_exec (by decide +kernel), exists_exec (by decide +kernel)⟩

/-- A handler instance for tests. -/
def instance1 : Handler := ⟨1, 0, [], [], [], []⟩

set_option maxRecDepth 100000 in
/-- A trap that enters at level 0 with the lowest frame that fits, and at level 1 with the highest. -/
theorem witness_trap_entry :
    (∃ T G, Tab.get? (trapping 0x400000 (windowBase + 1024) []).teams 2 = some T ∧ Tab.get? T.groups 0 = some G ∧
      (G.lanes.map (·.1) = List.range 32 ∧ Store.wf G.s = true ∧ (∀ L ∈ G.lanes, L.2.frag.base < G.nextBase) ∧
        (trapping 0x400000 (windowBase + 1024) []).handlerFor 2 0 T G ≠ 0 ∧ G.trapLevel = 0 ∧
        windowBase ≤ (G.framePtr + (2 ^ 64 - 1024)) % 2 ^ 64 ∧ (G.framePtr + (2 ^ 64 - 1024)) % 2 ^ 64 + 1024 ≤ windowBase + T.limit)) ∧
    (∃ T G, Tab.get? (trapping 0x400000 (2 ^ 64 - 1) [instance1]).teams 2 = some T ∧ Tab.get? T.groups 0 = some G ∧
      (G.trapLevel = 1 ∧ windowBase ≤ (G.framePtr + (2 ^ 64 - 1024)) % 2 ^ 64 ∧
        (G.framePtr + (2 ^ 64 - 1024)) % 2 ^ 64 + 1024 ≤ windowBase + T.limit)) ∧ ∀ l ∈ [0, 31], l < 32 :=
  ⟨exists_group (by decide +kernel), exists_group (by decide +kernel), by decide⟩

set_option maxRecDepth 100000 in
/-- Traps that stop their group: at level 2, with no %handler, with a frame a byte below the window. -/
theorem witness_group_stops :
    (∃ T G, Tab.get? (trapping 0x400000 (2 ^ 64 - 1) [instance1, instance1]).teams 2 = some T ∧ Tab.get? T.groups 0 = some G ∧
      (2 ≤ G.trapLevel.toNat ∧ T.pcore < 4096 ∧ G.lanes.map (·.1) = List.range 32)) ∧
    (∃ T G, Tab.get? (trapping 0 (2 ^ 64 - 1) []).teams 2 = some T ∧ Tab.get? T.groups 0 = some G ∧
      (trapping 0 (2 ^ 64 - 1) []).handlerFor 2 0 T G = 0) ∧
    (∃ T G, Tab.get? (trapping 0x400000 (windowBase + 1023) []).teams 2 = some T ∧ Tab.get? T.groups 0 = some G ∧
      ¬windowBase ≤ (G.framePtr + (2 ^ 64 - 1024)) % 2 ^ 64) :=
  ⟨exists_group (by decide +kernel), exists_group (by decide +kernel), exists_group (by decide +kernel)⟩

/-- With every lane in a level-1 handler instance whose frame is at F, and with bytes in the scratchpad. -/
def inside (f : Nat) (bytes : Store 8) : State :=
  inGroup (fun G => { G.mapLanes (List.range 32) (fun _ L => { L with level := 1, frag := ⟨1, []⟩ }) with
    handlers := [⟨0xFFFFFFFF, BitVec.ofNat 64 f, List.replicate 32 ⟨0, []⟩, [], [], []⟩], trapLevel := 1, nextBase := 2 }.setSPair 58 f)
    (base.modTeam 2 fun T => { T with scratch := bytes })

set_option maxRecDepth 100000 in
/-- ERET with a frame at the top of the scratchpad; with one a byte too high; with a saved program counter of 2. -/
theorem witness_eret :
    (∃ c, Executes (inside (windowBase + 523264) []) c .eret ∧ windowBase ≤ c.grp.framePtr ∧
      c.grp.framePtr + 1024 ≤ windowBase + c.team.limit ∧ c.grp.enteredLive = List.range 32 ∧
      ∀ l ∈ c.grp.enteredLive, codeAddress ((inside (windowBase + 523264) []).frameValue c.team c.grp
        (c.grp.framePtr - windowBase + 8 * l) 8) = true) ∧
    (∃ c, Executes (inside (windowBase + 523265) []) c .eret ∧ ¬c.grp.framePtr + 1024 ≤ windowBase + c.team.limit) ∧
    (∃ c, Executes (inside windowBase [(0, 2)]) c .eret ∧ codeAddress ((inside windowBase [(0, 2)]).frameValue c.team c.grp
      (c.grp.framePtr - windowBase + 8 * 0) 8) = false) ∧
    (∃ T G, Tab.get? (inside windowBase []).teams 2 = some T ∧ Tab.get? T.groups 0 = some G ∧
      (G.lanes.map (·.1) = List.range 32 ∧ Store.wf G.s = true ∧ G.handlers = [] ++ [⟨0xFFFFFFFF, BitVec.ofNat 64 windowBase,
        List.replicate 32 ⟨0, []⟩, [], [], []⟩])) ∧
    ∃ T G, Tab.get? (inside windowBase [(0x1B8, 1)]).teams 2 = some T ∧ Tab.get? T.groups 0 = some G ∧
      ((inside windowBase [(0x1B8, 1)]).frameValue T G (G.framePtr - windowBase + 0x1B8) 4 % 4 = 1) :=
  ⟨exists_exec (by decide +kernel), exists_exec (by decide +kernel), exists_exec (by decide +kernel),
    exists_group (by decide +kernel), exists_group (by decide +kernel)⟩

/-! ## System words and launches -/

set_option maxRecDepth 100000 in
/-- SYSRD of every register, SYSWR of both. -/
theorem witness_system_words : ∀ i ∈ [Instr.sysrd false (.q 3) 0, .sysrd false (.s 2) 1, .sysrd false (.s 2) 2, .sysrd false (.s 2) 3,
    .sysrd false (.s 2) 4, .sysrd false (.s 2) 5, .sysrd false (.s 2) 6, .sysrd false (.s 2) 7, .sysrd false (.s 2) 8,
    .sysrd false (.s 2) 9, .sysrd false (.s 2) 0xA, .sysrd false (.s 2) 0xB, .sysrd false (.s 2) 0x10, .sysrd false (.s 2) 0x11,
    .sysrd false (.s 2) 0x18, .sysrd false (.s 2) 0x20, .sysrd false (.s 2) 0x21, .sysrd false (.s 2) 0x22, .sysrd false (.s 58) 0x23,
    .sysrd false (.s 2) 0x24, .syswr false (.s 2) 0x18, .syswr false (.s 2) 0x20, .sched false (.s 4) (.s 2) 15],
    ∃ c, Executes base c i := all_execute (by decide +kernel)

set_option maxRecDepth 100000 in
/-- SYSWR that traps: a %handler that is no multiple of 4, one in the window, a register that takes no write. -/
theorem witness_syswr_traps : (∃ c, Issues (saddr 2 base) c (.syswr false (.s 0) 0x20) ∧ c.grp.sPair 0 % 4 ≠ 0) ∧
    (∃ c, Issues (saddr windowBase base) c (.syswr false (.s 0) 0x20) ∧ ¬c.grp.sPair 0 < windowBase) ∧
    (∃ c, Issues base c (.syswr false (.s 0) 0x19) ∧ (0x19 : BitVec 16) ≠ 0x18 ∧ (0x19 : BitVec 16) ≠ 0x20) :=
  ⟨exists_issue (by decide +kernel), exists_issue (by decide +kernel), exists_issue (by decide +kernel)⟩

theorem chain_of {R : State → Nat → State → Prop} {f : State → Nat → Option State} (hf : ∀ s l u, f s l = some u → R s l u) :
    ∀ (ls : List Nat) (s : State), (ls.foldlM f s).isSome = true → ∃ t, Chain R ls s t := by
  intro ls
  induction ls with
  | nil => intro s _; exact ⟨s, .nil s⟩
  | cons l ls ih =>
    intro s h
    cases hl : f s l with
    | none => simp [List.foldlM_cons, hl] at h
    | some u =>
      obtain ⟨t, ht⟩ := ih u (by simpa [List.foldlM_cons, hl] using h)
      exact ⟨t, .cons (hf s l u hl) ht⟩

/-- With a SCHED table at 0x401000 whose entry 2 of class 0 holds sizes to 64. -/
def scheduled : State :=
  (base.writePhys 0x401020 (toBytes 16 (64 + 7 * 2 ^ 32 + 9 * 2 ^ 64))).modGrid 1 fun g =>
    { g with packet := g.packet ||| BitVec.ofNat 1024 (0x401000 * 2 ^ 256) }

/-- The entries of that table. -/
def tableEntry (j : Nat) : Nat := if j = 2 then 64 + 7 * 2 ^ 32 + 9 * 2 ^ 64 else 0

set_option maxRecDepth 100000 in
/-- SCHED with no table, and with one whose eight entries are read. -/
theorem witness_sched : (∃ c, Executes base c (.sched false (.s 4) (.s 2) 0) ∧ pkSched (teamPacket c.grid c.team) = 0) ∧
    (∃ c t, Executes scheduled c (.sched false (.s 4) (.s 2) 0) ∧ pkSched (teamPacket c.grid c.team) = 0x401000 ∧
      Chain (fun v j w => ∃ bs, readLane scheduled v c (c.lanes.headD 0) ((0x401000 + 128 * 0 + 16 * j) % 2 ^ 64) 16 = .val w bs ∧
        tableEntry j = leValue bs) (List.range 8) scheduled t) ∧
    tableEntry 2 / 2 ^ 64 ≠ 0 ∧ 64 ≤ tableEntry 2 % 2 ^ 32 ∧ ∀ j < 8, j ≠ 2 → tableEntry j / 2 ^ 64 = 0 := by
  refine ⟨exists_exec (by decide +kernel), ?_, by decide +kernel⟩
  have h : can scheduled (.sched false (.s 4) (.s 2) 0) (fun c => decide (pkSched (teamPacket c.grid c.team) = 0x401000 ∧
      ((List.range 8).foldlM (fun v j => match readLane scheduled v c (c.lanes.headD 0) ((0x401000 + 128 * 0 + 16 * j) % 2 ^ 64) 16 with
        | .val w bs => if tableEntry j = leValue bs then some w else none
        | .stop _ => none) scheduled).isSome = true)) = true := by decide +kernel
  obtain ⟨c, he, h0, h1⟩ := exists_exec h
  obtain ⟨t, ht⟩ := chain_of (R := fun v j w => ∃ bs, readLane scheduled v c (c.lanes.headD 0)
    ((0x401000 + 128 * 0 + 16 * j) % 2 ^ 64) 16 = .val w bs ∧ tableEntry j = leValue bs) (fun s l u hu => by
      split at hu
      · rename_i w bs hr
        split at hu
        · exact ⟨bs, by rw [hr]; simp_all, by assumption⟩
        · exact absurd hu (by simp)
      · exact absurd hu (by simp)) _ _ h1
  exact ⟨c, t, he, h0, ht⟩

/-- The lowest of R170's rows that a packet of 128 bytes fails, 0 when it fails none. -/
def failingRow (bs : List Byte) : Nat :=
  let p : BitVec 1024 := BitVec.ofNat 1024 (leValue bs)
  let f (lo n : Nat) : Nat := (p.extractLsb' lo n).toNat
  let regs := f 200 8
  let m := (f 192 6 + 1 + 3) / 4
  if regs % 8 ≠ 0 ∨ regs < 8 ∨ 192 < regs then 1
  else if 32 < f 192 6 + 1 ∨ 0 < f 208 7 ∧ (f 192 6 + 1) % 4 ≠ 0 then 2
  else if f 704 320 ≠ 0 ∨ f 640 64 ≠ 0 ∨ f 608 16 ≠ 0 ∨ f 244 12 ≠ 0 ∨ f 216 8 ≠ 0 ∨ f 198 2 ≠ 0 ∨ 524288 < f 224 20 ∨
    64 < f 208 7 ∨ f 160 32 = 0 ∨ f 512 64 % 4 ≠ 0 ∨ f 448 64 % 4 ≠ 0 ∨ f 384 64 % 16 ≠ 0 ∨ 64 < m * f 208 7 ∨
    min 16 (2048 / regs) < m then 3
  else 0

/-- With a launch packet at 0x401000, whose address is in s0:s1. -/
def packeted (p : Nat) : State := saddr 0x401000 (base.writePhys 0x401000 (toBytes 128 p))

/-- A packet that passes: one group of 8 registers, one team. -/
def smallPacket : Nat := 0x400004 + 2 ^ 160 + 8 * 2 ^ 200

set_option maxRecDepth 100000 in
/-- A packet that passes, and one that fails each row, at the row's boundary. -/
theorem witness_packet_rows : ∀ x ∈ [(smallPacket, 0), (smallPacket + 192 * 2 ^ 200 - 8 * 2 ^ 200, 0), (smallPacket - 8 * 2 ^ 200, 1),
      (smallPacket + 192 * 2 ^ 200, 1), (smallPacket + 32 * 2 ^ 192, 2), (smallPacket + 2 ^ 208, 2), (smallPacket - 2 ^ 160, 3),
      (smallPacket + 524289 * 2 ^ 224, 3), (smallPacket + 2 ^ 640, 3)], failingRow (toBytes 128 x.1) = x.2 := by decide +kernel

set_option maxRecDepth 100000 in
/-- LAUNCH of a packet that passes; at depth 10; with every slot in use; by helper lanes. -/
theorem witness_launch : (∃ c s1 bs, Executes (packeted smallPacket) c (.launch false (.s 4) (.s 0)) ∧ c.grid.depth < 10 ∧
        (∃ l ∈ c.lanes, (c.grp.lane l).helper = false) ∧
        readLane (packeted smallPacket) (packeted smallPacket) c (c.lanes.headD 0) (c.grp.sPair 0) 128 = .val s1 bs ∧ failingRow bs = 0) ∧
    (∃ c, Executes (base.modGrid 1 fun g => { g with depth := 10 }) c (.launch false (.s 4) (.s 0)) ∧ 10 ≤ c.grid.depth) ∧
    (∃ c, Executes (base.modPart 0 fun P => { P with kids := 4096 }) c (.launch false (.s 4) (.s 0)) ∧
      4096 ≤ (base.modPart 0 fun P => { P with kids := 4096 }).kidsOf c.grid.part) ∧
    (∃ c, Executes (inGroup (fun G => G.mapLanes (List.range 32) (fun _ L => { L with helper := true })) base) c
      (.launch false (.s 4) (.s 0)) ∧ ∀ l ∈ c.lanes, (c.grp.lane l).helper = true) := by
  refine ⟨?_, exists_exec (by decide +kernel), exists_exec (by decide +kernel), exists_exec (by decide +kernel)⟩
  obtain ⟨c, he, h0, h1, h2⟩ := exists_exec (s := packeted smallPacket) (i := .launch false (.s 4) (.s 0)) (P := fun c => c.grid.depth < 10 ∧
    (∃ l ∈ c.lanes, (c.grp.lane l).helper = false) ∧ valThen (readLane (packeted smallPacket) (packeted smallPacket) c (c.lanes.headD 0)
      (c.grp.sPair 0) 128) (fun _ bs => failingRow bs == 0) = true) (by decide +kernel)
  obtain ⟨s1, bs, hv, hr⟩ := val_then h2
  exact ⟨c, s1, bs, he, h0, h1, hv, beq_iff_eq.1 hr⟩

/-! ## Formats, tiles and the quartet step -/

/-- With v2 of every lane nonzero in no lane and format register 7 valid (.e5m2). -/
def formatted : State := inGroup (fun G => { G with f := Store.set G.f 7 0x6A }) base

set_option maxRecDepth 100000 in
/-- FMTSET of a valid descriptor and of 0; ZCLR of the last tile; ZRD and ZWR by the whole group and by a part of it. -/
theorem witness_tiles : (∃ c, Executes (sset 2 0x6A base) c (.fmtset false 7 (.s 2)) ∧ c.grp.uniVal (.s 2) = 0x6A) ∧
    (∃ c, Executes base c (.fmtset false 0 (.s 2)) ∧ c.grp.uniVal (.s 2) = 0) ∧
    (∃ c, Executes base c (.zclr false 63) ∧ Store.wf c.grp.z = true) ∧
    (∃ c, Executes base c (.zrd false 23 63 3 3 0 0 7) ∧ descValid (Store.get c.grp.f 7) = false) ∧
    (∃ c, Executes formatted c (.zrd false 23 63 3 3 0 0 7) ∧ descValid (Store.get c.grp.f 7) = true ∧ c.lanes = c.grp.liveLanes) ∧
    (∃ c, Executes (inGroup (fun G => G.mapLanes [31] (fun _ L => { L with frag := ⟨9, []⟩ })) base) c (.zrd false 0 0 0 0 4 1 0) ∧
      c.lanes ≠ c.grp.liveLanes) ∧
    (∃ c, Executes base c (.zwr false 23 63 3) ∧ c.lanes = c.grp.liveLanes ∧ Store.wf c.grp.z = true) ∧
    (∃ c, Executes (inGroup (fun G => G.mapLanes [31] (fun _ L => { L with frag := ⟨9, []⟩ })) base) c (.zwr false 0 0 0) ∧
      c.lanes ≠ c.grp.liveLanes ∧ Store.wf c.grp.z = true) :=
  ⟨exists_exec (by decide +kernel), exists_exec (by decide +kernel), exists_exec (by decide +kernel),
    exists_exec (by decide +kernel), exists_exec (by decide +kernel), exists_exec (by decide +kernel),
    exists_exec (by decide +kernel), exists_exec (by decide +kernel)⟩

set_option maxRecDepth 100000 in
/-- MMA with no register to bind to, with register 7 signed, and by a part of a group. -/
theorem witness_matrix_words : (∃ c, Executes base c (.mma true 0 0 1 0 2 0 0) ∧ c.lanes = c.grp.liveLanes ∧
      ∀ n < 8, (c.team.convReg n).fixed = false) ∧
    (∃ c, Executes (base.modTeam 2 fun T => { T with conv := [(7, ⟨1, 0, true, 0, 15, false⟩)] }) c (.mmaz true 63 22 22 3 2 3 3) ∧
      c.lanes = c.grp.liveLanes ∧ (c.team.convReg 7).fixed = true ∧ (c.team.convReg 7).quartet.toNat = c.g / 4 ∧
      (c.team.convReg 7).mask = 15 ∧ (∃ l < 32, (c.team.convReg 7).signed.getLsbD (32 * (c.g % 4) + l) = true) ∧
      ∀ m < 7, (c.team.convReg m).fixed = false) ∧
    (∃ c, Executes (inGroup (fun G => G.mapLanes [31] (fun _ L => { L with frag := ⟨9, []⟩ })) base) c (.mma true 0 0 1 0 2 0 0) ∧
      c.lanes ≠ c.grp.liveLanes) :=
  ⟨exists_exec (by decide +kernel), exists_exec (by decide +kernel), exists_exec (by decide +kernel)⟩

/-- The matrix words of the four groups: of 16-bit containers, the others of 8 bits with no valid format. -/
def matrixWord (c : BitVec 2) : Instr := .mma true 0 0 1 0 c 0 0

/-- Four groups held at matrix words bound to convergence register 0, complete. -/
def bound (word : Nat → Instr) : State := base.modTeam 2 fun T => { T with
  groups := T.groups.map (fun e => (e.1, e.2.mapLanes (List.range 32) (fun _ L => { L with hold := .matrix 0 (word e.1) })))
  conv := [(0, ⟨BitVec.ofNat 128 (2 ^ 128 - 1), 0, true, 0, 15, true⟩)] }

/-- Group j of the team. -/
def groupAt (s : State) (j : Nat) : Group :=
  match Tab.get? s.teams 2 with
  | some T => (Tab.get? T.groups j).getD group
  | none => group

/-- What QUARTET_STEP_START asks of the four groups, the core and the grid. -/
def stepReady (w : Nat → Instr) (T : Team) : Bool :=
  let s := bound w
  decide (Tab.get? T.steps 0 = none) && (T.convReg 0).complete && has (Tab.get? s.cores T.pcore) (fun k => !k.key.en) &&
  (Tab.get? s.grids T.grid).isSome && (List.range 4).all (fun j =>
    let G := groupAt s j
    decide (Tab.get? T.groups j = some G) && decide (G.liveLanes ≠ []) && !G.saved &&
    G.liveLanes.all (fun l => decide ((G.lane l).hold = .matrix 0 (w j))) && (mmaWord (w j)).isSome &&
    !s.quarterBusy T.pcore G.quarter 2 j)

set_option maxRecDepth 100000 in
/-- A step that starts; one of different containers; one with format registers that hold nothing valid; one whose register is
not complete. -/
theorem witness_step_starts :
    (∃ T, Tab.get? (bound fun _ => matrixWord 2).teams 2 = some T ∧ stepReady (fun _ => matrixWord 2) T = true) ∧
    (∃ T, Tab.get? (bound fun j => matrixWord (if j = 3 then 1 else 2)).teams 2 = some T ∧
      stepReady (fun j => matrixWord (if j = 3 then 1 else 2)) T = true) ∧
    (∃ T, Tab.get? (bound fun _ => matrixWord 1).teams 2 = some T ∧ stepReady (fun _ => matrixWord 1) T = true) ∧
    (∃ T, Tab.get? base.teams 2 = some T ∧ (T.convReg 0).complete = false) ∧
    badFormats group ⟨0, 0, 1, 0, 1, 0, 0, false, true⟩ = true ∧ badFormats group ⟨0, 0, 1, 0, 2, 0, 0, false, true⟩ = false :=
  ⟨exists_some (by decide +kernel), exists_some (by decide +kernel), exists_some (by decide +kernel),
    exists_some (by decide +kernel), by decide +kernel, by decide +kernel⟩

/-- A step's part of one group: tile 0, zero operands. -/
def stepPart : StepWord := ⟨0, true, 0, 0, 0, [], [], 0, 0⟩

set_option maxRecDepth 100000 in
/-- A started step that can complete. -/
theorem witness_step_completes : ∃ T, Tab.get? (base.modTeam 2 fun T => { T with
      steps := [(0, ⟨0, 2, (List.range 4).map (fun _ => stepPart)⟩)] }).teams 2 = some T ∧
    Tab.get? T.steps 0 = some ⟨0, 2, (List.range 4).map (fun _ => stepPart)⟩ ∧ Tab.wf T.steps = true ∧
    ∀ j < 4, Tab.get? T.groups (4 * 0 + j) = some (groupAt base j) ∧ Store.wf (groupAt base j).z = true :=
  exists_some (by decide +kernel)

/-- The first and last elements of an operand, in each container. -/
theorem witness_step_elements : (0 < 16 ∧ 15 < 16) ∧ (127 < 512 / (4 * 2 ^ 0) ∧ 0 < 2 ^ 0) ∧ (63 < 512 / (4 * 2 ^ 1) ∧ 1 < 2 ^ 1) ∧
    31 < 512 / (4 * 2 ^ 2) ∧ 3 < 2 ^ 2 ∧ 2 < 3 := by decide

/-- Products over a common scale, of which one lies in a zero block. -/
theorem witness_step_sums : ∀ x ∈ [(false, 3, (-5 : Int), true, 7, (-10 : Int), false), (true, 1, 0, false, 1, 0, true)],
    (-15 : Int) ≤ x.2.2.1 + x.2.2.2.2.2.1 := by decide

/-- Slots and sums for R61's special values: a slot that is a number, ∞, −∞ and a NaN of both kinds; a sum that is a NaN, either
infinity, zero and small; and elements that are ∞ beside 0, signalling inside and outside a zero block, and all −0. -/
theorem witness_slot_specials :
    (∀ z ∈ [0, a56.sign, a56.inf - 1, a56.inf, a56.sign + a56.inf, a56.inf + 1, a56.nan], z < 2 * a56.sign) ∧
    (¬a56.inf < a56.inf % a56.sign ∧ a56.inf < (a56.inf + 1) % a56.sign ∧ (a56.inf + 1) % a56.sign < a56.nan ∧
      a56.nan ≤ a56.nan % a56.sign) ∧
    (∀ r ∈ [mmaSum [⟨false, .inf false⟩] [⟨false, .fin true 0 0⟩], mmaSum [⟨false, .inf false⟩] [⟨false, .fin true 1 0⟩],
      mmaSum [⟨false, .fin true 0 0⟩] [⟨false, .fin false 0 3⟩], mmaSum [⟨false, .fin true 3 (-5)⟩] [⟨false, .fin false 1 7⟩],
      mmaSum [⟨true, .nan true⟩] [⟨false, .fin false 1 0⟩], mmaSum [⟨false, .nan true⟩] [⟨true, .fin false 1 0⟩]], -1066 ≤ r.sum.e) ∧
    (mmaSum [⟨false, .inf false⟩] [⟨false, .fin true 0 0⟩]).nan = true ∧ (mmaSum [⟨false, .inf false⟩] [⟨false, .fin true 1 0⟩]).neg = true ∧
    (mmaSum [⟨false, .fin true 0 0⟩] [⟨false, .fin false 0 3⟩]).negZero = true ∧
    (mmaSum [⟨true, .nan true⟩] [⟨false, .fin false 1 0⟩]).nv = false ∧ (mmaSum [⟨false, .nan true⟩] [⟨true, .fin false 1 0⟩]).nan = false := by
  decide +kernel

/-! ## Facet streams, rays and the geometry words -/

/-- A context's bits with three vertices, at distances 3, 2 and 1, and those bits in a scratchpad, DONE. -/
def someContext : Nat := 3 * 2 ^ 64 + 3 * 2 ^ 96 + 2 * 2 ^ 104 + 2 ^ 112
def doneContext : Store 8 := [(8, 3), (12, 3), (13, 2), (14, 1), (57, 1)]

/-- With the eight registers of a FACET.OPEN of record 0 of a mesh header at 0x401000, its record at 0x402000. -/
def meshed : State :=
  [0x80000 * 2 ^ 12, 0xFFFFFFFF, 0x401000, 0, 0, 1, 0, 7].zipIdx.foldl (fun s e => vset e.2 (fun _ => BitVec.ofNat 32 (if e.2 = 0 then
    windowBase else if e.2 = 1 then windowBase / 2 ^ 32 else e.1)) s)
    (((solo.modTeam 2 fun T => { T with scratch := doneContext }).writePhys 0x401000 (toBytes 128 (0x402000 * 2 ^ 256 + 2 ^ 448))).writePhys 0x402000 (toBytes 512 (markRecord someContext 0)))

/-- Whether a lane's part is done. -/
def done (r : LaneRes) : Bool :=
  match r with
  | .done _ => true
  | _ => false

theorem done_of {r : LaneRes} (h : done r = true) : ∃ t, r = .done t := by
  cases r with
  | done t => exact ⟨t, rfl⟩
  | trap s c i => exact absurd h (by simp [done])
  | park s v k f => exact absurd h (by simp [done])
  | wait a => exact absurd h (by simp [done])

/-- A word of lane 0 alone whose part is done. -/
theorem part_of {s : State} {i : Instr} {part : Ctx → State → Nat → LaneRes} (h : can s i (fun c => decide (c.lanes = [0] ∧
    done (part c (s.modGroup c.t c.g (·.openEntry)) 0) = true)) = true) : ∃ c t, Executes s c i ∧ c.lanes = [0] ∧
    Chain (fun s l u => part c s l = .done u) c.lanes (s.modGroup c.t c.g (·.openEntry)) t := by
  obtain ⟨c, he, h0, h1⟩ := exists_exec h
  obtain ⟨t, ht⟩ := done_of h1
  exact ⟨c, t, he, h0, by rw [h0]; exact chain_one ht⟩

set_option maxRecDepth 100000 in
/-- An open, a next and a mark that are done. -/
theorem witness_facet_words :
    (∃ c t, Executes meshed c (.facetOpen false (.q 3) (.v 0)) ∧ c.lanes = [0] ∧
      Chain (fun s l u => openLane c (.q 3) (.v 0) s l = .done u) c.lanes (meshed.modGroup c.t c.g (·.openEntry)) t) ∧
    (∃ c t, Executes meshed c (.facetNext false (.v 20) (.v 0)) ∧ c.lanes = [0] ∧
      Chain (fun s l u => nextLane c (.v 20) (.v 0) s l = .done u) c.lanes (meshed.modGroup c.t c.g (·.openEntry)) t) ∧
    (∃ c t, Executes meshed c (.facetMark false (.s 3) (.v 0) (.v 2)) ∧ c.lanes = [0] ∧
      Chain (fun s l u => markLane c (.s 3) (.v 0) (.v 2) s l = .done u) c.lanes (meshed.modGroup c.t c.g (·.openEntry)) t) :=
  ⟨part_of (part := fun c => openLane c (.q 3) (.v 0)) (by decide +kernel),
    part_of (part := fun c => nextLane c (.v 20) (.v 0)) (by decide +kernel),
    part_of (part := fun c => markLane c (.s 3) (.v 0) (.v 2)) (by decide +kernel)⟩

set_option maxRecDepth 100000 in
/-- A DONE context at the window's start and a context's tests passed, with a symbol to read and without. -/
theorem witness_facet_contexts :
    (∃ c, (vaddr windowBase (base.modTeam 2 fun T => { T with scratch := doneContext })).issuer = some c ∧
      windowBase ≤ c.grp.pairVal (c.grp.lane 0) (.v 0) ∧ c.grp.pairVal (c.grp.lane 0) (.v 0) % 512 = 0 ∧
      c.grp.pairVal (c.grp.lane 0) (.v 0) + 512 ≤ windowBase + c.team.limit ∧
      fget (leValue ((List.range 512).map (fun i => (vaddr windowBase (base.modTeam 2 fun T =>
        { T with scratch := doneContext })).loadPlace c (.scratch i)))) fDone = 1) ∧
    contextOk someContext = true ∧ someContext < 2 ^ 4096 ∧ fget someContext fRemain = 0 ∧
    (∃ c, (base.writePhys 0x402000 [4]).issuer = some c ∧
      (match (Dec.mk (base.writePhys 0x402000 [4]) (fset someContext fRemain 1)).step c 0 0x402000 with | .ok _ => true | .error _ => false) = true) ∧
    contextOk (fset someContext fRemain 1) = true ∧ fget (fset someContext fRemain 1) fVcount + 1 < 2 ^ 32 :=
  ⟨exists_ctx (by decide +kernel), by decide +kernel, by decide +kernel, by decide +kernel, exists_ctx (by decide +kernel),
    by decide +kernel, by decide +kernel⟩

set_option maxRecDepth 100000 in
/-- The geometry words that work on a lane's registers and on memory, each of whose accesses passes. -/
theorem witness_geometry_words :
    (∃ c, Executes base c (.trit false (.v 188) (.v 0) (.s 51))) ∧
    (∃ c, Executes (saddr 0x401000 solo) c (.boxt false (.v 187) (.v 0) (.s 0)) ∧ c.lanes = [0] ∧
      c.grp.pairVal (c.grp.lane 0) (.s 0) % 128 = 0 ∧ passes (lanePath (saddr 0x401000 solo) c .read 0 (c.grp.pairVal (c.grp.lane 0) (.s 0)) 128) .read c) ∧
    (∃ c, Executes (saddr 0x401000 solo) c (.rsave false (.v 176) (.s 0)) ∧ c.storers = [0] ∧
      passes (lanePath (saddr 0x401000 solo) c .write 0 ((c.grp.pairVal (c.grp.lane 0) (.s 0) + 64 * 0) % 2 ^ 64) 64) .write c) ∧
    (∃ c, Executes (vaddr 0x401010 solo) c (.rload false (.v 176) (.v 0)) ∧ c.lanes = [0] ∧
      c.grp.pairVal (c.grp.lane 0) (.v 0) % 16 = 0 ∧ passes (lanePath (vaddr 0x401010 solo) c .read 0 (c.grp.pairVal (c.grp.lane 0) (.v 0)) 64) .read c) :=
  ⟨(exists_exec (P := fun _ => True) (by decide +kernel)).imp fun _ h => h.1, exists_exec (by decide +kernel),
    exists_exec (by decide +kernel), exists_exec (by decide +kernel)⟩

/-- With the base of a stack in s0:s1, its capacity in s2, v0:v1 of every lane and a count in v2. -/
def stacked (cap val n : Nat) : State :=
  sset 2 (BitVec.ofNat 32 cap) (saddr windowBase (vset 2 (fun _ => BitVec.ofNat 32 n) (vaddr val base)))

set_option maxRecDepth 100000 in
/-- A push below the capacity, a pop of a full stack and one of an empty one, with the largest stack that fits. -/
theorem witness_stacks :
    (∃ c, Executes (stacked 2048 5 2047) c (.stkPush false (.v 0) (.s 0)) ∧
      windowBase + 256 * 2048 ≤ windowBase + c.team.limit ∧ (stacked 2048 5 2047).locksOf c.team.pcore = [] ∧
      ∀ l ∈ c.lanes, ((c.grp.lane l).vreg 2).toNat < (c.grp.sreg 2).toNat) ∧
    (∃ c, Executes (stacked 1 0 1) c (.stkPush false (.v 0) (.s 0)) ∧ ∀ l ∈ c.lanes, (c.grp.lane l).vreg 0 = 0 ∧ (c.grp.lane l).vreg 1 = 0) ∧
    (∃ c, Executes (stacked 2048 5 2048) c (.stkPop false (.v 0) (.s 0)) ∧
      ∀ l ∈ c.lanes, ((c.grp.lane l).vreg 2).toNat ≤ (c.grp.sreg 2).toNat) ∧
    (∃ c, Executes (stacked 1 5 0) c (.stkPop false (.v 0) (.s 0)) ∧ ∀ l ∈ c.lanes, (c.grp.lane l).vreg 2 = 0) :=
  ⟨exists_exec (by decide +kernel), exists_exec (by decide +kernel), exists_exec (by decide +kernel),
    exists_exec (by decide +kernel)⟩

set_option maxRecDepth 100000 in
/-- MESH.BUMP of a mapped header, of an address that is no multiple of 128, and by helper lanes. -/
theorem witness_bumps :
    (∃ c, Executes (saddr 0x401000 base) c (.meshBump false (.s 4) (.s 0)) ∧ (∃ l ∈ c.lanes, (c.grp.lane l).helper = false) ∧
      c.grp.sPair 0 % 128 = 0 ∧ okThen (lanePath (if inWindow ((c.grp.sPair 0 + 16) % 2 ^ 64) then (saddr 0x401000 base).drainFifo c.t c.g
          else (saddr 0x401000 base).drainGroup c.t c.g) c .atomic (c.lanes.headD 0) ((c.grp.sPair 0 + 16) % 2 ^ 64) 4)
        (fun _ ps io => !io && here c .atomic (c.lanes.headD 0) ps)) ∧
    (∃ c, Executes (saddr 0x401040 base) c (.meshBump false (.s 4) (.s 0)) ∧ c.grp.sPair 0 % 128 ≠ 0) ∧
    (∃ c, Executes (inGroup (fun G => G.mapLanes (List.range 32) (fun _ L => { L with helper := true })) base) c
      (.meshBump false (.s 4) (.s 0)) ∧ ∀ l ∈ c.lanes, (c.grp.lane l).helper = true) :=
  ⟨exists_exec (by decide +kernel), exists_exec (by decide +kernel), exists_exec (by decide +kernel)⟩

/-- A ray that meets a box in one point, at tmin, and one that misses it; a hit of TRIT's conditions on its edge. -/
theorem witness_rays : ((2 : Int) * 1 ≤ 2 ∧ (2 : Int) ≤ 2 * 1 ∧ (4 : Int) * 1 ≤ 0 * 1 + 2 * 2 ∧ (0 : Int) * 1 + 2 * 2 ≤ 4 * 1) ∧
    (∀ p q : Int, 0 < q → ¬((0 : Int) * q ≤ p ∧ p ≤ 1 * q ∧ 4 * q ≤ 0 * q + p * 2)) := by
  refine ⟨by decide, fun p q hq h => by omega⟩

/-! ## The raster unit and the engines -/

set_option maxRecDepth 100000 in
/-- RAST.TRI and RAST.RATE of an address that is no multiple of 64, and of a render state of zeros (one rate tile). -/
theorem witness_raster_words :
    (∀ i ∈ [Instr.rastTri false (.s 0) (.v 2), .rastRate false (.s 0) (.v 2)], ∃ c, Executes (saddr 0x401020 solo) c i ∧
      ¬(c.grp.sPair 0 % 64 = 0 ∧ canonical (c.grp.sPair 0) = true ∧ c.grp.sPair 0 < windowBase)) ∧
    (∃ c u bs, Executes (saddr 0x401000 solo) c (.rastTri false (.s 0) (.v 2)) ∧ c.grp.sPair 0 = 0x401000 ∧
      readLane (saddr 0x401000 solo) (saddr 0x401000 solo) c (c.lanes.headD 0) (c.grp.sPair 0) 64 = .val u bs ∧ leValue bs = 0) ∧
    (∃ c u bs, Executes (saddr 0x401000 solo) c (.rastRate false (.s 0) (.v 2)) ∧ c.storers = [0] ∧
      readLane (saddr 0x401000 solo) (saddr 0x401000 solo) c (c.lanes.headD 0) (c.grp.sPair 0) 64 = .val u bs ∧ leValue bs = 0 ∧
      passes (lanePath u c .write 0 ((0 + (c.grp.blockVal (c.grp.lane 0) (.v 2) 0).toNat) % 2 ^ 64) 1) .write c = true ∧
      ∀ l ∈ c.lanes, (c.grp.blockVal (c.grp.lane l) (.v 2) 1).toNat ≤ 6 ∧ (c.grp.blockVal (c.grp.lane l) (.v 2) 0).toNat < 1) := by
  refine ⟨?_, ?_, ?_⟩
  · have h : [Instr.rastTri false (.s 0) (.v 2), .rastRate false (.s 0) (.v 2)].all (fun i => can (saddr 0x401020 solo) i fun c =>
        decide (¬(c.grp.sPair 0 % 64 = 0 ∧ canonical (c.grp.sPair 0) = true ∧ c.grp.sPair 0 < windowBase))) = true := by decide +kernel
    exact fun i hi => exists_exec (List.all_eq_true.1 h i hi)
  · obtain ⟨c, he, h0, h1⟩ := exists_exec (s := saddr 0x401000 solo) (i := .rastTri false (.s 0) (.v 2)) (P := fun c =>
      c.grp.sPair 0 = 0x401000 ∧ valThen (readLane (saddr 0x401000 solo) (saddr 0x401000 solo) c (c.lanes.headD 0) (c.grp.sPair 0) 64)
        (fun _ bs => leValue bs == 0) = true) (by decide +kernel)
    obtain ⟨u, bs, hv, hr⟩ := val_then h1
    exact ⟨c, u, bs, he, h0, hv, beq_iff_eq.1 hr⟩
  · obtain ⟨c, he, h0, h1, h2⟩ := exists_exec (s := saddr 0x401000 solo) (i := .rastRate false (.s 0) (.v 2)) (P := fun c =>
      c.storers = [0] ∧ valThen (readLane (saddr 0x401000 solo) (saddr 0x401000 solo) c (c.lanes.headD 0) (c.grp.sPair 0) 64)
        (fun u bs => leValue bs == 0 &&
          passes (lanePath u c .write 0 ((0 + (c.grp.blockVal (c.grp.lane 0) (.v 2) 0).toNat) % 2 ^ 64) 1) .write c) = true ∧
      ∀ l ∈ c.lanes, (c.grp.blockVal (c.grp.lane l) (.v 2) 1).toNat ≤ 6 ∧ (c.grp.blockVal (c.grp.lane l) (.v 2) 0).toNat < 1)
      (by decide +kernel)
    obtain ⟨u, bs, hv, hr⟩ := val_then h1
    simp only [Bool.and_eq_true, beq_iff_eq] at hr
    exact ⟨c, u, bs, he, h0, hv, hr.1, hr.2, h2⟩

set_option maxRecDepth 100000 in
/-- A render state with a reserved bit set, and RAST.RATE of a lane with code 7. -/
theorem witness_raster_traps :
    (∃ c u bs, Executes (saddr 0x401000 (solo.writePhys 0x401002 [1])) c (.rastTri false (.s 0) (.v 2)) ∧
      readLane (saddr 0x401000 (solo.writePhys 0x401002 [1])) (saddr 0x401000 (solo.writePhys 0x401002 [1])) c (c.lanes.headD 0)
        0x401000 64 = .val u bs ∧ leValue bs / 2 ^ 16 % 2 ^ 112 ≠ 0 ∧ c.grp.handlers.length ≤ c.level) ∧
    (∃ c u bs, Executes (vset 3 (fun _ => 7) (saddr 0x401000 solo)) c (.rastRate false (.s 0) (.v 2)) ∧
      readLane (vset 3 (fun _ => 7) (saddr 0x401000 solo)) (vset 3 (fun _ => 7) (saddr 0x401000 solo)) c (c.lanes.headD 0) 0x401000 64 =
        .val u bs ∧ leValue bs = 0 ∧ c.grp.handlers.length ≤ c.level ∧
      c.lanes.filter (fun l => decide (6 < (c.grp.blockVal (c.grp.lane l) (.v 2) 1).toNat)) = [0]) := by
  refine ⟨?_, ?_⟩
  · obtain ⟨c, he, h1, h2⟩ := exists_exec (s := saddr 0x401000 (solo.writePhys 0x401002 [1])) (i := .rastTri false (.s 0) (.v 2))
      (P := fun c => valThen (readLane (saddr 0x401000 (solo.writePhys 0x401002 [1])) (saddr 0x401000 (solo.writePhys 0x401002 [1])) c
        (c.lanes.headD 0) 0x401000 64) (fun _ bs => leValue bs / 2 ^ 16 % 2 ^ 112 != 0) = true ∧ c.grp.handlers.length ≤ c.level)
      (by decide +kernel)
    obtain ⟨u, bs, hv, hr⟩ := val_then h1
    exact ⟨c, u, bs, he, hv, by simpa using hr, h2⟩
  · obtain ⟨c, he, h1, h2⟩ := exists_exec (s := vset 3 (fun _ => 7) (saddr 0x401000 solo)) (i := .rastRate false (.s 0) (.v 2))
      (P := fun c => valThen (readLane (vset 3 (fun _ => 7) (saddr 0x401000 solo)) (vset 3 (fun _ => 7) (saddr 0x401000 solo)) c
        (c.lanes.headD 0) 0x401000 64) (fun _ bs => leValue bs == 0) = true ∧ c.grp.handlers.length ≤ c.level ∧
        c.lanes.filter (fun l => decide (6 < (c.grp.blockVal (c.grp.lane l) (.v 2) 1).toNat)) = [0]) (by decide +kernel)
    obtain ⟨u, bs, hv, hr⟩ := val_then h1
    exact ⟨c, u, bs, he, hv, beq_iff_eq.1 hr, h2⟩

/-- The registers of the triangle (0, 0), (4, 0), (0, 4) at depth 0, with a tag. -/
def corner : List Word := [0, 0, 0, 0x40800000, 0, 0, 0, 0x40800000, 0, 7]

/-- With those in v0 to v9 of every lane. -/
def cornered : State := corner.zipIdx.foldl (fun s e => vset e.2 (fun _ => e.1) s) base

set_option maxRecDepth 100000 in
/-- A lane's triangle that is taken, and one of zero area; two triangles on either side of an edge, and a point within it. -/
theorem witness_triangles :
    (∃ c, cornered.issuer = some c ∧ (Tab.get? cornered.cores c.team.pcore).isSome = true ∧ (c.grp.lane 0).helper = false ∧
      (List.range 10).map (c.grp.blockVal (c.grp.lane 0) (.v 0)) = corner) ∧
    has (triOf corner) (fun t => t.area == 2 ^ 20) = true ∧
    (∃ c, base.issuer = some c ∧ (List.range 10).map (c.grp.blockVal (c.grp.lane 0) (.v 2)) = List.replicate 10 0) ∧
    (∀ t, triOf (List.replicate 10 0) = some t → t.area = 0) ∧
    (let t : Tri := ⟨(0, 0), (4, 0), (0, 4), []⟩; let u : Tri := ⟨(4, 0), (0, 0), (0, -4), []⟩
      0 < t.area ∧ 0 < u.area ∧ edge (0, 0) (4, 0) (2, 0) = 0 ∧ (0 : Int) < 1 ∧ (1 : Int) < 2 ∧
      (2 : Int) * (2 - 0) = 1 * (4 - 0) ∧ (2 : Int) * (0 - 0) = 1 * (0 - 0)) := by
  refine ⟨exists_ctx (by decide +kernel), by decide +kernel, exists_ctx (by decide +kernel), ?_, by decide +kernel⟩
  intro t ht
  have h : (triOf (List.replicate 10 0)).all (fun t => t.area == 0) = true := by decide +kernel
  rw [ht] at h
  simpa using h

/-- With an accepted triangle on core 0, of a render state that shades nothing (depth test never) or everything at 0x402000. -/
def accepted (state : Nat) (token : Option Nat) : State :=
  base.modCore 0 fun k => { k with raster := [⟨900, 1, 2, BitVec.ofNat 512 state, 0x401000, corner, token⟩] }

/-- What the unit finds for the triangle of a state. -/
def finds (s : State) (p : State → List Smp → BitVec 1024 → Bool) (q w : Bool) : Bool :=
  match Tab.get? s.cores 0 with
  | some k => match k.raster, Tab.get? s.grids 1 with
    | x :: _, some g => match triOf x.verts with
      | some t => match examine s 0 g.space x t with
        | .val u (pass, _, _, pk) => p u pass pk
        | .fault .. => q
        | .wait _ => w
      | none => false
    | _, _ => false
  | none => false

/-- A shading packet: one group of 16 registers at the staged entry. -/
def shadePacket : Nat := 0x400004 + 2 ^ 160 + 16 * 2 ^ 200

/-- The placement depends on the rotation modulo 4 only. -/
theorem fits_mod (s : State) (core rho : Nat) (n : Need) : s.fits core rho n = s.fits core (rho % 4) n := by
  unfold State.fits
  have : (fun d => (rho + d) % 4) = fun d => (rho % 4 + d) % 4 := by funext d; omega
  rw [this]

/-- A team that fits with each rotation fits. -/
theorem fits_some {s : State} {core : Nat} {n : Need} (h : ∀ r < 4, (s.fits core r n).isSome = true) (rho : Nat) :
    (s.fits core rho n).isSome = true := by
  rw [fits_mod]; exact h _ (Nat.mod_lt _ (by decide))

theorem dispatch_some {s : State} {core : Nat} {j : ShadeJob} {g : Grid} (hg : Tab.get? s.grids j.grid = some g)
    (h : ∀ r < 4, (s.fits core r (packetNeed g.packet g.tenant)).isSome = true) : ∃ u, s.dispatchShading core j = some u := by
  have := fits_some h (Config.rotation s.fresh)
  apply Option.isSome_iff_exists.1
  simp only [State.dispatchShading, hg, Option.isSome_map]
  exact this

set_option maxRecDepth 100000 in
/-- No triangle; one that waits on a token; one none of whose samples passes; one whose samples pass, with a packet and without;
one whose depths do not translate, and one whose depths another device
holds; a core with a job that fits and with one whose grid is gone. -/
theorem witness_raster_events :
    (∃ k, Tab.get? base.cores 0 = some k ∧ k.raster = [] ∧ k.jobs = []) ∧
    (∃ k, Tab.get? (accepted 0 (some 3)).cores 0 = some k ∧ k.raster.any (fun x => x.token.isSome)) ∧
    finds (accepted (0xF * 2 ^ 128 + 0xF * 2 ^ 144 + 4 * 2 ^ 224 + 4 * 2 ^ 240) none) (fun _ pass _ => pass == []) false false = true ∧
    finds (accepted (7 * 2 ^ 12 + 0xF * 2 ^ 128 + 0xF * 2 ^ 144 + 4 * 2 ^ 224 + 4 * 2 ^ 240 + 0x402000 * 2 ^ 448) none)
      (fun _ pass pk => pass != [] && !shadePacketOk pk) false false = true ∧
    finds ((accepted (7 * 2 ^ 12 + 0xF * 2 ^ 128 + 0xF * 2 ^ 144 + 4 * 2 ^ 224 + 4 * 2 ^ 240 + 0x402000 * 2 ^ 448) none).writePhys 0x402000
      (toBytes 128 shadePacket)) (fun _ pass pk => pass != [] && shadePacketOk pk) false false = true ∧
    finds (accepted (2 ^ 12 + 0xF * 2 ^ 128 + 0xF * 2 ^ 144 + 4 * 2 ^ 224 + 4 * 2 ^ 240 + 0x40000000 * 2 ^ 320) none)
      (fun _ _ _ => false) true false = true ∧
    finds ((accepted (2 ^ 12 + 0xF * 2 ^ 128 + 0xF * 2 ^ 144 + 4 * 2 ^ 224 + 4 * 2 ^ 240 + 0x200000 * 2 ^ 320) none).writePhys
      (stagedTables + 0x3008) (toBytes 8 (stagedLeaf (2 ^ 55 + 2 ^ 33)))) (fun _ _ _ => false) false true = true ∧
    (∃ u, ({ base with teams := [] } : State).dispatchShading 0 ⟨1, 900, List.replicate 32 ⟨[0], false, []⟩⟩ = some u) ∧
    base.dispatchShading 0 ⟨77, 900, []⟩ = none ∧
    (∃ G, Tab.get? base.grids 1 = some G ∧ 1 ≠ base.fresh ∧ (Tab.get? base.cores 0).isSome = true ∧
      [(⟨[0], false, []⟩ : ShadeInit)] ≠ []) :=
  ⟨exists_some (by decide +kernel), exists_some (by decide +kernel), by decide +kernel, by decide +kernel, by decide +kernel,
    by decide +kernel, by decide +kernel, dispatch_some (g := stagedGrid 1) (by decide +kernel) (by decide +kernel), by decide +kernel,
    exists_some (by decide +kernel)⟩

/-- A target of 16 by 16 pixels, its scissor the first four by four, one sample a pixel. -/
def smallTarget : Nat := 0xF * 2 ^ 128 + 0xF * 2 ^ 144 + 4 * 2 ^ 224 + 4 * 2 ^ 240

set_option maxRecDepth 100000 in
/-- Covered samples, a sloping plane through three vertices, and a part with samples of its own; depths that compare, and one that
is no number. -/
theorem witness_coverage :
    has (triOf corner) (fun t => coveredSamples smallTarget t != [] &&
      [t.a.1, t.a.2, t.b.1, t.b.2, t.c.1, t.c.2].all (fun n => decide (n.natAbs ≤ 2 ^ 28)) &&
      (coveredSamples smallTarget t).any (fun p => (coveredSamples smallTarget t).any (fun q =>
        q.part smallTarget [((0, 0), 3)] == p.part smallTarget [((0, 0), 3)])) && rateOf [((0, 0), 3)] (0, 0) == 3) = true ∧
    (let t : Tri := ⟨(0, 0), (4, 0), (0, 4), [⟨1, 0⟩, ⟨5, 0⟩, ⟨9, 0⟩]⟩;
      t.area ≠ 0 ∧ ∀ q ∈ [(t.a, (1 : Int)), (t.b, 5), (t.c, 9)], 1 * q.2 = 1 * q.1.1 + 2 * q.1.2 + 1) ∧
    (f32.Finite 0x3F800000 ∧ ¬f32.Finite 0x7FC00000 ∧ 0x7F800000 < 0x7FC00000 % 2 ^ 31) := by
  refine ⟨by decide +kernel, by decide +kernel, ?_⟩
  unfold Fmt.Finite
  decide

set_option maxRecDepth 100000 in
/-- Triangles that the unit examines against depths read, and stores the new ones of, with covered samples that pass and with none. -/
theorem witness_examined : ∀ x ∈ [(1, false), (3, true)],
    finds (accepted (0xF * 2 ^ 128 + 0xF * 2 ^ 144 + 2 ^ 224 + 2 ^ 240 + 2 ^ 11 + x.1 * 2 ^ 12 + 0x402000 * 2 ^ 320 + 0x403000 * 2 ^ 448) none)
      (fun _ pass _ => x.2 == (pass != [])) false false = true := by decide +kernel
/-- Helper lanes alone. -/
def helpers : State := inGroup (fun G => G.mapLanes (List.range 32) (fun _ L => { L with helper := true })) base

/-- With a list of one record of 64 bytes at an offset of the scratchpad, its address in s0:s1 and a count in s2. -/
def listed (off n v : Nat) : State :=
  sset 2 (BitVec.ofNat 32 n) (saddr (windowBase + off) (base.modTeam 2 fun T => { T with scratch := Store.setRange [] off (toBytes 64 v) }))

/-- A request of 4 bytes from 0x401000 to 0x402000, and a card with one stage, a conversion of .f32 to .f32. -/
def someRequest : Nat := 0x401000 + 0x402000 * 2 ^ 64 + 4 * 2 ^ 128
def someCard : Nat := someRequest + 4 * 2 ^ 168 + 2 * 2 ^ 224

/-- With a team of 64 bytes of scratchpad and a list just beyond them. -/
def beyond : State := (listed 64 1 0).modTeam 2 fun T => { T with limit := 64 }

/-- Whether validation passes. -/
def passing {α : Type} (r : Except TrapWhy α) : Bool :=
  match r with
  | .ok _ => true
  | .error _ => false

/-- The records of a list and whether they pass. -/
def judges (s : State) (card : Bool) (n : Nat) (c : Ctx) (ok : Bool) : Bool :=
  let a := c.grp.sPair 0
  decide (c.grp.lanes ≠ [] ∧ (∃ l ∈ c.lanes, (c.grp.lane l).helper = false) ∧ 1 ≤ n ∧ n ≤ 32 ∧ windowBase ≤ a ∧ a % 64 = 0 ∧
    a + 64 * n ≤ windowBase + c.team.limit ∧ lockHit (s.locksOf c.team.pcore) c.t c.space a (64 * n) .load = none) &&
  passing (validateAll (s.shapesOf c.team.pcore) c.t c.team.limit card 0 ((List.range n).map (fun k => leValue ((List.range 64).map (fun j =>
    s.loadPlace c (.scratch (a - windowBase + 64 * k + j))))))) == ok

set_option maxRecDepth 100000 in
/-- KICK and XFORM by helper lanes; a count of 0 and of 33, a list outside the window; a list that ends beyond the scratchpad and
one at its end; records that fail and records that pass. -/
theorem witness_kick :
    (∀ i ∈ [Instr.kick false (.s 4) (.s 0) (.s 2), .xform false (.s 4) (.s 0)],
      (∃ c, Executes helpers c i ∧ ∀ l ∈ c.lanes, (c.grp.lane l).helper = true) ∧
      (∃ c, Executes (saddr 0x401000 base) c i ∧ ¬windowBase ≤ c.grp.sPair 0) ∧
      (∃ c, Executes beyond c i ∧ windowBase + c.team.limit < c.grp.sPair 0 + 64 * 1 ∧ c.grp.uniVal (.s 2) = 1)) ∧
    (∃ c, Executes (listed 0 33 0) c (.kick false (.s 4) (.s 0) (.s 2)) ∧ (c.grp.uniVal (.s 2)).toNat = 33) ∧
    (∃ c, Executes (listed 0 0 0) c (.kick false (.s 4) (.s 0) (.s 2)) ∧ (c.grp.uniVal (.s 2)).toNat = 0) ∧
    (∃ c, Executes (listed 524224 1 0) c (.kick false (.s 4) (.s 0) (.s 2)) ∧ judges (listed 524224 1 0) false 1 c false = true) ∧
    (∃ c, Executes (listed 524224 1 someRequest) c (.kick false (.s 4) (.s 0) (.s 2)) ∧
      judges (listed 524224 1 someRequest) false 1 c true = true) ∧
    (∃ c, Executes (listed 0 1 someRequest) c (.xform false (.s 4) (.s 0)) ∧ judges (listed 0 1 someRequest) true 1 c false = true) ∧
    (∃ c, Executes (listed 0 1 someCard) c (.xform false (.s 4) (.s 0)) ∧ judges (listed 0 1 someCard) true 1 c true = true) := by
  refine ⟨?_, exists_exec (by decide +kernel), exists_exec (by decide +kernel), exists_exec (by decide +kernel),
    exists_exec (by decide +kernel), exists_exec (by decide +kernel), exists_exec (by decide +kernel)⟩
  intro i hi
  have h1 : [Instr.kick false (.s 4) (.s 0) (.s 2), .xform false (.s 4) (.s 0)].all (fun i => can helpers i fun c =>
      decide (∀ l ∈ c.lanes, (c.grp.lane l).helper = true)) = true := by decide +kernel
  have h2 : [Instr.kick false (.s 4) (.s 0) (.s 2), .xform false (.s 4) (.s 0)].all (fun i => can (saddr 0x401000 base) i fun c =>
      decide (¬windowBase ≤ c.grp.sPair 0)) = true := by decide +kernel
  have h3 : [Instr.kick false (.s 4) (.s 0) (.s 2), .xform false (.s 4) (.s 0)].all (fun i => can beyond i fun c =>
      decide (windowBase + c.team.limit < c.grp.sPair 0 + 64 * 1 ∧ c.grp.uniVal (.s 2) = 1)) = true := by decide +kernel
  exact ⟨exists_exec (List.all_eq_true.1 h1 i hi), exists_exec (List.all_eq_true.1 h2 i hi), exists_exec (List.all_eq_true.1 h3 i hi)⟩

set_option maxRecDepth 100000 in
/-- A job of each sort that starts. -/
theorem witness_starts : (∃ c, base.issuer = some c ∧ (Tab.get? base.cores c.team.pcore).isSome = true ∧
      (startJob c base ⟨0x401000, 4, 0x402000, 4, none, none, [], 0, 4⟩).isSome = true) ∧
    (∃ c, base.issuer = some c ∧ (Tab.get? base.cores c.team.pcore).isSome = true ∧
      (startJob c base ⟨0x401000, 4, 0x402000, 4, none, none, [2], 0, 4⟩).isSome = true) :=
  ⟨exists_ctx (by decide +kernel), exists_ctx (by decide +kernel)⟩

/-- With every range lock of core 0 in use but one, and with every room of its die in use. -/
def locksTaken : State := base.modCore 0 fun k => { k with locks := ((List.range 32).filter (· != 5)).map fun n => (n, ⟨2, 0, 0, 0x401000, 4, false, 0⟩) }
def roomsTaken : State := base.modDie 0 fun d => { d with rooms := (List.range 16).map fun r => (r, 50) }

set_option maxRecDepth 100000 in
/-- A job that finds too few locks, and one with stages that finds no room, which one without starts beside. -/
theorem witness_no_start : (∃ c, locksTaken.issuer = some c ∧
      (startJob c locksTaken ⟨0x401000, 4, 0x402000, 4, none, none, [], 0, 4⟩ = none ∧
        (List.range 32).all (fun n => n == 5 || (Tab.get? (locksTaken.locksOf c.team.pcore) n).isSome) = true)) ∧
    ∃ c, roomsTaken.issuer = some c ∧ startJob c roomsTaken ⟨0x401000, 4, 0x402000, 4, none, none, [2], 0, 4⟩ = none ∧
      (startJob c roomsTaken ⟨0x401000, 4, 0x402000, 4, none, none, [], 0, 4⟩).isSome = true :=
  ⟨exists_ctx (by decide +kernel), exists_ctx (by decide +kernel)⟩

/-- Chains: of one conversion, whose lengths are bound to one another; of a transposition that no tile of two bytes fits; of a
dictionary stage, which leaves its output's length open. -/
theorem witness_fitting_chains : IsChain [2, 0, 0] [2] ∧ (∀ m, ChainFits [2] 4 m ↔ m = 4) ∧ IsChain [3, 0, 0] [3] ∧
    (∀ n, ¬ChainFits [3] 2 n) ∧ IsChain [1, 0, 0] [1] ∧ ChainFits [1] 4 5 ∧ ChainFits [1] 4 6 ∧ ∀ ch, ¬IsChain [5, 0, 0] ch := by
  have good : ∀ st ∈ [1, 2, 3], GoodStage st := by
    intro st hst
    simp only [List.mem_cons, List.not_mem_nil, or_false] at hst
    rcases hst with rfl | rfl | rfl <;> simp [GoodStage]
  refine ⟨⟨by simpa using good 2 (by simp), 2, rfl⟩, fun m => ?_, ⟨by simpa using good 3 (by simp), 2, rfl⟩, fun n => ?_,
    ⟨by simpa using good 1 (by simp), 2, rfl⟩, ?_, ?_, ?_⟩
  · simp only [ChainFits, StageFits]
    constructor
    · rintro ⟨x, ⟨n, h1, h2⟩, rfl⟩; simp at h1 h2; omega
    · rintro rfl; exact ⟨4, ⟨1, by decide, by decide⟩, rfl⟩
  · simp [ChainFits, StageFits]
  · exact ⟨5, trivial, rfl⟩
  · exact ⟨6, trivial, rfl⟩
  · rintro ch ⟨hg, n, h⟩
    cases ch with
    | nil => cases n with
      | zero => exact absurd h (by simp)
      | succ n => simp [List.replicate_succ] at h
    | cons a as =>
      simp only [List.cons_append, List.cons.injEq] at h
      have := hg a (by simp)
      rw [← h.1] at this
      simp [GoodStage] at this

/-- A shape request of handle 3 into memory at 0x402000, and out of it. -/
def shapeRequest (out : Bool) : Nat := 2 ^ 214 + 3 * 2 ^ 208 + if out then 2 ^ 215 + 0x402000 else 0x402000 * 2 ^ 64

/-- The handles of a core: number 3, of team 2. -/
def oneShape (dropped : Bool) : Tab Shape := [(3, ⟨2, BitVec.ofNat 768 (2 ^ 64 + 2 ^ 96 + 2 ^ 128 + 2 ^ 160 + 0x401000), dropped⟩)]

/-- The cause and subcode that validation refuses with, if it does. -/
def refusedWith (r : Except TrapWhy Job) : Option TrapWhy :=
  match r with
  | .ok _ => none
  | .error w => some w

set_option maxRecDepth 100000 in
/-- Shape requests in both directions: of a handle in use, of a dropped one, of another team's and of none. -/
theorem witness_shape_requests : (∀ out, passing (validate (oneShape false) 2 64 false 0 (shapeRequest out)) = true) ∧
    (∀ out, refusedWith (validate (oneShape true) 2 64 false 0 (shapeRequest out)) = some (0x11, 2) ∧
      refusedWith (validate (oneShape false) 4 64 false 1 (shapeRequest out)) = some (0x11, 18) ∧
      refusedWith (validate [] 2 64 false 31 (shapeRequest out)) = some (0x11, 498)) ∧
    refusedWith (validate (oneShape false) 2 64 false 0 (shapeRequest true + 2 ^ 64)) = some (0x11, 1) := by decide +kernel

/-- Plain requests: of length 0; from an address that is not canonical, and one that runs past the end; with an object beyond the
limit and at it; with a source that meets the window and leaves the limit, and such a destination; one that passes. -/
theorem witness_requests :
    (let f (v lo n : Nat) : Nat := v / 2 ^ lo % 2 ^ n
     f (0x401000 + 0x402000 * 2 ^ 64) 128 40 = 0 ∧ (canonical (2 ^ 60) = false ∧ f (2 ^ 60 + 4 * 2 ^ 128) 0 64 = 2 ^ 60) ∧
     (canonical (2 ^ 64 - 4) = true ∧ ¬(2 ^ 64 - 4 + 5 ≤ 2 ^ 64) ∧ 2 ^ 64 - 4 + 4 ≤ 2 ^ 64) ∧
     (f (someRequest + 3 * 2 ^ 192) 192 15 = 3 ∧ ¬(64 < 16 * 3 + 16) ∧ 48 < 16 * 3 + 16) ∧
     (¬(windowBase - 4 + 5 ≤ windowBase) ∧ ¬(windowBase ≤ windowBase - 4) ∧ windowBase - 4 + 4 ≤ windowBase) ∧
     (¬(windowBase + 60 + 5 ≤ windowBase + 64) ∧ windowBase + 60 + 4 ≤ windowBase + 64) ∧
     f someRequest 214 1 = 0 ∧ f someRequest 384 128 = 0 ∧ f someRequest 216 40 = 0 ∧ f someRequest 215 1 = 0 ∧ f someRequest 208 6 = 0 ∧
     f someRequest 207 1 = 0 ∧ f someRequest 168 24 = 0 ∧ f someRequest 128 40 = 4) := by decide +kernel

/-- A shape record: one element in each direction, one byte, no stage. -/
def someShape : Nat := 2 ^ 64 + 2 ^ 96 + 2 ^ 128 + 2 ^ 160

/-- With that record at 0x401000. -/
def sealable : State := saddr 0x401000 (base.writePhys 0x401000 (toBytes 96 someShape))

/-- With handles below n in use. -/
def withHandles (n : Nat) (dropped : Bool) (s : State) : State :=
  s.modCore 0 fun k => { k with shapes := (List.range n).map (fun h => (h, ⟨2, BitVec.ofNat 768 someShape, dropped⟩)) }

set_option maxRecDepth 100000 in
/-- SHAPE.SEAL at an address that is no multiple of 32; of a record of zeros; of one that passes, with every handle in use, with
none and with all but the last; SHAPE.DROP of a handle in use, of a dropped one and of a free one. -/
theorem witness_shapes :
    (∃ c, Executes (saddr 0x401010 base) c (.shapeSeal false (.s 4) (.s 0)) ∧ c.grp.sPair 0 % 32 ≠ 0) ∧
    (∃ c u bs, Executes (saddr 0x401000 base) c (.shapeSeal false (.s 4) (.s 0)) ∧
      readLane (saddr 0x401000 base) (saddr 0x401000 base) c (c.lanes.headD 0) (c.grp.sPair 0) 96 = .val u bs ∧ shapeOk (leValue bs) = false) ∧
    (∃ c u bs, Executes sealable c (.shapeSeal false (.s 4) (.s 0)) ∧
      readLane sealable sealable c (c.lanes.headD 0) (c.grp.sPair 0) 96 = .val u bs ∧ shapeOk (leValue bs) = true) ∧
    (∃ c u bs, Executes (withHandles 64 false sealable) c (.shapeSeal false (.s 4) (.s 0)) ∧
      readLane (withHandles 64 false sealable) (withHandles 64 false sealable) c (c.lanes.headD 0) (c.grp.sPair 0) 96 = .val u bs ∧
      shapeOk (leValue bs) = true) ∧
    (∃ k, Tab.get? (withHandles 64 false sealable).cores 0 = some k ∧ ∀ h < 64, (Tab.get? k.shapes h).isSome = true) ∧
    (∃ k, Tab.get? (withHandles 63 false sealable).cores 0 = some k ∧ Tab.get? k.shapes 63 = none ∧ Tab.wf k.shapes = true ∧
      (∀ m < 63, (Tab.get? k.shapes m).isSome = true)) ∧
    (∃ c, Executes (withHandles 63 false base) c (.shapeDrop false (.s 2)) ∧ (c.grp.uniVal (.s 2)).toNat = 0 ∧ c.t = 2) ∧
    (∃ c, Executes (withHandles 63 true base) c (.shapeDrop false (.s 2)) ∧ (c.grp.uniVal (.s 2)).toNat = 0) ∧
    (∃ c, Executes base c (.shapeDrop false (.s 2)) ∧ (c.grp.uniVal (.s 2)).toNat = 0 ∧
      (match Tab.get? base.cores c.team.pcore with | some k => (Tab.get? k.shapes 0).isNone | none => false) = true) := by
  have go : ∀ (s : State) (ok : Bool), can s (.shapeSeal false (.s 4) (.s 0)) (fun c => decide (valThen
      (readLane s s c (c.lanes.headD 0) (c.grp.sPair 0) 96) (fun _ bs => shapeOk (leValue bs) == ok) = true)) = true →
      ∃ c u bs, Executes s c (.shapeSeal false (.s 4) (.s 0)) ∧
        readLane s s c (c.lanes.headD 0) (c.grp.sPair 0) 96 = .val u bs ∧ shapeOk (leValue bs) = ok := by
    intro s ok h
    obtain ⟨c, he, h1⟩ := exists_exec h
    obtain ⟨u, bs, hv, hr⟩ := val_then h1
    exact ⟨c, u, bs, he, hv, beq_iff_eq.1 hr⟩
  exact ⟨exists_exec (by decide +kernel), go _ _ (by decide +kernel), go _ _ (by decide +kernel), go _ _ (by decide +kernel),
    exists_some (by decide +kernel), exists_some (by decide +kernel), exists_exec (by decide +kernel),
    exists_exec (by decide +kernel), exists_exec (by decide +kernel)⟩

/-- With a room key on core 0 and a request in s2. -/
def keyed (k : RoomKey) (n : Nat) : State := sset 2 (BitVec.ofNat 32 n) (base.modCore 0 fun K => { K with key := k })

set_option maxRecDepth 100000 in
/-- LEASE.GET of 0, of 2^31 and of more; with no key in force, with a free one, with its own queue's and with another's;
LEASE.PUT with each. -/
theorem witness_leases :
    (∃ k P Q, Tab.get? base.cores 0 = some k ∧ Tab.get? base.parts 0 = some P ∧ Tab.get? P.queues 0 = some Q ∧ k.key.en = false) ∧
    (∀ x ∈ [((⟨0, 0, false, false⟩ : RoomKey), 0), (⟨0, 0, false, false⟩, 2 ^ 31 + 1), (⟨0, 0, false, false⟩, 2 ^ 31),
        (⟨0, 0, false, true⟩, 5), (⟨9, 0, true, true⟩, 1), (⟨9, 1, true, true⟩, 1)],
      (∃ c, Executes (keyed x.1 x.2) c (.leaseGet false (.s 4) (.s 2)) ∧ (c.grp.uniVal (.s 2)).toNat = x.2 ∧ c.grid.queue = 0) ∧
      ∃ c, Executes (keyed x.1 x.2) c (.leasePut false)) := by
  refine ⟨⟨_, _, _, rfl, rfl, rfl, rfl⟩, ?_⟩
  have h : [((⟨0, 0, false, false⟩ : RoomKey), 0), (⟨0, 0, false, false⟩, 2 ^ 31 + 1), (⟨0, 0, false, false⟩, 2 ^ 31),
        (⟨0, 0, false, true⟩, 5), (⟨9, 0, true, true⟩, 1), (⟨9, 1, true, true⟩, 1)].all (fun x =>
      can (keyed x.1 x.2) (.leaseGet false (.s 4) (.s 2)) (fun c => decide ((c.grp.uniVal (.s 2)).toNat = x.2 ∧ c.grid.queue = 0)) &&
      can (keyed x.1 x.2) (.leasePut false) (fun _ => true)) = true := by decide +kernel
  intro x hx
  have := List.all_eq_true.1 h x hx
  rw [Bool.and_eq_true] at this
  obtain ⟨c, hc, _⟩ := executes_of this.2
  exact ⟨exists_exec this.1, c, hc⟩
/-! ## Operations, the Concierge, work graphs -/

/-- An operation of the staged team on core 0: 4 bytes from an address to another. -/
def anOp (src dst : Nat) (token : Option Nat) (aborted : Bool) : EngineOp :=
  ⟨2, 1, 0, 0, 0, none, [0, 1], src, 4, dst, 4, none, none, [], 0, 4, token, aborted, none, []⟩

/-- With that operation as number 50. -/
def busy (o : EngineOp) : State := { base with ops := [(50, o)] }

/-- A condition on what an engine's places come to: failed, or places. -/
def enginePlace (s : State) (a : Nat) (k : AccKind) : Option (State × List (Option Place)) :=
  match enginePlaces (stagedGrid 1).space 0 k s ((List.range 4).map (fun i => some (a + i))) with
  | .ok r => some r
  | .error _ => none

set_option maxRecDepth 100000 in
/-- An operation whose source and destination translate to themselves, none of it remote; one with a source that does not translate,
one with such a destination; one with its second source byte's sector poisoned; one that waits, one that is aborted; each with its
team and grid. -/
theorem witness_operations :
    (∀ o ∈ [anOp 0x401000 0x402000 none false, anOp 0x401000 0x402000 (some 7) false, anOp 0x401000 0x402000 none true],
      Tab.get? (busy o).ops 50 = some o ∧ (Tab.get? (busy o).teams 2).isSome = true ∧ Tab.get? (busy o).grids 1 = some (stagedGrid 1)) ∧
    has (enginePlace (busy (anOp 0x401000 0x402000 none false)) 0x401000 .engineRead) (fun r =>
      decide (r.2 = (List.range 4).map (fun i => some (.phys (0x401000 + i)))) &&
      has (enginePlace r.1 0x402000 .engineWrite) (fun q => decide (q.2 = (List.range 4).map (fun i => some (.phys (0x402000 + i)))))) = true ∧
    (∀ i < 4, remotePa (0x401000 + i) = false) ∧
    enginePlace (busy (anOp 0x40000000 0x402000 none false)) 0x40000000 .engineRead = none ∧
    enginePlace (busy (anOp 0x401000 0x40000000 none false)) 0x40000000 .engineWrite = none ∧
    ((busy (anOp 0x401000 0x402000 none false)).setPoison 0x401020 true).poisoned (0x40101F + 1) = true ∧
    ((busy (anOp 0x401000 0x402000 none false)).setPoison 0x401020 true).poisoned (0x40101F + 0) = false := by
  refine ⟨?_, by decide +kernel, by decide +kernel, by decide +kernel, by decide +kernel, by decide +kernel, by decide +kernel⟩
  intro o _
  exact ⟨by simp [busy, Tab.get?], (by decide +kernel : (Tab.get? base.teams 2).isSome = true),
    (by decide +kernel : Tab.get? base.grids 1 = some (stagedGrid 1))⟩

set_option maxRecDepth 100000 in
/-- An aborted operation whose device has not answered a write yet does not end; once it has, it ends (R108, R363). -/
theorem test_aborted_operation : (let o (a : Option (Bool × ReplyBytes)) : EngineOp := { anOp 0x401000 0x402000 none true with
      remote := [⟨.write, 0, 2 ^ 55 + 0x100, 4, 0, 1, 0, a⟩] }
    let left (s : State) : Option Bool := match exec (.engineOpStop 50) s with
      | .next t => some (Tab.get? t.ops 50).isSome
      | _ => none
    (left (busy (o none)), left (busy (o (some (false, ⟨[0], []⟩)))))) = (some true, some false) := by decide +kernel

/-- Chains whose output is bytes: none, one that expands a literal and a match, one that a bad match stops. -/
theorem witness_chains :
    runChain (.known 4) [] true ⟨[1, 2, 3, 4].map .ok, none⟩ = ⟨[1, 2, 3, 4].map .ok, none⟩ ∧
    runChain (.known 4) [1] true ⟨[0, 9, 0x82, 0].map .ok, none⟩ = ⟨[9, 9, 9, 9].map .ok, none⟩ ∧
    runChain (.known 4) [1] true ⟨[0, 9, 0x82, 1].map .ok, none⟩ = ⟨[9].map .ok, some (3, some 2)⟩ := ⟨rfl, rfl, rfl⟩

/-- Streams and records that the clauses about the stages speak of: a literal and a match; conversions from .f32 to .f16, to a
format of 8 bits and from one of 4; a transposition of 2 by 3; an expansion of one block; a factor of −128 and one of 0. -/
theorem witness_stages : Expands [0, 9, 0x82, 0] [] [9, 9, 9, 9] ∧
    (let f (st lo n : Nat) : Nat := st / 2 ^ lo % 2 ^ n
     ∀ st ∈ [2 + 2 ^ 12, 2 + 3 * 2 ^ 12 + 0x6A * 2 ^ 32, 2 + 3 * 2 ^ 8 + 0x80051 * 2 ^ 32], f st 0 8 = 2 ∧ f st 8 3 ≤ 3 ∧ f st 12 3 ≤ 3 ∧
      ¬(f st 8 3 = 3 ∧ f st 12 3 = 3)) ∧
    (let st := 3 + 2 * 2 ^ 8 + 2 ^ 16 + 2 * 2 ^ 32
     st % 2 ^ 8 = 3 ∧ 24 = (st / 2 ^ 16 % 2 ^ 16 + 1) * (st / 2 ^ 32 % 2 ^ 16 + 1) * 2 ^ (st / 2 ^ 8 % 2 ^ 3)) ∧
    ((4 + 0x6A * 2 ^ 32) % 2 ^ 8 = 4 ∧ (List.replicate 16 0x3C).length = 16 ∧ ∀ x ∈ List.replicate 16 0x3C, x < 2 ^ 4 * 2 ^ 4) ∧
    (∃ neg m e, (0 : Int) ≠ -128 ∧ (Desc.ofWord 0x6A).value 0x3C = .fin neg m e ∧ ((e + 0 + f32.one).toNat : Int) - (0 : Nat) = e + 0 + f32.one) := by
  refine ⟨?_, by decide, by decide, by decide, ⟨false, 4, 13, by decide +kernel⟩⟩
  refine .literal (t := 0) (bs := [9]) (rest := [0x82, 0]) (by decide) (by decide) ?_
  exact .back (t := 0x82) (d := 0) (cs := [9, 9, 9]) (rest := []) (by decide) (by decide) (by decide) (by decide) (.done _)

set_option maxRecDepth 100000 in
/-- What the end of an operation asks for, and a stop's codes. -/
theorem witness_operation_ends : (∃ k, Tab.get? (busy (anOp 0x401000 0x402000 none false)).cores 0 = some k ∧ Tab.wf k.locks = true) ∧
    Tab.wf (busy (anOp 0x401000 0x402000 none false)).ops = true ∧
    (∃ T, Tab.get? base.teams 2 = some T ∧ Store.wf T.scratch = true) ∧ (∀ x, some (4, 0) = some x → (x : Nat × Nat).1 < 256) :=
  ⟨exists_some (by decide +kernel), by decide +kernel, exists_some (by decide +kernel), by rintro x ⟨⟩; decide⟩

/-- With queue 0 in use: a ring of one packet at 0x401000. -/
def ringed (p : Nat) : State := (base.writePhys 0x401000 (toBytes 128 p)).modQueue 0 0 fun Q =>
  { Q with qbase := 0x401000, qlog := 0, en := true, tail := 1, rootMode := 10, rootPpn := BitVec.ofNat 44 (stagedTables / 4096) }

/-- Whether the Concierge would take the packet, and what it says of it. -/
def taking (s : State) : Option (BitVec 32 × Nat) :=
  match s.queue? 0 0 with
  | some Q =>
    if s.partUp 0 = true ∧ Q.en = true ∧ Q.err = false ∧ Q.cmd = 0 ∧ Q.rootMode = 10 ∧ Q.head ≠ Q.tail ∧ Q.wait = .none then
      some (Q.tail, packetStatus (BitVec.ofNat 1024 (leValue (s.bytes (Q.qbase.toNat + 128 * (Q.head.toNat % 2 ^ Q.qlog.toNat)) 128))))
    else none
  | none => none

/-- A grid that waits for a dependence word at 0x401000. -/
def dependent : State := base.modGrid 1 fun g =>
  { g with depOk := false, packet := g.packet ||| BitVec.ofNat 1024 (0x401000 * 2 ^ 512) }

set_option maxRecDepth 100000 in
/-- A queue with nothing to take; one with a packet that fails and one with a packet that passes; a grid that waits for its word, and
one that does not. -/
theorem witness_packets : (∃ Q, base.queue? 0 0 = some Q ∧ Q.en = false) ∧ taking base = none ∧
    has (taking (ringed 0)) (fun x => x.2 != 0) = true ∧ has (taking (ringed smallPacket)) (fun x => x.2 == 0) = true ∧
    (BitVec.ofNat 1024 smallPacket).extractLsb' 640 64 = 0 ∧
    (∃ g, Tab.get? base.grids 1 = some g ∧ g.depOk = true) ∧
    (∃ g, Tab.get? dependent.grids 1 = some g ∧ g.depOk = false ∧ g.aborted = false ∧ g.wait = .none ∧ dependent.partUp g.part = true ∧
      (match conciergeRead dependent 1 g.space (g.packet.extractLsb' 512 64).toNat 4 with
        | .val u _ => u.grids == dependent.grids
        | _ => false) = true) :=
  ⟨exists_some (by decide +kernel), by decide +kernel, by decide +kernel, by decide +kernel, by decide +kernel,
    exists_some (by decide +kernel), exists_some (by decide +kernel)⟩

/-- The staged machine with its one team yet to be admitted. -/
def unseated : State := { base with teams := [], grids := [(1, { stagedGrid 1 with next := 0, liveTeams := 0 })] }

set_option maxRecDepth 100000 in
/-- In a partition of one core a team that fits is placed there. -/
theorem place_one {s : State} {P : Part} {n : Need} {pcore : Nat} (hc : P.cfg.cores = [pcore])
    (h : ∀ r < 4, (s.fits pcore r n).isSome = true) : ∃ x, s.placeTeam P n = some x := by
  obtain ⟨a, ha⟩ := Option.isSome_iff_exists.1 (fits_some h (Config.rotation s.fresh))
  have hw : P.window = [0] := by simp [Part.window, hc, Nat.mod_one, circular]
  refine ⟨(0, a), ?_⟩
  simp [State.placeTeam, hw, hc, ha]

set_option maxRecDepth 100000 in
/-- A partition with nothing to admit, and one whose queue 0 puts a team forward that is placed. -/
theorem witness_admission :
    (∃ P, Tab.get? base.parts 0 = some P ∧ ∀ q ∈ serveOrder P (base.goesAhead 0), base.admitNext 0 q = none) ∧
    (∃ P, Tab.get? unseated.parts 0 = some P ∧ unseated.partUp 0 = true ∧
      serveOrder P (unseated.goesAhead 0) = [] ++ 0 :: (serveOrder P (unseated.goesAhead 0)).tail ∧
      (∃ Q, Tab.get? P.queues 0 = some Q ∧ Q.restore = [] ∧ Q.cmd ≠ 1 ∧ Q.cmd ≠ 3) ∧
      (∃ n g ahead, unseated.forward 0 0 = some (n, g, ahead) ∧ Tab.get? unseated.grids n = some g ∧ g.queue = 0 ∧ g.wg = none ∧
        g.next < (g.packet.extractLsb' 160 32).toNat ∧ ∃ x, unseated.placeTeam P (packetNeed g.packet g.tenant) = some x) ∧
      (Tab.get? unseated.cores (P.cfg.cores.getD 0 0)).isSome = true) ∧
    (stagedPacket.extractLsb' 192 6).toNat + 1 = 4 ∧ (stagedPacket.extractLsb' 224 20).toNat ≤ 524288 := by
  refine ⟨⟨stagedPart, by decide +kernel, by decide +kernel⟩, ⟨stagedPart, by decide +kernel, by decide +kernel, by decide +kernel,
    ⟨Queue.reset, by decide +kernel⟩, ⟨1, { stagedGrid 1 with next := 0, liveTeams := 0 }, false, by decide +kernel, by decide +kernel,
      by decide +kernel, by decide +kernel, by decide +kernel, place_one (pcore := 0) rfl (by decide +kernel)⟩, by decide +kernel⟩,
    by decide +kernel, by decide +kernel⟩

/-- With a child grid and another packet's grid that wait for teams. -/
def waitingGrids : State := { base with grids := [(1, { stagedGrid 1 with next := 0 }), (5, { stagedGrid 5 with next := 0 }),
  (7, { stagedGrid 7 with next := 0, parent := some 1 }), (9, { stagedGrid 9 with next := 0, parent := some 1 })] }

/-- The lowest child grid comes before a packet's grids, and the earliest of these comes first where there is no child. -/
theorem witness_forward : Tab.wf waitingGrids.grids = true ∧
    (∃ g, Tab.get? waitingGrids.grids 7 = some g ∧ (7, g) ∈ waitingGrids.grids ∧ g.part = 0 ∧ g.queue = 0 ∧ g.unadmitted = true ∧
      (g.parent.isSome = true ∧ g.shadesFor = none)) ∧
    (∀ x ∈ waitingGrids.grids, x.2.parent.isSome = true ∧ x.2.shadesFor = none → 7 ≤ x.1) ∧
    (∃ g, Tab.get? ({ waitingGrids with grids := waitingGrids.grids.take 2 } : State).grids 1 = some g ∧ g.unadmitted = true ∧ g.parent = none) ∧
    (∀ x ∈ waitingGrids.grids.take 2, x.2.parent = none ∧ (x.1 ≠ 1 → 1 < x.2.order)) ∧ stagedPart.lastQueue < 64 :=
  ⟨by decide +kernel, exists_some (by decide +kernel), by decide +kernel, exists_some (by decide +kernel), by decide +kernel, by decide +kernel⟩

/-- The staged team with all of its groups ended, and its grid with that team gone. -/
def ended : State := base.modTeam 2 fun T => { T with groups := T.groups.map (fun e => (e.1, { e.2 with ended := true })) }
def emptied (crec cnt : Nat) : State := { base with
  teams := []
  grids := [(1, { stagedGrid 1 with liveTeams := 0, packet := stagedPacket ||| BitVec.ofNat 1024 (crec * 2 ^ 384 + cnt * 2 ^ 448) })] }

/-- Whether a grid is over. -/
def isOver (s : State) (n : Nat) (g : Grid) : Bool :=
  decide (g.liveTeams = 0 ∧ (g.aborted = true ∨ (g.packet.extractLsb' 160 32).toNat ≤ g.next) ∧ g.liveKids = 0) &&
  s.cores.all (fun k => k.2.raster.all (fun t => t.grid != n))

/-- Whether a walk left everything but what it settles of the frame, and the places lie in this device. -/
def keeps (s v : State) (ps : List Place) : Bool :=
  decide (v = { s with mem := v.mem, enc := v.enc, prot := v.prot }) && ps.all (fun p => !p.remote)

set_option maxRecDepth 100000 in
/-- A team that is over and one that is not; a grid that is over, with a completion record, with a counter and with neither, and one
that is not over; a core to scrub and one not to. -/
theorem witness_ends :
    (∃ T, Tab.get? ended.teams 2 = some T ∧ (Tab.get? ended.grids T.grid).isSome = true ∧ (Tab.get? ended.cores T.pcore).isSome = true ∧
      Tab.wf ended.teams = true ∧ T.wg = none ∧ (∀ G ∈ T.groups, G.2.ended = true) ∧ ∀ o ∈ ended.ops, o.2.team ≠ 2) ∧
    (∃ T, Tab.get? base.teams 2 = some T ∧ ¬∀ G ∈ T.groups, G.2.ended = true) ∧
    (∃ g, Tab.get? base.grids 1 = some g ∧ g.liveTeams ≠ 0) ∧
    (∃ g, Tab.get? (emptied 0 0).grids 1 = some g ∧ isOver (emptied 0 0) 1 g = true ∧ Tab.wf (emptied 0 0).grids = true ∧
      (∃ P, Tab.get? (emptied 0 0).parts g.part = some P ∧ ∃ Q, Tab.get? P.queues g.queue = some Q ∧ Q.cmd ≠ 3) ∧
      g.shadesFor = none ∧ g.wg = none ∧ g.recordDone = false ∧ g.counterDone = false ∧ g.wait = .none) ∧
    (∃ g, Tab.get? (emptied 0x401000 0).grids 1 = some g ∧ isOver (emptied 0x401000 0) 1 g = true ∧
      (match unitPlaces (emptied 0x401000 0) .none g.space .store 0x401000 16 with
        | .val v ps => keeps (emptied 0x401000 0) v ps | _ => false) = true) ∧
    (∃ g, Tab.get? (emptied 0x401000 0x401044).grids 1 = some g ∧ isOver (emptied 0x401000 0x401044) 1 g = true ∧
      (match unitPlaces (emptied 0x401000 0x401044) .none g.space .store 0x401000 16 with
        | .val v ps =>
          let w := ((v.performBytes 0 (ps.map (fun p => (p, 0)))).dropReplies 1).modGrid 1 fun g => { g with recordDone := true }
          keeps (emptied 0x401000 0x401044) v ps && match unitPlaces w .none g.space .atomic 0x401044 4 with
            | .val x (.phys a :: rest) => keeps w x (.phys a :: rest) | _ => false
        | _ => false) = true) ∧
    (∃ g, Tab.get? (emptied 0 0x401004).grids 1 = some g ∧ isOver (emptied 0 0x401004) 1 g = true ∧
      (match unitPlaces (emptied 0 0x401004) .none g.space .atomic 0x401004 4 with
        | .val v (.phys a :: rest) => keeps (emptied 0 0x401004) v (.phys a :: rest) | _ => false) = true) ∧
    (∃ k, Tab.get? ({ unseated with grids := [(1, { stagedGrid 1 with next := 0, tenant := 5 })] } : State).cores 0 = some k ∧ k.tag = some 0 ∧
      ({ unseated with grids := [(1, { stagedGrid 1 with next := 0, tenant := 5 })] } : State).wantsScrub 0 0 = true) ∧
    base.wantsScrub 0 0 = false := by
  refine ⟨exists_some (by decide +kernel), exists_some (by decide +kernel), exists_some (by decide +kernel), ?_,
    exists_some (by decide +kernel), exists_some (by decide +kernel), exists_some (by decide +kernel), exists_some (by decide +kernel), by decide +kernel⟩
  exact ⟨_, rfl, by decide +kernel, by decide +kernel, ⟨_, rfl, _, rfl, by decide +kernel⟩, by decide +kernel, by decide +kernel,
    by decide +kernel, by decide +kernel, by decide +kernel⟩

/-- A node of a work graph with one port, to node 1 of two records at most. -/
def aNode (pending : List WgRecord) : WgNode := ⟨[(1, 2)], 0, 100, 2, 0, pending, [], 1, 1, false⟩

/-- The staged team as one of node 0's, with lane 0 of group 0 alone live; v0:v1 hold a bunk of it. -/
def noded : State := (vaddr 0x402000 solo |>.modTeam 2 fun T =>
    { T with wg := some ⟨0, [(0, 1)], [0x403000], [(0x402000, 0)], [], 0, false⟩ }).modGrid 1 fun g =>
  { g with wg := some ⟨[(0, aNode []), (1, { aNode [⟨0x404000, 0⟩] with ports := [] })], [], 0, []⟩ }

/-- What the three words ask of the team and its node. -/
def wgReady (s : State) (c : Ctx) (b : Nat) : Bool :=
  decide (c.lanes = [0] ∧ (c.grp.lane 0).helper = false) &&
  has (Tab.get? s.teams c.t) (fun T => has T.wg fun w => !w.done && w.pool == [0x403000] && Tab.get? w.left 0 == some 1 &&
    w.held.find? (fun h => h.1 == b) == some (b, 0) &&
    has (Tab.get? s.grids T.grid) (fun g => has g.wg fun G => has (Tab.get? G.nodes w.node) fun N => N.ports[0]? == some (1, 2)))

set_option maxRecDepth 100000 in
/-- WG.RESERVE, WG.EMIT and WG.DONE of a node's team and of no node's; a node that forms a team because enough records wait, because
its producers are closed and because a record is late, and one that does not. -/
theorem witness_work_graphs :
    (∃ c, Executes noded c (.wgReserve false (.v 4) (.s 2)) ∧ wgReady noded c 0x402000 = true ∧ (c.grp.uniVal (.s 2)).toNat = 0) ∧
    (∃ c, Executes noded c (.wgEmit false (.v 0)) ∧ wgReady noded c (c.grp.pairVal (c.grp.lane 0) (.v 0)) = true) ∧
    (∃ c, Executes noded c (.wgDone false) ∧ wgReady noded c 0x402000 = true) ∧
    (∀ i ∈ [Instr.wgReserve false (.v 4) (.s 2), .wgEmit false (.v 0), .wgDone false], ∃ c, Executes base c i ∧
      has (Tab.get? base.teams c.t) (fun T => T.wg.isNone) = true ∧ (∀ l ∈ c.lanes, (c.grp.lane l).helper = false) ∧ c.lanes ≠ [] ∧
      c.grp.handlers.length ≤ c.level) ∧
    ((aNode [⟨1, 0⟩, ⟨2, 0⟩]).pending ≠ [] ∧ (aNode [⟨1, 0⟩, ⟨2, 0⟩]).thresh ≤ (aNode [⟨1, 0⟩, ⟨2, 0⟩]).pending.length) ∧
    (let N := aNode [⟨1, 0⟩]; N.pending ≠ [] ∧ ¬N.thresh ≤ N.pending.length ∧ ∀ m ∈ [(0, N)], (∃ p ∈ m.2.ports, p.2 ≠ 0 ∧ p.1 = 0) → m.2.closed = true) ∧
    ((aNode [⟨1, 0⟩]).timeout ≠ 0 ∧ 0 + (aNode [⟨1, 0⟩]).timeout ≤ 100 ∧ ¬0 + (aNode [⟨1, 0⟩]).timeout ≤ 99) ∧
    (∃ G, Tab.get? noded.grids 1 = some G ∧ has G.wg (fun w => (Tab.get? w.nodes 1).isSome) = true) := by
  refine ⟨exists_exec (by decide +kernel), exists_exec (by decide +kernel), exists_exec (by decide +kernel), ?_, by decide, by decide,
    by decide, exists_some (by decide +kernel)⟩
  have h : [Instr.wgReserve false (.v 4) (.s 2), .wgEmit false (.v 0), .wgDone false].all (fun i => can base i fun c =>
      decide (has (Tab.get? base.teams c.t) (fun T => T.wg.isNone) = true ∧ (∀ l ∈ c.lanes, (c.grp.lane l).helper = false) ∧ c.lanes ≠ [] ∧
      c.grp.handlers.length ≤ c.level)) = true := by decide +kernel
  exact fun i hi => exists_exec (List.all_eq_true.1 h i hi)

/-- As `noded`, with lane 1 live too, the word's port in s2, and the team's bunks as given. -/
def bunked (port : Nat) (f : WgTeam → WgTeam) : State :=
  (sset 2 (BitVec.ofNat 32 port) (noded |> inGroup fun G => G.mapLanes [1] (fun _ L => { L with live := true }))).modTeam 2 fun T =>
    { T with wg := T.wg.map f }

/-- The team's bunks and its node in such a state. -/
def wgOf (s : State) (c : Ctx) (p : WgTeam → WgNode → Bool) : Bool :=
  decide ((∀ l ∈ c.lanes, (c.grp.lane l).helper = false) ∧ c.lanes = [0, 1] ∧ c.grp.handlers.length ≤ c.level) &&
  has (Tab.get? s.teams c.t) (fun T => has T.wg fun w => has (Tab.get? s.grids T.grid) fun g => has g.wg fun G =>
    has (Tab.get? G.nodes w.node) fun N => p w N)

set_option maxRecDepth 100000 in
/-- WG_FAULT's subcodes: after WG.DONE, on a port not declared, on a bunk not held, on a reservation used up, for both lanes and for
the second alone. -/
theorem witness_wg_faults :
    (∃ c, Executes (bunked 0 fun w => { w with done := true }) c (.wgReserve false (.v 4) (.s 2)) ∧
      wgOf (bunked 0 fun w => { w with done := true }) c (fun w _ => w.done) = true) ∧
    (∃ c, Executes (bunked 1 id) c (.wgReserve false (.v 4) (.s 2)) ∧ (c.grp.uniVal (.s 2)).toNat = 1 ∧
      wgOf (bunked 1 id) c (fun w N => !w.done && N.ports[1]?.isNone) = true) ∧
    (∃ c, Executes (bunked 0 fun w => { w with held := [] }) c (.wgEmit false (.v 0)) ∧
      wgOf (bunked 0 fun w => { w with held := [] }) c (fun w _ => !w.done && w.held.isEmpty) = true) ∧
    (∃ c, Executes (bunked 0 id) c (.wgReserve false (.v 4) (.s 2)) ∧ c.lanes = [0] ++ [1] ∧ (c.grp.uniVal (.s 2)).toNat = 0 ∧
      wgOf (bunked 0 id) c (fun w N => !w.done && N.ports[0]? == some (1, 2) && (w.pool.take 1).length == 1 &&
        (Tab.get? w.left 0).getD 0 == 1) = true) ∧
    (∃ c, Executes (bunked 0 fun w => { w with left := [] }) c (.wgReserve false (.v 4) (.s 2)) ∧
      wgOf (bunked 0 fun w => { w with left := [] }) c (fun w N => !w.done && N.ports[0]? == some (1, 2) &&
        (Tab.get? w.left 0).getD 0 == 0) = true) :=
  ⟨exists_exec (by decide +kernel), exists_exec (by decide +kernel), exists_exec (by decide +kernel), exists_exec (by decide +kernel),
    exists_exec (by decide +kernel)⟩

set_option maxRecDepth 100000 in
/-- The second lane finds the reservation used up; the first has its bunk (R264). -/
theorem test_reservation_used_up : (let o := exec (.wgReserve false (.v 4) (.s 2)) (bunked 0 id)
    (vOf o 0 4, grpOf o (·.stopped))) = (some 0x403000, some true) := by decide +kernel

/-- The staged team as node 0's, over, and its grid with a node 1 that it fed. -/
def overNode (pending : List WgRecord) : State := (ended.modTeam 2 fun T => { T with wg := some ⟨0, [], [0x403000], [(0x402000, 0)], [], 0, false⟩ }).modGrid 1 fun g =>
  { g with next := 1, wg := some ⟨[(0, aNode []), (1, { aNode pending with ports := [], depth := 1, live := 0 })], [], 0, []⟩ }

set_option maxRecDepth 100000 in
/-- The end of a node's team, with and without a record waiting at the node it fed: what it asks for, and which nodes are closed then. -/
theorem witness_node_ends : ∀ pending ∈ [[], [(⟨0x404000, 0⟩ : WgRecord)]],
    has (Tab.get? (overNode pending).teams 2) (fun T => T.groups.all (fun G => G.2.ended) && has T.wg (fun w => w.node == 0) &&
      has (Tab.get? (overNode pending).grids T.grid) (fun g => has g.wg fun G => Tab.wf G.nodes &&
        G.nodes.all (fun N => N.2.ports.all (fun p => has (Tab.get? G.nodes p.1) fun M => decide (N.2.depth < M.depth))) &&
        G.nodes.any (fun m => !m.2.closed) && !g.aborted)) = true ∧ (overNode pending).ops = [] ∧
    (match exec (.teamEnd 2) (overNode pending) with
      | .next t => (Tab.get? t.grids 1).bind (fun g => g.wg.map fun G => (G.free, G.nodes.map (fun N => N.2.closed)))
      | _ => none) = some ([0x403000, 0x402000], [true, pending.isEmpty]) := by decide +kernel

set_option maxRecDepth 100000 in
/-- A grid's retirement places what a ring of its partition holds back (R389). -/
theorem test_retirement_places : (match exec (.gridRetire 1) ({ emptied 0 0 with time := 6 }.modPart 0 fun P => { P with rings := Tab.put P.rings 0 guests }) with
    | .next t => (Tab.get? t.parts 0).bind (fun P => (Tab.get? P.rings 0).map (fun r => (r.produce, r.waiting)))
    | _ => none) = some (65, []) := by decide +kernel
/-! ## Walks, faults, invalidations, migrations, saves and restores -/

/-- The staged space; the staged machine with a last table on a page, which has an entry for address 0x1000. -/
def sp0 : Space := (stagedGrid 1).space
def tabled (ppn e : Nat) : State := (base.writePhys 0x603000 (toBytes 8 (ppn * 2 ^ 10 + 1))).writePhys (4096 * ppn + 8) (toBytes 8 e)

/-- The walk for address 0x1000 comes to the page that the last pointer names. -/
theorem walks_to {s : State} (ppn : Nat) (h : ∀ x ∈ [(0x600, 0x601), (0x601, 0x602), (0x602, 0x603), (0x603, ppn)],
    s.poisoned (x.1 * 4096) = false ∧ s.ownRange 0 (x.1 * 4096) 8 = true ∧ s.physValue (x.1 * 4096) 8 = x.2 * 2 ^ 10 + 1)
    (hp : ppn < 2 ^ 30) : Descends s sp0 0x1000 0 ppn := by
  have step : ∀ (level p q : Nat), Descends s sp0 0x1000 (level + 1) p → pteAt 0x1000 (level + 1) p = p * 4096 → q < 2 ^ 30 →
      (s.poisoned (p * 4096) = false ∧ s.ownRange 0 (p * 4096) 8 = true ∧ s.physValue (p * 4096) 8 = q * 2 ^ 10 + 1) →
      Descends s sp0 0x1000 level q := by
    intro level p q hd ha hq ⟨h1, h2, h3⟩
    have := Descends.pointer hd (by rw [ha]; exact h1) (by rw [ha]; exact h2) (by rw [ha, h3]; omega) (by rw [ha, h3]; omega)
      (by rw [ha, h3]; unfold Malformed; simp only; omega)
    rw [ha, h3] at this
    rwa [show (q * 2 ^ 10 + 1) / 2 ^ 10 % 2 ^ 44 = q by omega] at this
  exact step 0 0x603 ppn (step 1 0x602 0x603 (step 2 0x601 0x602 (step 3 0x600 0x601 .root rfl (by omega) (h (0x600, 0x601) (by simp)))
    rfl (by omega) (h (0x601, 0x602) (by simp))) rfl (by omega) (h (0x602, 0x603) (by simp))) rfl hp (h (0x603, ppn) (by simp))

/-- As a check, with a condition on the entry. -/
def walked (s : State) (ppn : Nat) (p : Nat → Bool) : Bool :=
  [(0x600, 0x601), (0x601, 0x602), (0x602, 0x603), (0x603, ppn)].all (fun x => decide (s.poisoned (x.1 * 4096) = false ∧
    s.ownRange 0 (x.1 * 4096) 8 = true ∧ s.physValue (x.1 * 4096) 8 = x.2 * 2 ^ 10 + 1)) && decide (ppn < 2 ^ 30) &&
  decide (Memory.wf s.mem = true ∧ Store.wf s.poison = true ∧ Store.wf s.enc = true ∧ Store.wf s.prot = true ∧ Memory.wf s.boot.flash = true) &&
  p (s.physValue (4096 * ppn + 8) 8)

theorem walked_to {s : State} {ppn : Nat} {p : Nat → Prop} [DecidablePred p] (h : walked s ppn (fun e => decide (p e)) = true) :
    s.Canonical ∧ Descends s sp0 0x1000 0 ppn ∧ p (s.physValue (pteAt 0x1000 0 ppn) 8) := by
  simp only [walked, Bool.and_eq_true, List.all_eq_true, decide_eq_true_eq] at h
  obtain ⟨⟨chain, canonical⟩, entry⟩ := h
  refine ⟨⟨canonical.1, canonical.2.1, canonical.2.2.1, canonical.2.2.2.1, canonical.2.2.2.2⟩, walks_to ppn chain.1 chain.2, ?_⟩
  rwa [show pteAt 0x1000 0 ppn = 4096 * ppn + 8 from by simp [pteAt]]

set_option maxRecDepth 100000 in
/-- Entries that end a walk in each way: poisoned, outside the partition's memory, V = 0 with L and without, malformed (a pointer at
level 0, W without R), no U, a frame outside the partition and one that GS takes to be in the pool but is not, a frame of the partition
and one of the pool, each with A and D clear. A core whose translation cache answers for address 0x401000, and one that has nothing. -/
theorem witness_walks : canonical 0x1000 = true ∧
    (let s := (tabled 0x604 0xDF).setPoison 0x604008 true
     (s.Canonical ∧ Descends s sp0 0x1000 0 0x604 ∧ s.physValue (pteAt 0x1000 0 0x604) 8 = 0xDF) ∧ s.poisoned 0x604008 = true) ∧
    (let s := tabled 0x20000000 0xDF
     (s.Canonical ∧ Descends s sp0 0x1000 0 0x20000000 ∧ s.physValue (pteAt 0x1000 0 0x20000000) 8 = 0xDF) ∧ s.ownRange 0 (4096 * 0x20000000 + 8) 8 = false) ∧
    (∀ e ∈ [0, 2 ^ 54, 1, 0xDD, 0xCF, 0x20000000 * 2 ^ 10 + 0xDF, 2 ^ 59 + 0x401 * 2 ^ 10 + 0xDF, 0x401 * 2 ^ 10 + 0x1F],
      ((tabled 0x604 e).Canonical ∧ Descends (tabled 0x604 e) sp0 0x1000 0 0x604 ∧ (tabled 0x604 e).physValue (pteAt 0x1000 0 0x604) 8 = e) ∧
      (tabled 0x604 e).poisoned 0x604008 = false ∧ (tabled 0x604 e).ownRange 0 0x604008 8 = true) ∧
    (∃ P, Tab.get? base.parts sp0.part = some P ∧ P.cfg.holds 0x401000 4096 = true ∧ P.cfg.holds (4096 * 0x20000000) 4096 = false ∧
      base.inPool 0x401000 4096 = false) ∧
    ({ base with boot := { base.boot with poolBase := 0x401000, poolSize := 4096 } } : State).inPool 0x401000 4096 = true ∧
    (∃ K, Tab.get? ({ base with cores := [(0, { Core.reset with tlb := [⟨0, 0, false, 0x401, 0, BitVec.ofNat 64 (0x401 * 2 ^ 10 + 0xDF)⟩] })] } : State).cores 0 = some K ∧
      ∃ x ∈ K.tlb, x.covers sp0 0x401000 = true ∧ leafGrants x.pte.toNat .store = true ∧ frameOk base sp0 x.pte.toNat x.level 0x401000 = none ∧
        x.pte.toNat / 2 ^ 6 % 2 = 1 ∧ x.pte.toNat / 2 ^ 7 % 2 = 1) ∧
    (∃ K, Tab.get? base.cores 0 = some K ∧ (∀ x ∈ K.tlb, x.covers sp0 0x401000 = false) ∧ K.walks = []) := by
  have h : ∀ e ∈ [0, 2 ^ 54, 1, 0xDD, 0xCF, 0x20000000 * 2 ^ 10 + 0xDF, 2 ^ 59 + 0x401 * 2 ^ 10 + 0xDF, 0x401 * 2 ^ 10 + 0x1F],
      walked (tabled 0x604 e) 0x604 (fun x => decide (x = e)) = true ∧
      (tabled 0x604 e).poisoned 0x604008 = false ∧ (tabled 0x604 e).ownRange 0 0x604008 8 = true := by decide +kernel
  exact ⟨by decide, ⟨walked_to (by decide +kernel), by decide +kernel⟩, ⟨walked_to (by decide +kernel), by decide +kernel⟩,
    fun e he => ⟨walked_to (p := fun x => x = e) (h e he).1, (h e he).2⟩, exists_some (by decide +kernel), by decide +kernel, exists_some (by decide +kernel),
    exists_some (by decide +kernel)⟩

/-- Partition 0 of the staged machine, changed. -/
def inPart (f : Part → Part) (s : State) : State := s.modPart 0 f

/-- A ring at 0x401000 of 16 records with n in it. -/
def someRing (n : Nat) (waiting : List (BitVec 256)) : Ring := ⟨0x401000, 4, true, BitVec.ofNat 32 n, 0, waiting⟩

/-- With lane 3 of group 0 parked on token 7, and an operation that waits on it. -/
def tokened : State := (inGroup (fun G => G.mapLanes [3] (fun _ L => { L with hold := .parked 7 }))
  { base with tokens := [(7, ⟨0, 0, 0x401, false⟩)], ops := [(50, anOp 0x401000 0x402000 (some 7) false)] })

/-- Rings with room, full, and full with a record of class 0 behind one of class 1. -/
theorem witness_rings : ((someRing 15 [5]).produce - (someRing 15 [5]).consume).toNat < 2 ^ (someRing 15 [5]).log.toNat ∧
    ¬((someRing 16 [5]).produce - (someRing 16 [5]).consume).toNat < 2 ^ (someRing 16 [5]).log.toNat ∧ (someRing 16 [5]).en = true ∧
    ({ someRing 15 [5] with en := false } : Ring).en = false ∧
    (BitVec.ofNat 256 1).extractLsb' 0 2 ≠ 0#2 ∧ (0 : BitVec 256).extractLsb' 0 2 = 0#2 :=
  ⟨by decide +kernel, by decide +kernel, rfl, rfl, by simp, by simp⟩

set_option maxRecDepth 100000 in
/-- A lane to park; rings that hold nothing; a token that lanes and an operation wait on, and one that is not there. -/
theorem witness_faults : (∃ c, base.issuer = some c ∧ has (Tab.get? base.teams c.t) (fun T => has (Tab.get? T.groups c.g) fun G =>
      (Tab.get? G.lanes 0).isSome) = true ∧ Tab.wf base.tokens = true) ∧
    (∃ P, Tab.get? base.parts 0 = some P ∧ P.fault.waiting = [] ∧ P.error.waiting = []) ∧
    (∃ k, Tab.get? tokened.tokens 7 = some k ∧ k.part = 0 ∧ Tab.wf tokened.tokens = true) ∧
    (∀ T ∈ tokened.teams, ∀ G ∈ T.2.groups, G.2.lanes.map (·.1) = List.range 32 ∧ ∀ L ∈ G.2.lanes, L.2.hold = .run ∨ L.2.hold = .parked 7) ∧
    (∃ o, Tab.get? tokened.ops 50 = some o ∧ o.token = some 7) ∧ Tab.get? base.tokens 7 = none :=
  ⟨exists_ctx (by decide +kernel), ⟨stagedPart, by decide +kernel⟩, exists_some (by decide +kernel), by decide +kernel, exists_some (by decide +kernel),
    by decide +kernel⟩

/-- With token i of every number below n of another page. -/
def withTokens (n : Nat) : State := { base with tokens := (List.range n).map fun i => (i, ⟨0, 1, i, true⟩) }

set_option maxRecDepth 100000 in
/-- A fault that joins a token, one that takes the lowest free token, and one that finds none. -/
theorem witness_token_joined : Tab.get? tokened.tokens 7 = some ⟨0, 0, 0x401, false⟩ ∧ 0x401FFF / 4096 = 0x401 ∧
    Tab.wf tokened.tokens = true := by decide +kernel

set_option maxRecDepth 100000 in
theorem witness_token_taken : (Tab.get? (withTokens 3).tokens 3).isSome = false ∧ (∀ m < 3, (Tab.get? (withTokens 3).tokens m).isSome = true) ∧
    Tab.wf (withTokens 3).tokens = true ∧ ∀ x ∈ (withTokens 3).tokens, x.2 ≠ ⟨0, 0, 0x401, false⟩ := by decide +kernel

theorem some_of_mem {α : Type} {m : Tab α} {i : Nat} {a : α} (h : (i, a) ∈ m) : (Tab.get? m i).isSome = true := by
  induction m with
  | nil => exact absurd h (by simp)
  | cons e m ih =>
    simp only [Tab.get?]
    split
    · rfl
    · next hi => exact ih ((List.mem_cons.1 h).resolve_left fun he => hi (by rw [← he]))

theorem tokens_taken (n : Nat) : (∀ i < n, (Tab.get? (withTokens n).tokens i).isSome = true) ∧
    ∀ x ∈ (withTokens n).tokens, x.2 ≠ ⟨0, 0, 0x401, false⟩ := by
  refine ⟨fun i hi => some_of_mem (List.mem_map.2 ⟨i, List.mem_range.2 hi, rfl⟩), fun x hx => ?_⟩
  obtain ⟨i, _, rfl⟩ := List.mem_map.1 hx
  simp

theorem witness_no_token : (∀ i < 1024, (Tab.get? (withTokens 1024).tokens i).isSome = true) ∧
    ∀ x ∈ (withTokens 1024).tokens, x.2 ≠ ⟨0, 0, 0x401, false⟩ := tokens_taken 1024

/-- The largest number that each field of a record holds. -/
theorem witness_record_fields : (2 : Nat) ^ 64 - 1 < 2 ^ 64 ∧ 0x100 + 31 + 2 < (2 : Nat) ^ 12 ∧ 15 < (2 : Nat) ^ 4 ∧ 4 < (2 : Nat) ^ 3 := by decide

set_option maxRecDepth 100000 in
/-- A store's fault at 0x401234 of the fourth token: its record's VA, TOKEN, KIND and CAUSE lie where R334 puts them. -/
theorem test_fault_record : (let u := (raiseFault (withTokens 3) ⟨0, 0, 0⟩ 0x401234 .store ⟨1, 0, false⟩ 5 0).1
    (Tab.get? u.parts 0).map (fun P => P.fault.waiting.map (fun x => [x.toNat / 2 ^ 128 % 2 ^ 64, x.toNat / 2 ^ 112 % 2 ^ 16,
      x.toNat / 2 ^ 84 % 2 ^ 12, x.toNat / 2 ^ 80 % 2 ^ 4, x.toNat / 2 ^ 76 % 2 ^ 4]))) = some [[0x401234, 3, 5, 1, 1]] := by decide +kernel

/-- A migration slot of one frame, from 0x401000 to an address. -/
def aSlot (dst : Nat) (state : BitVec 2) : MigSlot := ⟨0x401000, BitVec.ofNat 64 dst, 0, false, true, state, none⟩

set_option maxRecDepth 100000 in
/-- An invalidation that may start, one in progress; a filter clear in progress; migrations that start, that R343 refuses and that are
under way. -/
theorem witness_invalidations : (∃ P, Tab.get? base.parts 0 = some P ∧ P.inval.done = true ∧ P.inval.job = none ∧ P.fclr = false ∧
      (Tab.get? P.rings 15).isSome = true) ∧
    (∃ P, Tab.get? (inPart (fun P => { P with fclr := true, inval := ⟨0, 0, 1, 0x401000, false, some (0, 0, 1, 0x401000)⟩ }) base).parts 0 = some P ∧
      P.inval.done = false ∧ P.inval.job = some (0, 0, 1, 0x401000) ∧ P.fclr = true) ∧
    (∃ f ∈ ({ base with flowsOut := [⟨0, 5, 8, [⟨7, .read 0x40 4, 0⟩]⟩] } : State).flowsOut, f.unanswered ≠ []) ∧
    (∀ f ∈ ({ base with flowsOut := [⟨0, 5, 8, []⟩] } : State).flowsOut, f.unanswered = []) ∧
    (∃ P, Tab.get? (inPart (fun P => { P with mig := [(0, aSlot 0x402000 0), (1, aSlot 0x402001 2), (2, aSlot 0x402000 1)] }) base).parts 0 = some P ∧
      Tab.get? P.mig 0 = some (aSlot 0x402000 0) ∧ Tab.get? P.mig 1 = some (aSlot 0x402001 2) ∧ Tab.get? P.mig 2 = some (aSlot 0x402000 1)) ∧
    ((aSlot 0x402000 0).src.toNat % 2 ^ 12 = 0 ∧ (aSlot 0x402000 0).dst.toNat % 2 ^ 12 = 0 ∧ (aSlot 0x402000 0).src ≠ (aSlot 0x402000 0).dst ∧
      base.ownRange 0 0x401000 (2 ^ 12) = true ∧ base.ownRange 0 0x402000 (2 ^ 12) = true) ∧
    ¬(aSlot 0x402001 2).dst.toNat % 2 ^ 12 = 0 ∧
    base.Canonical ∧
    (∀ i < 2 ^ 12 / 4096, Store.get base.enc (0x401000 / 4096 + i) = 0) :=
  ⟨exists_some (by decide +kernel), exists_some (by decide +kernel), by simp, by simp, exists_some (by decide +kernel), by decide +kernel,
    by decide +kernel, ⟨by decide +kernel, by decide +kernel, by decide +kernel, by decide +kernel, by decide +kernel⟩, by decide +kernel⟩

/-- Queue 0 of the staged machine at a saving or restoring state, its area at 0x500000. -/
def areaed (rstat : BitVec 4) (cmd : BitVec 2) (csize : Nat) (s : State) : State :=
  s.modQueue 0 0 fun Q => 
    { Q with cbase := 0x500000, csize := BitVec.ofNat 64 csize, rstat := rstat, cmd := cmd, areaBase := 0x500000, areaSize := csize }

set_option maxRecDepth 100000 in
/-- A queue whose area can be used, free and busy; one with nothing left to wait for, with an area too small and just large enough;
a group that stops, of a grid that is aborted and of one that is not, and one that goes on. -/
theorem witness_saves :
    (∃ P, Tab.get? (areaed 0 0 0 base).parts 0 = some P ∧ Tab.wf (areaed 0 0 0 base).teams = true ∧ Tab.wf (areaed 0 0 0 base).grids = true ∧
      ∃ Q, Tab.get? P.queues 0 = some Q ∧ Q.rstat ≠ 1 ∧ Q.cbase.toNat % 4096 = 0 ∧ (areaed 0 0 0 base).ownRange 0 Q.cbase.toNat (max Q.csize.toNat 1) = true) ∧
    (∀ n ∈ [511, 512], ∃ P, Tab.get? (areaed 1 1 n unseated).parts 0 = some P ∧ ∃ Q, Tab.get? P.queues 0 = some Q ∧ Q.cmd = 1 ∧
      Q.rstat = 1 ∧ Q.areaSize = n ∧ Q.areaBase = 0x500000 ∧ (areaed 1 1 n unseated).saveReady 0 0 ((areaed 1 1 n unseated).savedGrids 0 0) = true) ∧
    unseated.areaNeed [1] = 512 ∧ (unseated.contextArea 1 [1]).length = 512 ∧ (unseated.savedGrids 0 0) = [1] ∧
    (∀ i < 512, remotePa (0x500000 + i) = false) ∧ Memory.wf unseated.mem = true ∧
    (∃ T G, Tab.get? (inGroup (fun G => { G with stopping := true }) base).teams 2 = some T ∧ Tab.get? T.groups 0 = some G ∧
      (G.lanes.map (·.1) = List.range 32 ∧ G.stopping = true ∧ G.runMask = 0 ∧ G.ended = false ∧ G.remote = [])) ∧
    (∃ g, Tab.get? ((inGroup (fun G => { G with stopping := true }) base).modGrid 1 fun g => { g with aborted := true }).grids 1 = some g ∧
      g.aborted = true) ∧
    (∃ T G, Tab.get? base.teams 2 = some T ∧ Tab.get? T.groups 0 = some G ∧ G.stopping = false) ∧
    ([1].Nodup ∧ (∀ n ∈ [1], (Tab.get? base.grids n).isSome = true) ∧ (∀ T ∈ base.teams, T.2.grid ∈ [1] → T.2.groups.length = T.2.ngroup)) ∧
    ((base.teamsOfGrids [1]).length < 2 ^ 32 ∧ (∀ T ∈ base.teams, T.2.groups.map (·.1) = List.range T.2.ngroup) ∧ ∀ l < 32, group.fragLane l < 32) := by
  have h2 : ∀ n ∈ [511, 512], has (Tab.get? (areaed 1 1 n unseated).parts 0) (fun P => has (Tab.get? P.queues 0) fun Q => decide (Q.cmd = 1 ∧
      Q.rstat = 1 ∧ Q.areaSize = n ∧ Q.areaBase = 0x500000 ∧ (areaed 1 1 n unseated).saveReady 0 0 ((areaed 1 1 n unseated).savedGrids 0 0) = true)) = true := by
    decide +kernel
  refine ⟨⟨_, rfl, by decide +kernel, by decide +kernel, ⟨_, rfl, by decide +kernel⟩⟩, ?_, by decide +kernel, by decide +kernel, by decide +kernel,
    by decide +kernel, by decide +kernel, exists_group (by decide +kernel), exists_some (by decide +kernel), exists_group (by decide +kernel),
    by decide +kernel, by decide +kernel⟩
  intro n hn
  have := h2 n hn
  cases hP : Tab.get? (areaed 1 1 n unseated).parts 0 with
  | none => rw [hP] at this; exact absurd this (by simp [has])
  | some P =>
    rw [hP] at this
    obtain ⟨Q, hQ⟩ := exists_some (this : has (Tab.get? P.queues 0) _ = true)
    exact ⟨P, rfl, Q, hQ⟩

/-- The staged machine with no grid and the saved area of the unseated one at 0x500000. -/
def saved : State := { areaed 0 0 0 (unseated.writePhys 0x500000 (unseated.contextArea 1 [1])) with grids := [] }

/-- Whether the area at 0x500000 can be read, and how many cores it asks for. -/
def areaCores (s : State) : Option Nat := (s.readArea 0 0x500000).map fun _ => bitsOf (s.physValue 0x500000 256) 96 32

set_option maxRecDepth 100000 in
/-- A queue with grids, one with an area that is none, one that asks for more cores than there are, one with too many child grids, one
that is restored. -/
theorem witness_restores : (areaed 0 0 0 base).gridsOf 0 0 ≠ [] ∧ saved.gridsOf 0 0 = [] ∧
    ({ areaed 0 0 0 unseated with grids := [] } : State).readArea 0 0x500000 = none ∧
    areaCores saved = some 1 ∧ areaCores (saved.writePhys 0x50000C [2]) = some 2 ∧
    (∃ P, Tab.get? (inPart (fun P => { P with kids := 4097 }) saved).parts 0 = some P ∧ 4096 < P.kids + 0 ∧ P.cfg.cores.length = 1) ∧
    (∃ P, Tab.get? saved.parts 0 = some P ∧ P.cfg.cores.length = 1 ∧ P.kids + 0 ≤ 4096 ∧
      ∃ Q, Tab.get? P.queues 0 = some Q ∧ Q.rstat ≠ 1 ∧ Q.en = false ∧ Q.cbase = 0x500000) :=
  ⟨by decide +kernel, by decide +kernel, by decide +kernel, by decide +kernel, by decide +kernel, exists_some (by decide +kernel),
    ⟨_, rfl, by decide +kernel, by decide +kernel, _, rfl, by decide +kernel⟩⟩

/-- A team of 8 registers and no tile. -/
def smallTeam : Team := newTeam 1 0 0 0 0 (BitVec.ofNat 1024 smallPacket) 0 [(0, [(0, 1)], [])] (0, 0) none

theorem range_written {m : Store 8} (h : Store.wf m = true) (bs : List Byte) (i : Nat) :
    Store.getRange (Store.setRange m i bs) i bs.length = bs := by
  rw [Store.getRange_eq]
  apply List.ext_getElem (by simp)
  intro k h1 h2
  simp [Store.get_setRange bs h, h2]

/-- Group 0 inside handlers: at a trap level, with its frames at the top of the staged team's scratchpad. -/
def nested (level : BitVec 2) : Group := { group with trapLevel := level }.setSPair 58 (windowBase + 522240)

set_option maxRecDepth 100000 in
theorem block_written (bs : List Byte) {n : Nat} (h : n = bs.length) :
    ({ base with mem := Store.setRange base.mem 0x500000 bs } : State).bytes 0x500000 n = bs := by
  have hw : Store.wf base.mem = true := by decide +kernel
  rw [h]; exact range_written hw _ _

set_option maxRecDepth 100000 in
/-- The block of a group in memory: one outside handlers, and one inside one and inside two. -/
theorem witness_group_block : ∀ level ∈ [(0 : BitVec 2), 1, 2],
    ({ base with mem := Store.setRange base.mem 0x500000 (groupBlock smallTeam (nested level)) } : State).bytes 0x500000
      (1024 + 128 * smallTeam.regs + 8192 * smallTeam.ztiles) = groupBlock smallTeam (nested level) ∧
    (nested level).lanes.map (·.1) = List.range 32 ∧ (nested level).trapLevel = level := by
  have h : ∀ level ∈ [(0 : BitVec 2), 1, 2],
      1024 + 128 * smallTeam.regs + 8192 * smallTeam.ztiles = (groupBlock smallTeam (nested level)).length ∧
      (nested level).lanes.map (·.1) = List.range 32 ∧ (nested level).trapLevel = level := by decide +kernel
  exact fun level hl => ⟨block_written _ (h level hl).1, (h level hl).2⟩

set_option maxRecDepth 100000 in
/-- A group made from a block inside two handlers: the frame of level 1 names lanes 3 and 4 as entered, that of level 2 lane 3. -/
theorem test_handlers_restored : (let s : State := { base with mem := Store.setRange [] 0 (groupBlock { smallTeam with regs := 0 } (nested 2)) }
    let H := s.restoredGroup ⟨0, 0, 0⟩ 0 0 0 [(522240 + 0x1B0, 8), (523264 + 0x1B0, 24)] 0 (0, [], [])
    (H.handlers.map (fun h => (h.enter, h.frame)), [2, 3, 4].map (fun l => (H.lane l).level))) =
    ([(24, BitVec.ofNat 64 (windowBase + 523264)), (8, BitVec.ofNat 64 (windowBase + 522240))], [0, 2, 1]) := by decide +kernel

set_option maxRecDepth 100000 in
/-- Grids and teams that a save writes, and an area in memory from which one grid is read. -/
theorem witness_area_grids : [1].Nodup ∧ (Tab.get? unseated.grids 1).isSome = true ∧
    (∀ T ∈ base.teams, T.2.groups.length = T.2.ngroup ∧ T.2.index < 2 ^ 32 ∧ T.2.core < 2 ^ 32 ∧ T.2.cluster < 2 ^ 32) ∧
    ∀ T ∈ base.teams, T.2.ngroup < 2 ^ 32 ∧ T.2.regs < 2 ^ 32 ∧ T.2.ztiles < 2 ^ 32 ∧ T.2.limit < 2 ^ 32 := by decide +kernel

set_option maxRecDepth 100000 in
theorem witness_area_bytes : (saved.bytes 0x500000 (unseated.contextArea 1 [1]).length == unseated.contextArea 1 [1]) = true := by
  decide +kernel

set_option maxRecDepth 100000 in
theorem witness_area_read : (match saved.readArea 0 0x500000 with
    | some (recs, heads) => decide (recs.length = 1) && heads.isEmpty
    | none => false) = true := by decide +kernel

/-- A saved team's block of one group of 8 registers, as far as its sizes; and the unseated machine with its queue restoring it. -/
def blockBytes : List Byte := toBytes 32 (2 ^ 128 + 8 * 2 ^ 160)
def readmitting : State := unseated.modQueue 0 0 fun Q =>
  { Q with rstat := 1, cmd := 2, areaBase := 0x500000, area := blockBytes, restore := [(0x500000, 1)] }

/-- Its partition. -/
def readmittingPart : Part := { stagedPart with queues := (readmitting.parts.headD (0, stagedPart)).2.queues }

/-- In a partition of one core a team that does not fit with any rotation is not placed. -/
theorem place_none {s : State} {P : Part} {n : Need} {pcore : Nat} (hc : P.cfg.cores = [pcore])
    (h : ∀ r < 4, s.fits pcore r n = none) : s.placeTeam P n = none := by
  have ha : s.fits pcore (Config.rotation s.fresh) n = none := by rw [fits_mod]; exact h _ (Nat.mod_lt _ (by decide))
  have hw : P.window = [0] := by simp [Part.window, hc, Nat.mod_one, circular]
  simp [State.placeTeam, hw, hc, ha]

set_option maxRecDepth 100000 in
/-- A queue whose first saved team can be placed, and one whose core is out of use. -/
theorem witness_saved_team :
    (∃ Q g, (readmitting.queue? 0 0) = some Q ∧ Q.restore = (0x500000, 1) :: [] ∧ Tab.get? readmitting.grids 1 = some g ∧ g.wantsGraph = false ∧
      (let h := (readmitting.writePhys Q.areaBase Q.area).blockHead 0x500000
       (h.groups, h.regs, h.tiles, h.limit, h.shapes) = (1, 8, 0, 0, 0) ∧ Tab.get? readmitting.parts 0 = some readmittingPart ∧
        (∃ x, readmitting.placeTeam readmittingPart ⟨1, 8, 0, 0, g.tenant, []⟩ = some x) ∧
        (readmitting.modCore 0 fun k => { k with dead := true }).placeTeam stagedPart ⟨1, 8, 0, 0, g.tenant, []⟩ = none)) ∧
    readmitting.partUp 0 = true ∧ (∀ x ∈ readmitting.grids, x.2.wantsGraph = false) ∧
    (∃ P, Tab.get? readmitting.parts 0 = some P ∧ serveOrder P (readmitting.goesAhead 0) = [] ++ 0 :: (serveOrder P (readmitting.goesAhead 0)).tail) :=
  ⟨⟨_, { stagedGrid 1 with next := 0, liveTeams := 0 }, rfl, rfl, by decide +kernel, by decide +kernel, by decide +kernel, by decide +kernel,
    place_one (pcore := 0) rfl (by decide +kernel), place_none (pcore := 0) rfl (by decide +kernel)⟩, by decide +kernel, by decide +kernel,
    exists_some (by decide +kernel)⟩

set_option maxRecDepth 100000 in
/-- The team is then admitted. -/
theorem witness_readmitted : ∃ u, readmitting.admitSaved 0 0 = some u := by
  obtain ⟨⟨Q, g, hQ, hR, hg, hw, hh, hP, ⟨x, hx⟩, _⟩, _⟩ := witness_saved_team
  simp only [Prod.mk.injEq] at hh
  obtain ⟨h1, h2, h3, h4, h5⟩ := hh
  have hs : handlesOf 0 = [] := by decide
  apply Option.isSome_iff_exists.1
  unfold State.admitSaved
  rw [hP, hQ]
  simp only [hR, hg, hw, State.asRestored, h1, h2, h3, h4, h5, hs, hx]
  rfl

/-! ## Boot, host ports, errors, links -/

/-- A record's header. -/
def recordHeader (kind version length : Nat) : List Byte := toBytes 64 (0x48F1 + kind * 2 ^ 40 + version * 2 ^ 64 + length * 2 ^ 96)

/-- A configuration body: partition 0 valid, with one system core, cluster unit 0 and channel group 0, FCAP 1. -/
def configBody : Store 8 := [(0x280, 1), (0x282, 1), (0x283, 1), (0x284, 255), (0x285, 255), (0x289, 1), (0x28C, 1)]

/-- A flash with a firmware record, a helper record and a configuration, at those places. -/
def someHeaders : Store 8 :=
  Store.setRange (Store.setRange (Store.setRange [] 0 (recordHeader 1 1 1)) 8192 (recordHeader 3 1 1)) 16384 (recordHeader 2 1 0x1680)
def someFlash : Store 8 := someHeaders ++ configBody.map (fun e => (16448 + e.1, e.2))
def someRecord (a kind length : Nat) : Rec := ⟨a, leValue (recordHeader kind 1 length)⟩

theorem get_append {α : Type} (m n : Tab α) (i : Nat) (h : ∀ e ∈ m, e.1 < i) : Tab.get? (m ++ n) i = Tab.get? n i := by
  induction m with
  | nil => rfl
  | cons e m ih =>
    have := h e (by simp)
    simp only [List.cons_append, Tab.get?]
    rw [if_neg (by omega)]
    exact ih fun e he => h e (by simp [he])

theorem get_shift {α : Type} (m : Tab α) (k i : Nat) : Tab.get? (m.map fun e => (k + e.1, e.2)) (k + i) = Tab.get? m i := by
  induction m with
  | nil => rfl
  | cons e m ih => simp [Tab.get?, ih]

/-- The body that the configuration record's bytes make. -/
theorem config_read : Store.setRange [] 0 ((someRecord 16384 2 0x1680).body someFlash) = configBody := by
  have h0 : Store.wf ([] : Store 8) = true := rfl
  have hw : Store.wf configBody = true := by decide +kernel
  have hn : (someRecord 16384 2 0x1680).length = 0x1680 := by decide +kernel
  have hk : ∀ e ∈ configBody, e.1 < 0x1680 := by decide +kernel
  have hh : ∀ e ∈ someHeaders, e.1 < 16448 := by decide +kernel
  apply Store.ext (Store.setRange_wf _ h0) hw
  intro j
  have hg : Store.get someFlash (16448 + j) = Store.get configBody j := by
    unfold Store.get someFlash
    rw [get_append _ _ _ fun e he => by have := hh e he; omega, get_shift]
  rw [Store.get_setRange _ h0, Rec.body, hn, Store.getRange_eq]
  by_cases hj : j < 0x1680
  · have : (someRecord 16384 2 0x1680).addr + 64 + j = 16448 + j := by show 16384 + 64 + j = _; omega
    simp [List.getElem?_range hj, this, hg]
  · have hz : Store.get configBody j = 0 := by
      unfold Store.get
      rw [show configBody = configBody ++ [] by simp, get_append _ _ _ fun e he => by have := hk e he; omega]
      rfl
    rw [hz]
    simp [List.getElem?_eq_none_iff.2 (by simp; omega : ((List.range 0x1680).map _).length ≤ j), Store.get, Tab.get?]

set_option maxRecDepth 100000 in
theorem config_ok : cfgOk configBody 0x1680 = true := by decide +kernel

set_option maxRecDepth 100000 in
theorem records_found : flashRecords someFlash = [someRecord 0 1 1, someRecord 8192 3 1, someRecord 16384 2 0x1680] := by decide +kernel

set_option maxRecDepth 100000 in
theorem records_shaped : (someRecord 0 1 1).shaped = true ∧ (someRecord 8192 3 1).shaped = true ∧ (someRecord 16384 2 0x1680).shaped = true ∧
    (someRecord 0 1 1).kind = 1 ∧ (someRecord 8192 3 1).kind = 3 ∧ (someRecord 16384 2 0x1680).kind = 2 ∧
    (someRecord 0 1 1).keyId = 0 ∧ (someRecord 8192 3 1).keyId = 0 ∧ (someRecord 16384 2 0x1680).keyId = 0 ∧
    (someRecord 16384 2 0x1680).length = 0x1680 := by decide +kernel

theorem filter_three {α : Type} {p : α → Bool} {a b c : α} {x y z : Bool} (ha : p a = x) (hb : p b = y) (hc : p c = z) :
    [a, b, c].filter p = (if x then [a] else []) ++ (if y then [b] else []) ++ (if z then [c] else []) := by
  cases x <;> cases y <;> cases z <;> simp [List.filter, ha, hb, hc]

/-- That the three records' signatures verify under the root key. -/
def Signed : Prop := ∀ r ∈ [someRecord 0 1 1, someRecord 8192 3 1, someRecord 16384 2 0x1680], r.verifies someFlash rootKeyBytes = true

theorem valid_records (hv : Signed) : validKind someFlash 1 = [someRecord 0 1 1] ∧
    validKind someFlash 2 = [someRecord 16384 2 0x1680] ∧ validKind someFlash 3 = [someRecord 8192 3 1] := by
  obtain ⟨image, map, config, isImage, isMap, isConfig, imageKey, mapKey, configKey, fits⟩ := records_shaped
  unfold validKind
  rw [records_found]
  refine ⟨filter_three (x := true) (y := false) (z := false) ?_ ?_ ?_, filter_three (x := false) (y := false) (z := true) ?_ ?_ ?_,
    filter_three (x := false) (y := true) (z := false) ?_ ?_ ?_⟩
  · rw [image, isImage, imageKey, hv _ (by simp)]; rfl
  · rw [map, isMap]; rfl
  · rw [config, isConfig]; rfl
  · rw [image, isImage]; rfl
  · rw [map, isMap]; rfl
  · rw [config, isConfig, configKey, hv _ (by simp), fits, config_read, config_ok]; rfl
  · rw [image, isImage]; rfl
  · rw [map, isMap, mapKey, hv _ (by simp)]; rfl
  · rw [config, isConfig]; rfl

set_option maxRecDepth 100000 in
/-- A module that is off and has nothing in its flash; and, for signatures that verify, one with the three records. -/
theorem witness_boot : (State.reset.boot.phase = .off ∧ validKind State.reset.boot.flash 1 = []) ∧ base.boot.phase ≠ .off ∧
    (Signed → best (validKind someFlash 1) = some (someRecord 0 1 1) ∧
      best (validKind someFlash 2) = some (someRecord 16384 2 0x1680) ∧ best (validKind someFlash 3) = some (someRecord 8192 3 1)) ∧
    bitsOf (leValue (Store.getRange configBody (0x280 + 128 * 0 + 0xC) 4)) 0 1 = 1 ∧
    bitsOf (leValue (Store.getRange configBody (0x280 + 128 * 1 + 0xC) 4)) 0 1 ≠ 1 ∧
    best [⟨0, 5 * 2 ^ 64⟩, ⟨4096, 7 * 2 ^ 64⟩, ⟨8192, 7 * 2 ^ 64⟩] = some ⟨4096, 7 * 2 ^ 64⟩ := by
  exact ⟨⟨rfl, by decide +kernel⟩, by decide, fun hv => ⟨by rw [(valid_records hv).1]; rfl, by rw [(valid_records hv).2.1]; rfl,
    by rw [(valid_records hv).2.2]; rfl⟩, by decide +kernel, by decide +kernel, by decide +kernel⟩

set_option maxRecDepth 100000 in
/-- Host accesses of four bytes of memory, by the PCIe port, an upstream CXL port and one that has no role; a posted write; a module in
recovery; quotes that may start, that may not and that are busy. -/
theorem witness_host : (∃ P, Tab.get? base.parts 0 = some P ∧ base.boot.phase = .running ∧ (∀ i < 4, apertureAddr P.cfg.ranges (0x401000 + i) = some (0x401000 + i) ∧
      remotePa (0x401000 + i) = false ∧ Store.get base.enc ((0x401000 + i) / 4096) ≠ 2) ∧ Memory.wf base.mem = true) ∧
    (∀ j k : Nat, 0x401000 + j = 0x401000 + k → j = k) ∧ base.posted = [] ∧
    (let role := ({ base with boot := { base.boot with cxlRole := 1 } } : State).boot.cxlRole.toNat
     role / 2 ^ (2 * (1 - 1)) % 4 = 1 ∧ role / 2 ^ (2 * (4 - 1)) % 4 ≠ 1) ∧
    (({ base with posted := [⟨0, 0, 2, 0x401000, [1]⟩, ⟨1, 0, 2, 0x401000, [2]⟩] } : State).posted[1]? = some ⟨1, 0, 2, 0x401000, [2]⟩) ∧
    (({ State.reset with boot := { Boot.reset with phase := .recovery } } : State).boot.phase = .recovery ∧ Memory.wf Boot.reset.flash = true) ∧
    (∃ P, Tab.get? base.parts 0 = some P ∧ P.quoteBusy = false ∧ P.quoteAddr.toNat % 4096 = 0 ∧ base.ownRange 0 P.quoteAddr.toNat 17348 = true) ∧
    (∃ P, Tab.get? (inPart (fun P => { P with quoteAddr := 0x401001, quoteBusy := true, quoteAt := 0x401000 }) base).parts 0 = some P ∧
      P.quoteBusy = true ∧ P.quoteAddr.toNat % 4096 ≠ 0) :=
  ⟨exists_some (by decide +kernel), fun _ _ h => by omega, by decide +kernel, by decide +kernel, rfl, ⟨rfl, rfl⟩, exists_some (by decide +kernel),
    exists_some (by decide +kernel)⟩

/-- A fault or error ring that may be enabled, one that may not, and a guestbook ring. -/
def okRing (en : Bool) (log : Nat) : Ring := ⟨0x401000, BitVec.ofNat 5 log, en, 0, 0, []⟩

set_option maxRecDepth 100000 in
/-- A partition and its queues, rings, slots and core; rings that stay enabled and that do not; an inspection that may start, one of no
unit and one under way; units of a partition, of the pool and shared. -/
theorem witness_registers : (∃ P, Tab.get? base.parts 0 = some P ∧ P.cfg.cores.length ≤ 256 ∧ P.inspect.done = true ∧ P.inspect.unit.toNat ≤ 4 ∧
      P.cfg.cores[0]? = some 0 ∧ (Tab.get? base.cores 0).isSome = true ∧ has (Tab.get? P.queues 63) (fun Q => !Q.en) = true ∧
      (∀ r < 16, (Tab.get? P.rings r).isSome = true) ∧ ∀ j < 8, (Tab.get? P.mig j).isSome = true) ∧
    (let ok (r : Ring) : Prop := 6 ≤ r.log.toNat ∧ r.log.toNat ≤ 16 ∧ r.base.toNat % 4096 = 0 ∧
       base.ownRange 0 r.base.toNat (32 * 2 ^ r.log.toNat) = true
     ok (okRing true 6) ∧ ok (okRing true 16) ∧ ¬ok (okRing true 5) ∧ (okRing false 5).en = false) ∧
    (∃ P, Tab.get? (inPart (fun P => { P with inspect := ⟨0, 0, 5, false, [], some (0, 0)⟩ }) base).parts 0 = some P ∧ P.inspect.done = false ∧
      4 < P.inspect.unit.toNat) ∧
    (has (Tab.get? ((base.modQueue 0 63 fun Q => { Q with en := true }).parts) 0) (fun P => has (Tab.get? P.queues 63) fun Q => Q.en) = true) ∧
    base.coreOwner 0 = some 0 :=
  ⟨exists_some (by decide +kernel), by decide +kernel, exists_some (by decide +kernel), by decide +kernel, by decide +kernel⟩

set_option maxRecDepth 100000 in
/-- Errors of a unit that a partition owns and of one that none does; memory of a frame whose P is 0, is 1 and that nothing has named, and
of the pool; an error ring with room and one with none; frames held compressed and not. -/
theorem witness_errors : (∃ P, Tab.get? base.parts 0 = some P ∧ P.error.en = false) ∧ Tab.wf base.parts = true ∧
    (∃ P, Tab.get? (inPart (fun P => { P with error := okRing true 6 }) base).parts 0 = some P ∧ P.error.en = true ∧
      (P.error.produce - P.error.consume).toNat < 2 ^ P.error.log.toNat) ∧
    base.unitOwner 0 = some 0 ∧ base.unitOwner 0x1D2 = none ∧ base.memOwner 0x401000 = some 0 ∧
    ({ base with boot := { base.boot with poolBase := 2 ^ 40, poolSize := 2 ^ 30 } } : State).inPool (2 ^ 40) 1 = true ∧
    (∀ v : BitVec 2, v ≠ 3 → Store.get ({ base with prot := Store.set [] 0x401 v } : State).prot (0x401000 / 4096) = v ∧
      ({ base with prot := Store.set [] 0x401 v } : State).inPool 0x401000 1 = false) ∧
    (∀ v : BitVec 2, v ≠ 3 → Store.get ({ base with enc := Store.set [] 0x401 v } : State).enc (0x401000 / 4096) = v) ∧
    Store.wf base.poison = true ∧ base.coreOwner 0 = some 0 ∧ (Tab.get? base.cores 0).isSome = true ∧
    (∃ T ∈ base.teams, T.2.pcore = 0 ∧ (Tab.get? base.grids T.2.grid).isSome = true) := by
  refine ⟨exists_some (by decide +kernel), by decide +kernel, exists_some (by decide +kernel), by decide +kernel, by decide +kernel, by decide +kernel,
    by decide +kernel, by decide +kernel, by decide +kernel, by decide +kernel, by decide +kernel, by decide +kernel, by decide +kernel⟩

/-- A flow with one unanswered request, sent n times again. -/
def flowing (n : Nat) : State := { base with flowsOut := [⟨0, 5, 8, [⟨7, .read 0x40 4, n⟩]⟩] }

/-- With unit 0 of the export table at 0x400000 and the rest unused. -/
def exporting : State := { base with boot := { base.boot with body := Store.setRange [] 0x20 (toBytes 8 0x400000) } }

set_option maxRecDepth 100000 in
/-- Links in each state, with retries left and with none; requests answered and not; requests of other devices at the expected number
and at another, to a used unit and to an unused one, of a lane and of a host; a Steward's own address and another's. -/
theorem witness_links : (∀ k ∈ [Link.reset, ⟨8, 0, 15, 0, 0⟩, ⟨8, 0, 16, 0, 0⟩, ⟨8, 1, 0, 0, 0⟩, ⟨8, 2, 0, 0, 0⟩],
      Tab.get? ({ base with links := [(17, k)] } : State).links 17 = some k) ∧
    base.pendingReq 0 5 7 = none ∧ (flowing 7).pendingReq 0 5 7 = some ⟨7, .read 0x40 4, 7⟩ ∧ (flowing 8).pendingReq 0 5 7 = some ⟨7, .read 0x40 4, 8⟩ ∧
    ((base.flowIn 5 0x100).expect = 0 ∧ base.boot.phase = .running ∧ State.reset.boot.phase ≠ .running) ∧
    (let unit (off : Nat) : Nat := leValue (Store.getRange exporting.boot.body (0x20 + 8 * (off / 2 ^ 30 % 8)) 8)
     unit (2 ^ 30 + 0x40) = 0 ∧ [(1 : Byte)] ≠ [] ∧ unit 0x1000 = 0x400000 ∧ 0x1000 % 2 ^ 30 + 32 ≤ 2 ^ 30 ∧
     (∀ j < 32, remotePa (0x401000 + j) = false ∧ Store.get exporting.enc ((0x401000 + j) / 4096) ≠ 2) ∧
     Store.wf exporting.poison = true ∧ 0x100 < 0x104 ∧ ¬0x104 < 0x104) ∧
    ((1 = base.stewardOf 0x401000 ∧ remotePa 0x401000 = false ∧ 0x401000 % 8 = 0 ∧ 0x401000 % 4 = 0 ∧ Store.get base.enc 0x401 ≠ 2 ∧
      Memory.wf base.mem = true ∧ (base.keptFor 1 7).find? (fun r => r.1 == 9) = none)) ∧ ¬0 = base.stewardOf 0x401000 ∧
    ((Tab.get? ({ base with stewards := [(1, [⟨7, [(9, 3)]⟩])] } : State).stewards 1).isSome = true ∧
      (({ base with stewards := [(1, [⟨7, [(9, 3)]⟩])] } : State).keptFor 1 7).find? (fun r => r.1 == 9) = some (9, 3)) ∧
    (∃ c < 32, base.boot.disabled.getLsbD c = false) := by
  refine ⟨fun k _ => by simp [Tab.get?], by decide +kernel, by decide +kernel, by decide +kernel, by decide +kernel, by decide +kernel, by decide +kernel,
    by decide +kernel, by decide +kernel, by decide +kernel⟩

set_option maxRecDepth 100000 in
/-- The time bound holding and lost; a snapshot done and under way; a group with a branch pending and with none. -/
theorem witness_watchful : base.timeBound = true ∧ ({ base with timeBound := false } : State).timeBound = false ∧
    (∃ P, Tab.get? base.parts 0 = some P ∧ P.inspect.job = none) ∧
    (∃ P, Tab.get? (inPart (fun P => { P with inspect := ⟨0, 0, 0, false, [], some (0, 0)⟩ }) base).parts 0 = some P ∧
      P.inspect.job = some (0, 0) ∧ P.cfg.cores[0]? = some 0 ∧ (Tab.get? base.cores 0).isSome = true) ∧
    (∃ T G, Tab.get? base.teams 2 = some T ∧ Tab.get? T.groups 0 = some G ∧ (Store.wf G.history = true ∧ G.pending = none)) ∧
    (∃ T G, Tab.get? (inGroup (fun G => { G with pending := some ⟨0x400004, 0, 3, 1, 1⟩ }) base).teams 2 = some T ∧ Tab.get? T.groups 0 = some G ∧
      (Store.wf G.history = true ∧ G.pending = some ⟨0x400004, 0, 3, 1, 1⟩)) :=
  ⟨by decide +kernel, by decide +kernel, exists_some (by decide +kernel), exists_some (by decide +kernel), exists_group (by decide +kernel),
    exists_group (by decide +kernel)⟩

/-- With system core 3 running the staged partition, and two overlapping stores of its, the later one of a byte, between one of core 4. -/
def driven : State := inPart (fun P => { P with cfg := { P.cfg with sysCores := 24 } }) { base with
  systems := [⟨3, 0x401000, [1, 2]⟩, ⟨4, 0x401000, [9]⟩, ⟨3, 0x401001, [3]⟩] }

set_option maxRecDepth 100000 in
/-- A system core's store that waits and one that it may not make; stores with an older one of their core that overlaps. -/
theorem witness_system_stores : driven.boot.phase = .running ∧ (driven.parts.any (fun P => P.2.cfg.sysCores.getLsbD 3 && driven.ownRange P.1 0x401000 4)) = true ∧
    (driven.parts.any (fun P => P.2.cfg.sysCores.getLsbD 5 && driven.ownRange P.1 0x401000 4)) = false ∧
    driven.systems[2]? = some ⟨3, 0x401001, [3]⟩ ∧ overlaps 0x401000 2 0x401001 1 = true := by decide +kernel

set_option maxRecDepth 100000 in
/-- The last store, performed, takes the older one of its core with it and leaves the other core's; a FENCE performs its core's alone. -/
theorem test_system_stores : (let t := driven.performOne 2
    (t.systems, t.byte 0x401000, t.byte 0x401001)) = ([⟨4, 0x401000, [9]⟩], 1, 3) ∧
    (let t := driven.systemAct 4 .fence
     (t.systems.map (·.core), t.byte 0x401000)) = ([3, 3], 9) := by decide +kernel

set_option maxRecDepth 100000 in
/-- A guestbook ring, enabled, that its next word disables, and whose entries are then placed; words of engines and heads in a
partition that owns one and in one that owns none. -/
theorem witness_register_words :
    (∃ P, Tab.get? { withRing guests with time := 6 }.parts 0 = some P ∧ has (Tab.get? P.rings 0) (fun r => r.en) = true) ∧
    (6 : Word).getLsbD 5 = false ∧
    has (Tab.get? ({ withRing guests with time := 6 }.placeAll 0).parts 0) (fun P => has (Tab.get? P.rings 0) (fun r => r.waiting.isEmpty)) = true ∧
    (0x110 ≤ 0x3FF ∧ 0x3FF < 0x400) ∧ (∃ P, Tab.get? base.parts 0 = some P ∧ P.cfg.encode = 0 ∧ P.cfg.heads = 0) ∧
    (∃ P, Tab.get? (inPart (fun P => { P with cfg := { P.cfg with encode := 1 } }) base).parts 0 = some P ∧ P.cfg.encode ≠ 0) :=
  ⟨exists_some (by decide +kernel), by decide, by decide +kernel, by decide, exists_some (by decide +kernel), exists_some (by decide +kernel)⟩

/-- A flow of unit 0 to device 5 with n requests unanswered. -/
def loaded (n : Nat) : State := { base with flowsOut := [⟨0, 5, 300, (List.range n).map fun i => ⟨BitVec.ofNat 32 i, .read 0x40 4, 1⟩⟩] }

set_option maxRecDepth 100000 in
/-- A first request of a flow, one beside 255 others, and one that 256 keep out; a request that has been sent once. -/
theorem witness_requests_sent : base.flowsOut = [] ∧ base.pendingReq 0 5 0 = none ∧
    has ((loaded 255).flowsOut.find? (fun f => f.source == 0 && f.dest == 5)) (fun f => f.unanswered.length == 255) = true ∧
    (loaded 255).pendingReq 0 5 300 = none ∧
    has ((loaded 256).flowsOut.find? (fun f => f.source == 0 && f.dest == 5)) (fun f => f.unanswered.length == 256) = true := by decide +kernel

/-- With the exported sector at 0x401000 poisoned. -/
def tainted : State := exporting.setPoison 0x401000 true

set_option maxRecDepth 100000 in
/-- A read of another device that meets the poisoned sector at its second half, and an atomic there: not applied, and marked (R346). -/
theorem test_poisoned_request : (let reply (r : RemoteReq) : Option (ReplyBytes × State) := match exec (.remoteRequestReceive 5 0x100 0 r) tainted with
      | .next u => ((u.flowIn 5 0x100).kept.getLast?).map (fun x => (x.2, u))
      | _ => none
    ((reply (.read 0xFFE 4)).map (·.1), (reply (.atomic 0x1000 false 0 false 5 0)).map (fun x => (x.1, x.2.byte 0x401000)))) =
    (some ⟨[0, 0, 0, 0], [2, 3]⟩, some (⟨[0, 0, 0, 0], [0]⟩, 0)) := by decide +kernel

/-- Partition 0 with an inspection of an index of a unit under way. -/
def inspecting (unit index : Nat) : State :=
  inPart (fun P => { P with inspect := ⟨0, BitVec.ofNat 8 index, BitVec.ofNat 4 unit, false, [], some (unit, index)⟩ })
    { base with stewards := [(1, [⟨7, [(9, 3)]⟩])] }

set_option maxRecDepth 100000 in
/-- An inspection of each unit that R386 has (a core, a die, a Steward, a link, a window of the fault unit). -/
theorem witness_snapshots : ∀ unit < 5, ∃ P, Tab.get? (inspecting unit 1).parts 0 = some P ∧ P.inspect.job = some (unit, 1) ∧
    (Tab.get? base.dies 1).isSome = true ∧ (Tab.get? (inspecting unit 1).stewards 1).isSome = true ∧ (Tab.get? base.links 1).isSome = true ∧
    has (Tab.get? base.cores 0) (fun k => Tab.wf k.shapes) = true := by
  have h : (List.range 5).all (fun unit => has (Tab.get? (inspecting unit 1).parts 0) fun P => decide (P.inspect.job = some (unit, 1) ∧
    (Tab.get? base.dies 1).isSome = true ∧ (Tab.get? (inspecting unit 1).stewards 1).isSome = true ∧ (Tab.get? base.links 1).isSome = true ∧
    has (Tab.get? base.cores 0) (fun k => Tab.wf k.shapes) = true)) = true := by decide +kernel
  exact fun unit hu => exists_some (List.all_eq_true.1 h unit (List.mem_range.2 hu))
/-! ## Words -/

/-- Encoding and decoding: an instruction with a word, a word with an instruction. -/
theorem witness_encodings : (∃ w, encode (.zrd true 23 63 3 3 4 1 7) = some w) ∧ (∃ i, decodeWord 0x01050607 = .ok i) :=
  ⟨⟨_, rfl⟩, ⟨_, rfl⟩⟩

/-! An ill-formed term for each check that the words' fields go through (R140 to R149). -/

theorem test_ill_formed :
    (Instr.iadd false (.s 5) (.v 1) (.v 2)).wellFormed = false ∧ (Instr.imac false (.q 3) (.v 1) (.v 2)).wellFormed = false ∧
    (Instr.lea false (.v 3) (.v 2) (.v 0)).wellFormed = false ∧ (Instr.lea false (.v 2) (.q 0) (.v 0)).wellFormed = false ∧
    (Instr.stD false (.v 1) (.v 2) 0).wellFormed = false ∧ (Instr.ldl false (.v 5) (.v 2) (.s 4)).wellFormed = false ∧
    (Instr.ldl false (.v 4) (.v 2) (.s 5)).wellFormed = false ∧ (Instr.uadd false (.v 5) (.s 1) (.s 2)).wellFormed = false ∧
    (Instr.uadd false (.s 5) (.v 1) (.s 2)).wellFormed = false ∧ (Instr.uldD false (.s 59) (.s 0) 0).wellFormed = false ∧
    (Instr.ureadlane false (.s 5) (.s 1) (.s 2)).wellFormed = false ∧ (Instr.facetMark false (.s 3) (.v 1) (.v 2)).wellFormed = false ∧
    (Instr.fcvtI32F32 false (.v 1) (.v 2) 5).wellFormed = false ∧ (Instr.wait 12).wellFormed = false ∧
    (Instr.barn 3 33).wellFormed = false ∧ (Instr.sign 8 1).wellFormed = false ∧ (Instr.fence false 3 0).wellFormed = false ∧
    (Instr.sysrd false (.s 2) 0x19).wellFormed = false ∧ (Instr.mma false 0 23 0 0 1 0 0).wellFormed = false ∧
    (Instr.mma false 0 0 0 0 1 2 0).wellFormed = false ∧ (Instr.zrd false 24 0 0 0 0 0 0).wellFormed = false ∧
    (Instr.atomD false (.v 3) 1 0 7 0 0).wellFormed = false ∧ (Instr.scan false (.v 1) (.v 2) 3).wellFormed = false := by decide +kernel

/-! A word of each family, its fields as the format diagrams place them. -/

set_option maxRecDepth 100000 in
/-- R134, R138, R174: SET 0, E, MAJOR, d, x, y. -/
theorem test_decode_integer : decodeWord (0x06 * 2 ^ 24 + 5 * 2 ^ 16 + 0xC3 * 2 ^ 8 + 0xFD) = .ok (.imac false (.v 5) (.s 3) (.q 1)) ∧
    decodeWord (0x13 * 2 ^ 24 + 1 * 2 ^ 16 + 2 * 2 ^ 8 + 2 * 2 ^ 5 + 31) = .ok (.sarImm false (.v 1) (.v 2) 31) := ⟨rfl, rfl⟩

set_option maxRecDepth 100000 in
/-- R180, R183. -/
theorem test_decode_unary : decodeWord (0x1E * 2 ^ 24 + 1 * 2 ^ 16 + 2 * 2 ^ 8 + 0x13) = .ok (.fexp2 false (.v 1) (.v 2)) ∧
    decodeWord (0x25 * 2 ^ 24 + 1 * 2 ^ 16 + 2 * 2 ^ 8 + 0x31) = .ok (.ffmaPacked false (.v 1) (.v 2) 1) := ⟨rfl, rfl⟩

set_option maxRecDepth 100000 in
/-- R188, R189. -/
theorem test_decode_cross_lane : decodeWord (0x2E * 2 ^ 24 + 1 * 2 ^ 16 + 2 * 2 ^ 8 + 0x80 + 8) = .ok (.red false (.v 1) (.v 2) 8) ∧
    decodeWord (0x2E * 2 ^ 24 + 1 * 2 ^ 16 + 2 * 2 ^ 8 + 0x20 + 3) = .ok (.shfldn false (.v 1) (.v 2) 3) := ⟨rfl, rfl⟩

set_option maxRecDepth 100000 in
/-- R203's example. -/
theorem test_decode_ldt : decodeWord 0x3A10C823 = .ok (.ldt false (.v 16) (.s 8) 0 1 3) := rfl

set_option maxRecDepth 100000 in
/-- R154, R158, R159. -/
theorem test_decode_uniform : decodeWord (0x80000000 + 0x18 * 2 ^ 24 + 0xC4 * 2 ^ 16 + 0xC8 * 2 ^ 8 + 0xFF) = .ok (.uldW false (.s 4) (.s 8) 0xFF) ∧
    decodeWord (0xC0000000 + 0x1C * 2 ^ 24 + 0xFFFE) = .ok (.ujmp 0xFFFE) := ⟨rfl, rfl⟩

set_option maxRecDepth 100000 in
/-- R223, R236. -/
theorem test_decode_matrix : decodeWord (0x80000000 + 0x28 * 2 ^ 24 + 2 * 2 ^ 16 + 0xC5 * 2 ^ 8) = .ok (.fmtset false 2 (.s 5)) := rfl

set_option maxRecDepth 100000 in
/-- Printed words: BOXT (12_geometry_instructions.md), FCMP.le.f32 (18_program_rays.md). -/
theorem test_decode_printed : decodeWord 0xB2281018 = .ok (.boxt false (.v 40) (.v 16) (.v 24)) ∧
    decodeWord 0x283BD639 = .ok (.fcmpLe false (.v 59) (.s 22) (.v 57)) := ⟨rfl, rfl⟩

set_option maxRecDepth 100000 in
/-- R146: a function that no table names, and a reserved bit. -/
theorem test_decode_refuses : (∃ e, decodeWord (0x1E * 2 ^ 24 + 0x08) = .error e) ∧ (∃ e, decodeWord (0x13 * 2 ^ 24 + 3 * 2 ^ 5) = .error e) := ⟨⟨_, rfl⟩, ⟨_, rfl⟩⟩

/-! ## One step at a time -/

/-- Two source registers, v0 and v1, and v2, the same in every lane. -/
def two (a b d : Word) : State := vset 2 (fun _ => d) (vset 1 (fun _ => b) (vset 0 (fun _ => a) base))

/-- v2 of lane 0 after a word over v0 and v1. -/
def res (i : Instr) (a b : Word) (d : Word := 0) : Option Word := vOf (exec i (two a b d)) 0 2

/-- That, and the lane's status. -/
def resF (i : Instr) (a b : Word) (d : Word := 0) : Option (Word × BitVec 6) :=
  grpOf (exec i (two a b d)) fun G => ((G.lane 0).vreg 2, (G.lane 0).status)

/-- R174. -/
theorem test_integer : res (.iadd false (.v 2) (.v 0) (.v 1)) 0xFFFFFFFF 2 = some 1 ∧ res (.isub false (.v 2) (.v 0) (.v 1)) 1 2 = some 0xFFFFFFFF ∧
    res (.imul false (.v 2) (.v 0) (.v 1)) 0x10001 0x10001 = some 0x20001 ∧ res (.imulhI32 false (.v 2) (.v 0) (.v 1)) 0xFFFFFFFF 0xFFFFFFFF = some 0 ∧
    res (.imulhN32 false (.v 2) (.v 0) (.v 1)) 0xFFFFFFFF 0xFFFFFFFF = some 0xFFFFFFFE ∧ res (.imac false (.v 2) (.v 0) (.v 1)) 3 4 5 = some 17 ∧
    res (.iminI32 false (.v 2) (.v 0) (.v 1)) 0xFFFFFFFF 1 = some 0xFFFFFFFF ∧ res (.iminN32 false (.v 2) (.v 0) (.v 1)) 0xFFFFFFFF 1 = some 1 ∧
    res (.imaxI32 false (.v 2) (.v 0) (.v 1)) 0xFFFFFFFF 1 = some 1 ∧ res (.imaxN32 false (.v 2) (.v 0) (.v 1)) 0xFFFFFFFF 1 = some 0xFFFFFFFF := by
  decide +kernel

/-- R174. -/
theorem test_bits : res (.andn false (.v 2) (.v 0) (.v 1)) 0xF0F0 0x00FF = some 0xF000 ∧ res (.xor false (.v 2) (.v 0) (.v 1)) 0xF0F0 0x00FF = some 0xF00F ∧
    res (.shl false (.v 2) (.v 0) (.v 1)) 3 33 = some 6 ∧ res (.shr false (.v 2) (.v 0) (.v 1)) 0x80000000 63 = some 1 ∧
    res (.sar false (.v 2) (.v 0) (.v 1)) 0x80000000 31 = some 0xFFFFFFFF ∧ res (.sarImm false (.v 2) (.v 0) 4) 0x80000000 0 = some 0xF8000000 ∧
    res (.iaddImm false (.v 2) (.v 0) 0x80) 0 0 = some 0xFFFFFF80 := by decide +kernel

/-- R176 to R179. -/
theorem test_fields : res (.icmpLtI32 false (.v 2) (.v 0) (.v 1)) 0xFFFFFFFF 0 = some 1 ∧ res (.icmpLtN32 false (.v 2) (.v 0) (.v 1)) 0xFFFFFFFF 0 = some 0 ∧
    res (.icmpLeI32 false (.v 2) (.v 0) (.v 1)) 5 5 = some 1 ∧ res (.sel false (.v 2) (.v 0) (.v 1)) 7 8 0x80000000 = some 7 ∧
    res (.sel false (.v 2) (.v 0) (.v 1)) 7 8 0 = some 8 ∧
    res (.bfx false (.v 2) (.v 0) (.v 1)) 0x85000000 (24 + 8 * 256 + 65536) = some 0xFFFFFF85 ∧
    res (.bfx false (.v 2) (.v 0) (.v 1)) 0x85000000 (28 + 8 * 256) = some 8 ∧ res (.bfx false (.v 2) (.v 0) (.v 1)) 0xFFFFFFFF 65536 = some 0 ∧
    res (.bfi false (.v 2) (.v 0) (.v 1)) 0xABC (8 + 4 * 256) 0xFFFFFFFF = some 0xFFFFFCFF ∧
    vOf (exec (.lea false (.v 4) (.v 0) (.v 2)) (two 1 0 0xFFFFFFFE)) 0 5 = some 0xFFFFFFFF := by decide +kernel

/-- R180 and its example. -/
theorem test_unary : res (.iabs false (.v 2) (.v 0)) 0x80000000 0 = some 0x80000000 ∧ res (.clz false (.v 2) (.v 0)) 0 0 = some 32 ∧
    res (.popc false (.v 2) (.v 0)) 0xF0F00001 0 = some 9 ∧ res (.brev false (.v 2) (.v 0)) 1 0 = some 0x80000000 ∧
    res (.bint2 false (.v 2) (.v 0)) 0xFFFF0003 0 = some 5 ∧ res (.bint3 false (.v 2) (.v 0)) 5 0 = some 0x41 ∧
    res (.bdeint3 false (.v 2) (.v 0)) 0x57 0 = some 5 ∧ res (.bdeint3 false (.v 2) (.v 0)) 0x2B 0 = some 3 ∧
    vOf (exec (.laneid false (.v 2)) base) 31 2 = some 31 := by decide +kernel

/-- R181, R53, R50: 1 + 2^-24 is a tie; 0 × ∞ and the largest value doubled. -/
theorem test_float : resF (.faddF32 false (.v 2) (.v 0) (.v 1)) 0x3F800000 0x33800000 = some (0x3F800000, 0x10) ∧
    resF (.fsubF32 false (.v 2) (.v 0) (.v 1)) 0x7F800000 0x7F800000 = some (0x7FC00000, 1) ∧
    resF (.fmulF32 false (.v 2) (.v 0) (.v 1)) 0x7F7FFFFF 0x40000000 = some (0x7F800000, 0x14) ∧
    resF (.ffmaF32 false (.v 2) (.v 0) (.v 1)) 0 0x7F800000 0x7FC00000 = some (0x7FC00000, 1) ∧
    resF (.ffmaF32 false (.v 2) (.v 0) (.v 1)) 0x40000000 0x40400000 0x3F800000 = some (0x40E00000, 0) ∧
    resF (.fminF32 false (.v 2) (.v 0) (.v 1)) 0x7FC00000 0x3F800000 = some (0x3F800000, 0) ∧
    resF (.fcmpEq false (.v 2) (.v 0) (.v 1)) 0x80000000 0 = some (1, 0) ∧ resF (.fcmpUn false (.v 2) (.v 0) (.v 1)) 0x7F800001 0 = some (1, 1) ∧
    resF (.fcmpLt false (.v 2) (.v 0) (.v 1)) 0x7FC00000 0 = some (0, 0) := by decide +kernel

/-- R52's table and its example. -/
theorem test_roots : resF (.frcp false (.v 2) (.v 0)) 0x80000000 0 = some (0xFF800000, 2) ∧ resF (.frsq false (.v 2) (.v 0)) 0x40800000 0 = some (0x3F000000, 0) ∧
    resF (.fsqrt false (.v 2) (.v 0)) 0xBF800000 0 = some (0x7FC00000, 1) ∧ resF (.fexp2 false (.v 2) (.v 0)) 0x40400000 0 = some (0x41000000, 0) ∧
    resF (.flog2 false (.v 2) (.v 0)) 0x3F800000 0 = some (0, 0) ∧ resF (.fsin false (.v 2) (.v 0)) 0x80000000 0 = some (0x80000000, 0) := by decide +kernel

/-- R185 and its example, −2.5; R184; R183. -/
theorem test_conversions : resF (.fcvtI32F32 false (.v 2) (.v 0) 0) 0xC0200000 0 = some (0xFFFFFFFE, 0x10) ∧
    resF (.fcvtI32F32 false (.v 2) (.v 0) 2) 0xC0200000 0 = some (0xFFFFFFFE, 0x10) ∧
    resF (.fcvtI32F32 false (.v 2) (.v 0) 3) 0xC0200000 0 = some (0xFFFFFFFD, 0x10) ∧ resF (.fcvtN32F32 false (.v 2) (.v 0) 1) 0xBE99999A 0 = some (0, 0x10) ∧
    resF (.fcvtF32F16 false (.v 2) (.v 0) 0) 0xFFFF3C00 0 = some (0x3F800000, 0) ∧ resF (.fcvtF16F32 false (.v 2) (.v 0) 0) 0x47800000 0 = some (0x7C00, 0x14) ∧
    resF (.pack2F16X2 false (.v 2) (.v 0) (.v 1)) 0x3F800000 0x40000000 = some (0x40003C00, 0) ∧
    resF (.faddPacked false (.v 2) (.v 0) 0) 0x40003C00 0x3C003C00 = some (0x42004000, 0) := by decide +kernel

/-- R57's and R186's example: 300.0 under f2 = 0x00050763, and code 0x01 back. -/
theorem test_narrow :
    (grpOf (exec (.fcvtQF32 false (.v 2) (.v 0) 2 0) (inGroup (fun G => { G with f := Store.set G.f 2 0x00050763 }) (two 0x43960000 0 0)))
      fun G => ((G.lane 0).vreg 2, (G.lane 0).status)) = some (0x77, 0x30) ∧
    (grpOf (exec (.fcvtF32Q false (.v 2) (.v 0) 2 0) (inGroup (fun G => { G with f := Store.set G.f 2 0x00050763 }) (two 1 0 0)))
      fun G => (G.lane 0).vreg 2) = some 0x3B000000 := by decide +kernel

/-- R190's example: lanes 0 to 7 active, v0 = 5, 5, 7, 7, 7, 2, 9, 9, and the flags of the example's second row. -/
def heads : State :=
  inGroup (fun G => G.mapLanes ((List.range 24).map (· + 8)) (fun _ L => { L with live := false }))
    (vset 2 (fun l => [0, 0, 1, 0, 0, 1, 1, 0].getD l 0) (vset 0 (fun l => [5, 5, 7, 7, 7, 2, 9, 9].getD l 0) base))

/-- A register of lanes 0 to 7 after a word. -/
def eight (o : Out) (r : Nat) : Option (List Word) := grpOf o fun G => (List.range 8).map fun l => (G.lane l).vreg r

theorem test_run_heads : eight (exec (.shflup false (.v 1) (.v 0) 1) heads) 1 = some [5, 5, 5, 7, 7, 7, 2, 9] ∧
    eight (exec (.ballot false (.v 3) (.v 2)) heads) 3 = some (List.replicate 8 0x64) ∧
    eight (exec (.scan false (.v 4) (.v 2) 0) heads) 4 = some [0, 0, 1, 1, 1, 2, 3, 3] ∧
    eight (exec (.voteAll false (.v 5) (.v 0)) heads) 5 = some (List.replicate 8 1) ∧
    eight (exec (.shflx false (.v 6) (.v 0) 9) heads) 6 = some [5, 5, 7, 7, 7, 2, 9, 9] := by decide +kernel

/-- R65's example: 2^24, 1, 1, 1 in lanes 0 to 3. -/
theorem test_red_add : grpOf (exec (.red false (.v 1) (.v 0) 8) (inGroup (fun G => G.mapLanes ((List.range 28).map (· + 4)) (fun _ L => { L with live := false }))
    (vset 0 (fun l => if l = 0 then 0x4B800000 else 0x3F800000) base))) (fun G => (G.lane 3).vreg 1) = some 0x4B800001 := by decide +kernel

/-- Group 0's s2 after a uniform word over s0 and s1. -/
def ures (i : Instr) (a b : Word) (d : Word := 0) : Option Word := grpOf (exec i (sset 2 d (sset 1 b (sset 0 a base)))) (·.sreg 2)

/-- R154 to R157, R162, R163. -/
theorem test_uniform : ures (.umovi false (.s 2) 0x8000) 0 0 = some 0xFFFF8000 ∧ ures (.umovhi false (.s 2) 0x1234) 0 0 0x5678 = some 0x12345678 ∧
    ures (.usub false (.s 2) (.s 0) (.s 1)) 0 1 = some 0xFFFFFFFF ∧ ures (.ushl false (.s 2) (.s 0) (.s 1)) 1 32 = some 1 ∧
    ures (.usel false (.s 2) (.s 0) (.s 1)) 7 8 0 = some 8 ∧ ures (.ucmpLtN32 false (.s 2) (.s 0) (.s 1)) 0xFFFFFFFF 0 = some 0 ∧
    grpOf (exec (.ureadlane false (.s 2) (.v 0) (.s 0)) (vset 0 (fun l => BitVec.ofNat 32 (100 + l)) (sset 0 37 base))) (·.sreg 2) = some 105 ∧
    grpOf (exec (.ufirst false (.s 2)) base) (·.sreg 2) = some 0 := by decide +kernel

/-- R193, R194: a byte loaded without its sign, an offset scaled by the width, a store that the group reads back. -/
theorem test_memory : vOf (exec (.ldB false (.v 4) (.v 0) 0xFF) (vaddr 0x401001 (base.writePhys 0x401000 [0x85]))) 0 4 = some 0x85 ∧
    vOf (exec (.ldW false (.v 4) (.v 0) 2) (vaddr 0x401000 (base.writePhys 0x401008 [1, 2, 3, 4]))) 31 4 = some 0x04030201 ∧
    vOf (exec (.ldD false (.v 4) (.v 0) 0) (vaddr 0x401000 (base.writePhys 0x401004 [9]))) 0 5 = some 9 ∧
    grpOf (exec (.stH false (.v 4) (.v 0) 1) (vset 4 (fun _ => 0xAABBCCDD) (vaddr 0x401000 solo)))
      (fun G => G.fifo) = some [⟨[(.phys 0x401002, 0xDD), (.phys 0x401003, 0xCC)]⟩] := by decide +kernel

/-- Memory after a word. -/
def memOf (o : Out) (a n : Nat) : Option Nat :=
  match o with
  | .next t => some (t.physValue a n)
  | _ => none

/-- R198: lanes act in ascending order, each taking the value the one before left; compare and swap. -/
theorem test_atomics : memOf (exec (.atomW false (.v 4) 0 0 0 0 2) (vset 4 (fun _ => 2) (vaddr 0x401000 base))) 0x401000 4 = some 64 ∧
    vOf (exec (.atomW false (.v 4) 0 0 0 0 2) (vset 4 (fun _ => 2) (vaddr 0x401000 base))) 5 4 = some 10 ∧
    memOf (exec (.atomW false (.v 4) 0 0 7 0 2) (vset 5 (fun _ => 9) (vset 4 (fun _ => 0) (vaddr 0x401000 solo)))) 0x401000 4 = some 9 := by decide +kernel

/-- R137, R152, R158: a call's return address, a transfer's target. -/
theorem test_transfers : grpOf (exec (.ucall (.s 8) 0xFFFF) base) (fun G => (G.sreg 8, G.sreg 9, (G.lane 0).pc)) = some (0x400008, 0, 0x400000) ∧
    grpOf (exec (.ujmp 3) base) (fun G => (G.lane 31).pc) = some 0x400010 ∧
    grpOf (exec (.ubrNz (.s 2) 3) base) (fun G => (G.lane 31).pc) = some 0x400008 := by decide +kernel

/-- R236's four slots: 300, 2^200 and 1 + 2^-44 in tile 0, slot (0, 0). -/
def slotted (v : BitVec 56) : State := inGroup (fun G => { G with z := Store.set G.z 0 v, f := Store.set G.f 2 0x00050763 }) base
def readOut (i : Instr) (v : BitVec 56) : Option (Word × BitVec 6) := grpOf (exec i (slotted v)) fun G => ((G.lane 0).vreg 0, (G.lane 0).status)

theorem test_read_out : readOut (.zrd false 0 0 0 3 0 0 2) (BitVec.ofNat 56 (1031 * 2 ^ 44 + 3023656976384)) = some (0x77, 0x30) ∧
    readOut (.zrd false 0 0 0 0 0 0 0) (BitVec.ofNat 56 (1223 * 2 ^ 44)) = some (0x7F800000, 0x14) ∧
    readOut (.zrd false 0 0 0 0 0 1 0) (BitVec.ofNat 56 (1223 * 2 ^ 44)) = some (0x7F7FFFFF, 0x30) ∧
    readOut (.zrd false 0 0 0 0 1 0 0) (BitVec.ofNat 56 (1023 * 2 ^ 44 + 1)) = some (0x3F800000, 0x10) ∧
    readOut (.zrd false 0 0 0 0 2 0 0) (BitVec.ofNat 56 (1023 * 2 ^ 44 + 1)) = some (0x3F800001, 0x10) := by decide +kernel

/-- R245's example: the ray in v8 to v15, the node at 0x401000. -/
def boxed : State :=
  let ray : List Word := [0, 0, 0, 0x3F800000, 0x40000000, 0, 0, 0x41200000]
  let boxes : List Word := [0x3F800000, 0x3F800000, 0xBF800000, 0x40400000, 0x40A00000, 0x3F800000,
    0x40800000, 0, 0xBF800000, 0x40C00000, 0x40000000, 0x3F800000, 0x3F000000, 0x3F000000, 0, 0x3F800000, 0x3F800000, 0]
  (ray.zipIdx.foldl (fun s e => vset (8 + e.2) (fun _ => e.1) s) (saddr 0x401000 solo)).writePhys 0x401000
    (boxes.flatMap (fun w => toBytes 4 w.toNat) ++ List.replicate 24 0 ++ (toBytes 8 0x402000 ++ toBytes 8 0x403000 ++ toBytes 8 0x404000))

theorem test_boxes : (grpOf (exec (.boxt false (.v 20) (.v 8) (.s 0)) boxed) fun G => (List.range 5).map fun j => (G.lane 0).vreg (20 + j)) =
    some [0x0002D205, 0x3F800000, 0x7F800000, 0x3F000000, 0x7F800000] := by decide +kernel

/-- R21, R39: EXIT ends the run and its lanes; R349: TRAP enters no handler where none is set: the group stops (R354). -/
theorem test_ends : grpOf (exec (.exit true) base) (fun G => ((G.lane 0).live, G.runMask)) = some (false, 0) ∧
    grpOf (exec (.trap false 7) base) (fun G => G.stopped) = some true := by decide +kernel
/-! ## The step, its invariants and the frames -/

/-- Whether a preparation gives a word, and which. -/
def readies (p : Ready) (w : BitVec 32) : Bool :=
  match p with
  | .word v x => x == w && v.issuer.isSome
  | _ => false

/-- The staged machine once time has passed, its plan used up. -/
def settled (w : Nat) : State :=
  { (State.reset.staged w).settled with sched := { (State.reset.staged w).settled.sched with plan := [] } }

/-- Whether an issue slot of lane 0 of group 0 comes to a word. -/
def comesTo (s : State) (w : BitVec 32) : Bool :=
  readies (prepare ((s.countRun 2 0 0).setCur (some (2, 0, 0)) |>.completeSteps 2 0)) w && (s.groupAt 2 0).map (·.runMask) == some 0

set_option maxRecDepth 100000 in
/-- A planned issue slot that comes to a word that decodes, to one that does not, and one that cannot be used; one within a run; a
fragment whose place in its run is known. -/
theorem witness_step : (State.reset.staged 0x01050607).sched.plan = [.issue 2 0 0] ∧
    (settled 0x01050607).slotUsable 2 0 0 = true ∧ (settled 0x01050607).slotUsable 9 0 0 = false ∧
    comesTo (settled 0x01050607) 0x01050607 = true ∧ comesTo (settled 0) 0 = true ∧
    (∃ i, decodeWord 0x01050607 = .ok i) ∧ (∃ e, decodeWord 0 = .error e) ∧
    (let s := inGroup (fun G => { G.mapLanes (List.range 32) (fun _ L => { L with arrive := false, inRun := some 3 }) with runMask := 0xFFFFFFFF })
       (settled 0x01050607)
     s.slotUsable 2 0 0 = true ∧ readies (prepare ((s.setCur (some (2, 0, 0))).completeSteps 2 0)) 0x01050607 = true ∧
       (s.groupAt 2 0).map (·.runMask) ≠ some 0) ∧
    (∃ c, (inGroup (fun G => { G.mapLanes (List.range 32) (fun _ L => { L with arrive := false, inRun := some 23 }) with runMask := 0xFFFFFFFF })
        base).issuer = some c ∧ c.grp.lanes.map (·.1) = List.range 32 ∧ c.lanes ≠ [] ∧ (∀ l ∈ c.lanes, (c.grp.lane l).inRun = some 23) ∧
      c.pc % 4 = 0 ∧ canonical c.pc = true ∧ c.pc < windowBase ∧ (∀ l ∈ c.lanes, (c.grp.lane l).arrive = false) ∧
      (∀ b ∈ c.grp.began, b.lane ∉ c.lanes) ∧ c.grp.pending = none ∧
      (match translate base (.core c.team.pcore) c.space c.pc .fetch with
        | .ok _ pa _ false => !remotePa pa
        | _ => false) = true) :=
  ⟨rfl, by decide +kernel, by decide +kernel, by decide +kernel, by decide +kernel, ⟨_, rfl⟩, ⟨_, rfl⟩,
    ⟨by decide +kernel, by decide +kernel, by decide +kernel⟩, exists_ctx (by decide +kernel)⟩

/-- The word of an LD.w of v4 from v0:v1 (R138, R192). -/
def loadWord : BitVec 32 := 0x31040000

/-- The staged machine about to issue that word, the address 0x401000 in v0:v1 of lane 0 alone and 7 there; its group told to put its
next access off (R99), or not. -/
def aboutToLoad (lazy : Bool) : State :=
  { (vaddr 0x401000 (inGroup (fun G => { G.mapLanes ((List.range 31).map (· + 1)) (fun _ L => { L with live := false }) with lazy := lazy })
      (State.reset.staged loadWord.toNat))).writePhys 0x401000 [7] with sched := (State.reset.staged loadWord.toNat).sched }

/-- What a step does to the accesses of the team that are put off, and to lane 0's v4. -/
def lateAfter (s : State) : Option (Nat × Option Word) :=
  match step s with
  | .next t => (Tab.get? t.teams 2).map fun T => (T.late.length, (Tab.get? T.groups 0).map fun G => (G.lane 0).vreg 4)
  | _ => none

/-- After that step, a turn planned. -/
def afterLoad (x : Turn) : State :=
  match step (aboutToLoad true) with
  | .next t => { t with sched := { t.sched with plan := [x] } }
  | _ => base

set_option maxRecDepth 100000 in
/-- A load that a step puts off, which a turn then performs; and one that is performed at once (R99). -/
theorem test_put_off_load : decodeWord loadWord = .ok (.ldW false (.v 4) (.v 0) 0) ∧ lateAfter (aboutToLoad false) = some (0, some 7) ∧
    lateAfter (aboutToLoad true) = some (1, some 0) ∧ lateAfter (afterLoad (.settle 2)) = some (0, some 7) :=
  ⟨rfl, by decide +kernel, by decide +kernel, by decide +kernel⟩

set_option maxRecDepth 100000 in
/-- A word that can be put off, one that meets an access put off before it, and a fragment whose fetch parks. -/
theorem witness_put_off :
    (∃ c, ((aboutToLoad true).setCur (some (2, 0, 0))).issuer = some c ∧ c.grp.lazy = true ∧ c.team.late = [] ∧
      ((((aboutToLoad true).setCur (some (2, 0, 0))).beforeWord c (some (.ldW false (.v 4) (.v 0) 0))).putOff c (.ldW false (.v 4) (.v 0) 0)).isSome = true ∧
      ((aboutToLoad true).putOff c (.iadd false (.v 4) (.v 0) (.v 0))).isSome = false) ∧
    (∃ c, ((afterLoad (.issue 2 0 0)).setCur (some (2, 0, 0))).issuer = some c ∧ c.team.late ≠ []) ∧
    (match prepare (inGroup (fun G => G.mapLanes (List.range 32) (fun _ L => { L with pc := 0x200000, inRun := some 0 })) base) with
      | .done _ => true
      | _ => false) = true :=
  ⟨exists_ctx (by decide +kernel), exists_ctx (by decide +kernel), by decide +kernel⟩

set_option maxRecDepth 100000 in
/-- Every other turn that a plan can hold, from the staged machine: each goes on. -/
theorem test_turns : [Turn.drain 2 0 0, .spill 2 0, .early 2 0 8, .ahead 2 0 8, .putOff 2 0, .settle 2, .post 0, .system 0 .fence, .perform 0,
    .media 0 0x401000 4, .forget true 0].all (fun x => goes (step { base with sched := { base.sched with plan := [x] } })) = true := by decide +kernel

/-- A group's tidiness, as a check. -/
def tidyGroup (G : Group) : Bool :=
  decide (G.lanes.map (·.1) = List.range 32) && Store.wf G.s && Store.wf G.k && Store.wf G.f && Store.wf G.z && Store.wf G.history && Tab.wf G.early &&
  Tab.wf G.ahead && Tab.wf G.pieces &&
  G.lanes.all (fun L => Store.wf L.2.v && decide (L.2.frag.base < G.nextBase)) && G.handlers.all (fun h => h.keys.all fun k => decide (k.base < G.nextBase))

theorem tidy_group {G : Group} (h : tidyGroup G = true) : G.Tidy := by
  simp only [tidyGroup, Bool.and_eq_true, decide_eq_true_eq, List.all_eq_true] at h
  constructor
  case v => exact fun L hL => (h.1.2 L hL).1
  case names => exact fun L hL => (h.1.2 L hL).2
  case entered => exact h.2
  all_goals simp_all [Group.Whole]

/-- A team's and a state's tidiness, as checks. -/
def tidyTeam (T : Team) : Bool := Store.wf T.scratch && Tab.wf T.groups && Tab.wf T.steps && T.groups.all fun G => tidyGroup G.2

theorem tidy_team {T : Team} (h : tidyTeam T = true) : T.Tidy := by
  simp only [tidyTeam, Bool.and_eq_true, List.all_eq_true] at h
  exact ⟨h.1.1.1, h.1.1.2, h.1.2, fun G hG => tidy_group (h.2 G hG)⟩

def tidyState (s : State) : Bool :=
  Tab.wf s.parts && Tab.wf s.cores && Tab.wf s.grids && Tab.wf s.teams && Tab.wf s.ops && Tab.wf s.tokens &&
  s.parts.all (fun P => Tab.wf P.2.queues) && s.cores.all (fun k => Tab.wf k.2.locks && Tab.wf k.2.shapes) &&
  s.teams.all (fun T => tidyTeam T.2) && s.shelf.all fun x => x.teams.all fun T => tidyTeam T.2

theorem tidy_state {s : State} (h : tidyState s = true) : s.Tidy := by
  simp only [tidyState, Bool.and_eq_true, List.all_eq_true] at h
  constructor
  case queues => exact h.1.1.1.2
  case locks => exact h.1.1.2
  case team => exact fun T hT => tidy_team (h.1.2 T hT)
  case shelf => exact fun x hx T hT => tidy_team (h.2 x hx T hT)
  all_goals simp_all

set_option maxRecDepth 100000 in
/-- A step from a state that is canonical and tidy. -/
theorem witness_invariants : (State.reset.staged 0x01050607).Canonical ∧ (State.reset.staged 0x01050607).Tidy ∧
    ∃ t, step (State.reset.staged 0x01050607) = .next t :=
  ⟨⟨by decide +kernel, by decide +kernel, by decide +kernel, by decide +kernel, by decide +kernel⟩, tidy_state (by decide +kernel), next_of (by decide +kernel)⟩

/-- As `can`, the word's execution leading to a next state. -/
theorem runs {s : State} {i : Instr} (h : (can s i fun _ => goes (exec i s)) = true) : ∃ c t, Executes s c i ∧ exec i s = .next t := by
  obtain ⟨c, he, hg⟩ := executes_of h
  obtain ⟨t, ht⟩ := next_of hg
  exact ⟨c, t, he, ht⟩

/-- A word of lane 0 alone, its access passing and its execution leading to a next state. -/
theorem runs_at {s : State} {i : Instr} {k : ReqKind} {n : Nat} {a : Ctx → Nat → Nat} {ls : Ctx → List Nat}
    (h : can s i (fun c => ls c == [0] && passes (lanePath s c k 0 (a c 0) n) k c) = true) (hg : goes (exec i s) = true) :
    ∃ c u t ps, Executes s c i ∧ Reaches c k n (a c) (fun _ => ps) (ls c) s u ∧ (∀ l ∈ ls c, c.Here k l ps) ∧ exec i s = .next t := by
  obtain ⟨c, u, ps, he, _, hr, hh⟩ := reaches_of h
  obtain ⟨t, ht⟩ := next_of hg
  exact ⟨c, u, t, ps, he, hr, hh, ht⟩

set_option maxRecDepth 100000 in
/-- A word of each sort that the frames speak of, executed. -/
theorem witness_frames : (∃ c t, Executes base c (.iadd false (.v 5) (.v 6) (.s 7)) ∧ exec (.iadd false (.v 5) (.v 6) (.s 7)) base = .next t) ∧
    (∃ c t, Executes base c (.lea false (.v 4) (.v 6) (.s 7)) ∧ exec (.lea false (.v 4) (.v 6) (.s 7)) base = .next t) ∧
    (∃ c t, Executes base c (.faddF32 false (.q 3) (.v 6) (.s 7)) ∧ exec (.faddF32 false (.q 3) (.v 6) (.s 7)) base = .next t) ∧
    (∃ c t, Executes formatted c (.fcvtQF32 false (.v 5) (.v 6) 7 0) ∧ exec (.fcvtQF32 false (.v 5) (.v 6) 7 0) formatted = .next t) ∧
    descValid (Store.get (groupAt formatted 0).f 7) = true ∧
    (∃ c t, Executes base c (.unpack2F16X2 false (.v 190) (.s 7)) ∧ exec (.unpack2F16X2 false (.v 190) (.s 7)) base = .next t) ∧
    (∃ c t, Executes base c (.uadd false (.s 5) (.s 6) (.s 7)) ∧ exec (.uadd false (.s 5) (.s 6) (.s 7)) base = .next t) ∧
    (∃ c t, Executes base c (.yield true) ∧ exec (.yield true) base = .next t) ∧
    (∃ c u t ps, Executes (vaddr 0x401000 solo) c (.ldW false (.v 5) (.v 0) 0xFF) ∧
      Reaches c .read 4 (fun l => addOffset (c.grp.pairVal (c.grp.lane l) (.v 0)) ((0xFF : BitVec 8).toInt * 4)) (fun _ => ps) c.lanes
        (vaddr 0x401000 solo) u ∧ (∀ l ∈ c.lanes, c.Here .read l ps) ∧ exec (.ldW false (.v 5) (.v 0) 0xFF) (vaddr 0x401000 solo) = .next t) ∧
    (∃ c u t ps, Executes (vaddr 0x401000 solo) c (.stW false (.v 5) (.v 0) 0) ∧
      Reaches c .write 4 (fun l => addOffset (c.grp.pairVal (c.grp.lane l) (.v 0)) ((0 : BitVec 8).toInt * 4)) (fun _ => ps) c.storers
        (vaddr 0x401000 solo) u ∧ (∀ l ∈ c.storers, c.Here .write l ps) ∧ exec (.stW false (.v 5) (.v 0) 0) (vaddr 0x401000 solo) = .next t) :=
  ⟨runs (by decide +kernel), runs (by decide +kernel), runs (by decide +kernel), runs (by decide +kernel), by decide +kernel,
    runs (by decide +kernel), runs (by decide +kernel), runs (by decide +kernel),
    runs_at (a := fun c l => addOffset (c.grp.pairVal (c.grp.lane l) (.v 0)) ((0xFF : BitVec 8).toInt * 4)) (ls := Ctx.lanes)
      (by decide +kernel) (by decide +kernel),
    runs_at (a := fun c l => addOffset (c.grp.pairVal (c.grp.lane l) (.v 0)) ((0 : BitVec 8).toInt * 4)) (ls := Ctx.storers)
      (by decide +kernel) (by decide +kernel)⟩

end Sys2Proof.Tests
end

/-!
PROOFS. Faults, record rings and RESUME (23_translation_and_residency.md R333 to R336, 26_partitions_and_fleet.md R377).
-/
namespace Sys2Proof.Machine

/-! ## Tables: records and their keys, updates of one entry -/

theorem Tab.mem_of_get? {α : Type} {m : Tab α} {i : Nat} {a : α} (h : Tab.get? m i = some a) : (i, a) ∈ m := by
  induction m with
  | nil => cases h
  | cons e m ih =>
    obtain ⟨k, x⟩ := e
    by_cases hk : k = i
    · subst hk
      obtain rfl : x = a := by simpa [Tab.get?] using h
      exact List.mem_cons_self
    · exact List.mem_cons_of_mem _ (ih (by simpa [Tab.get?, hk] using h))

theorem Tab.get?_of_mem_rising {α : Type} {m : Tab α} {i : Nat} {a : α} :
    ∀ {b : Nat}, Tab.risingFrom b m = true → (i, a) ∈ m → Tab.get? m i = some a := by
  induction m with
  | nil => intro b _ h; cases h
  | cons e m ih =>
    intro b hr h
    obtain ⟨k, x⟩ := e
    simp only [Tab.risingFrom, Bool.and_eq_true, decide_eq_true_eq] at hr
    rcases List.mem_cons.1 h with he | hm
    · cases he; simp [Tab.get?]
    · have rest := ih hr.2 hm
      have hk : k ≠ i := by
        rintro rfl
        rw [Tab.get?_below hr.2 (Nat.lt_succ_self _)] at rest
        cases rest
      simpa [Tab.get?, hk] using rest

theorem Tab.get?_of_mem {α : Type} {m : Tab α} (hw : Tab.wf m = true) {i : Nat} {a : α} (h : (i, a) ∈ m) :
    Tab.get? m i = some a := Tab.get?_of_mem_rising hw h

/-- A table of which every record is replaced under its own key. -/
theorem Tab.get?_map {α β : Type} (m : Tab α) (f : Nat × α → Nat × β) (hf : ∀ e, (f e).1 = e.1) (i : Nat) :
    Tab.get? (m.map f) i = (Tab.get? m i).map (fun a => (f (i, a)).2) := by
  induction m with
  | nil => rfl
  | cons e m ih =>
    have step : Tab.get? ((e :: m).map f) i = if e.1 = i then some (f e).2 else Tab.get? (m.map f) i := by
      rw [List.map_cons, ← hf e]; rfl
    rw [step, ih]
    by_cases hk : e.1 = i
    · subst hk; simp [Tab.get?]
    · simp [Tab.get?, hk]

theorem Tab.lowestFree_none {α : Type} {m : Tab α} {n : Nat} (h : ∀ i < n, Tab.get? m i ≠ none) :
    Tab.lowestFree m n = none := by
  simpa [Tab.lowestFree] using h

theorem Tab.lowestFree_some {α : Type} {m : Tab α} {n i : Nat} (hi : i < n) (free : Tab.get? m i = none)
    (least : ∀ j < i, Tab.get? m j ≠ none) : Tab.lowestFree m n = some i := by
  simp only [Tab.lowestFree, List.find?_range_eq_some, List.mem_range]
  exact ⟨by simp [free], hi, fun j hj => by simpa [Option.isSome_iff_ne_none] using least j hj⟩

theorem EntryOnly.modify {α : Type} {m : Tab α} {k : Nat} {a : α} (h : Tab.get? m k = some a) (f : α → α) :
    EntryOnly m (Tab.modify m k f) k (f a) :=
  ⟨by simp [Tab.get?_modify, h], fun n hn => by simp [Tab.get?_modify, Ne.symm hn]⟩

theorem EntryOnly.put {α : Type} (m : Tab α) (k : Nat) (a : α) : EntryOnly m (Tab.put m k a) k a :=
  ⟨by simp [Tab.get?_put], fun n hn => by simp [Tab.get?_put, Ne.symm hn]⟩

theorem OnlyPart.modPart {s : State} {p : Nat} {P : Part} (h : Tab.get? s.parts p = some P) (f : Part → Part) :
    OnlyPart s (s.modPart p f) p (f P) := ⟨rfl, EntryOnly.modify h f⟩

/-! ## Raising a fault (R334, R335) -/

theorem AccKind.writes_eq (k : AccKind) : k.writes = decide (k = .store ∨ k = .atomic ∨ k = .engineWrite) := by
  cases k <;> rfl

/-- The key of the token that a failed access waits on (R335). -/
def faultKey (sp : Space) (va : Nat) (k : AccKind) : Token := ⟨sp.part, sp.asid, va / 4096, k.writes⟩

/-- The machine with a token taken and its record left for the partition's ring. -/
def State.takeToken (s : State) (sp : Space) (va : Nat) (k : AccKind) (f : XFail) (source room i : Nat) : State :=
  { s with tokens := Tab.put s.tokens i (faultKey sp va k) }.pushFault sp.part
    (faultRecord s.time va i sp.asid.toNat source k.code f room)

section Raise
variable {s : State} {sp : Space} {va : Nat} {k : AccKind} {f : XFail} {source room : Nat}

theorem raiseFault_joins (hw : Tab.wf s.tokens = true) {tok : Nat} (h : Tab.get? s.tokens tok = some (faultKey sp va k)) :
    ∃ i, Tab.get? s.tokens i = some (faultKey sp va k) ∧ raiseFault s sp va k f source room = (s, some i) := by
  cases hfind : s.tokens.find? (fun t => t.2 == faultKey sp va k) with
  | none => exact absurd (List.find?_eq_none.1 hfind _ (Tab.mem_of_get? h)) (by simp)
  | some e =>
    have hkey : e.2 = faultKey sp va k := by simpa using List.find?_some hfind
    refine ⟨e.1, Tab.get?_of_mem hw (hkey ▸ List.mem_of_find?_eq_some hfind), ?_⟩
    simp only [faultKey] at hfind
    simp only [raiseFault, hfind]

/-- A fault whose key is no outstanding token's turns on the lowest free token alone. -/
theorem raiseFault_new (hw : Tab.wf s.tokens = true) (h : ∀ tok, Tab.get? s.tokens tok ≠ some (faultKey sp va k)) :
    raiseFault s sp va k f source room = match Tab.lowestFree s.tokens 1024 with
      | none => (s, none)
      | some i => (s.takeToken sp va k f source room i, some i) := by
  have hfind : s.tokens.find? (fun t => t.2 == faultKey sp va k) = none :=
    List.find?_eq_none.2 fun e he => by
      simp only [beq_iff_eq]
      exact fun hk => h e.1 (Tab.get?_of_mem hw (hk ▸ he))
  simp only [faultKey] at hfind
  simp only [raiseFault, hfind]
  cases Tab.lowestFree s.tokens 1024 <;> rfl

theorem raiseFault_full (hw : Tab.wf s.tokens = true) (h : ∀ tok, Tab.get? s.tokens tok ≠ some (faultKey sp va k))
    (full : ∀ i < 1024, Tab.get? s.tokens i ≠ none) : raiseFault s sp va k f source room = (s, none) := by
  rw [raiseFault_new hw h, Tab.lowestFree_none full]

theorem raiseFault_takes (hw : Tab.wf s.tokens = true) (h : ∀ tok, Tab.get? s.tokens tok ≠ some (faultKey sp va k))
    {i : Nat} (hi : i < 1024) (free : Tab.get? s.tokens i = none) (least : ∀ m < i, Tab.get? s.tokens m ≠ none) :
    raiseFault s sp va k f source room = (s.takeToken sp va k f source room i, some i) := by
  rw [raiseFault_new hw h, Tab.lowestFree_some hi free least]

variable (s sp va k f source room)

/-- A fault leaves the machine as it was, or takes a token. -/
theorem raiseFault_state : (raiseFault s sp va k f source room).1 = s ∨
    ∃ i, (raiseFault s sp va k f source room).1 = s.takeToken sp va k f source room i := by
  unfold raiseFault
  dsimp only
  split
  · exact .inl rfl
  · split
    · exact .inl rfl
    · next i _ => exact .inr ⟨i, rfl⟩

@[simp] theorem raiseFault_teams : (raiseFault s sp va k f source room).1.teams = s.teams := by
  rcases raiseFault_state s sp va k f source room with h | ⟨i, h⟩ <;> rw [h]; rfl

@[simp] theorem raiseFault_ops : (raiseFault s sp va k f source room).1.ops = s.ops := by
  rcases raiseFault_state s sp va k f source room with h | ⟨i, h⟩ <;> rw [h]; rfl

end Raise

/-- A token taken changes the tokens and the ring of its partition only. -/
theorem State.takeToken_spec {s : State} {sp : Space} {P : Part} (hP : Tab.get? s.parts sp.part = some P) (va : Nat)
    (k : AccKind) (f : XFail) (source room i : Nat) :
    let u := s.takeToken sp va k f source room i
    u = { s with tokens := u.tokens, parts := u.parts } ∧ EntryOnly s.tokens u.tokens i (faultKey sp va k) ∧
      OnlyPart s { s with parts := u.parts } sp.part { P with fault := { P.fault with
        waiting := P.fault.waiting ++ [faultRecord s.time va i sp.asid.toNat source k.code f room] } } :=
  ⟨rfl, EntryOnly.put .., OnlyPart.modPart hP _⟩

/-! ## A fault record's fields (R334) -/

theorem AccKind.code_lt (k : AccKind) : k.code < 2 ^ 4 := by cases k <;> decide

/-- A record is the sum of its fields, each at its place, so that each is read back where it stands. -/
theorem faultRecord_fields {stamp va token asid source kind room : Nat} {f : XFail} (hva : va < 2 ^ 64)
    (htoken : token < 2 ^ 16) (hasid : asid < 2 ^ 16) (hsource : source < 2 ^ 12) (hkind : kind < 2 ^ 4)
    (hroom : room < 2 ^ 4) (hcause : f.cause < 2 ^ 4) (hlevel : f.level < 2 ^ 3) :
    let field (lo n : Nat) : Nat := (faultRecord stamp va token asid source kind f room).toNat / 2 ^ lo % 2 ^ n
    field 192 64 = stamp % 2 ^ 64 ∧ field 128 64 = va ∧ field 112 16 = token ∧ field 96 16 = asid ∧
      field 84 12 = source ∧ field 80 4 = kind ∧ field 76 4 = f.cause ∧
      field 75 1 = (if f.lod = true then 1 else 0) ∧ field 72 3 = f.level ∧ field 68 4 = room ∧ field 0 68 = 0 := by
  have hstamp : stamp % 2 ^ 64 < 2 ^ 64 := Nat.mod_lt _ (by decide)
  have hlod : (if f.lod then 2 ^ 75 else 0) = (if f.lod = true then 1 else 0) * 2 ^ 75 := by split <;> rfl
  have hbit : (if f.lod = true then 1 else 0) < 2 := by split <;> decide
  simp only [faultRecord, BitVec.toNat_ofNat, Nat.mod_eq_of_lt hva, hlod]
  generalize stamp % 2 ^ 64 = stamp at *
  generalize (if f.lod = true then 1 else 0) = lod at *
  rw [Nat.mod_eq_of_lt (by omega)]
  refine ⟨?_, ?_, ?_, ?_, ?_, ?_, ?_, ?_, ?_, ?_, ?_⟩ <;> omega

/-! ## Parking and waiting (R10, R261, R335) -/

theorem State.parkLane_eq (s : State) (c : Ctx) (l va : Nat) (k : AccKind) (f : XFail) :
    s.parkLane c l va k f = (raiseFault s c.space va k f c.team.pcore 0).1.modLane c.t c.g l fun L =>
      { L with q := Latches.invalid, halt := false, stalled := false,
               hold := match (raiseFault s c.space va k f c.team.pcore 0).2 with
                 | some i => .parked i
                 | none => .parkedFree va k.code f.cause f.level f.lod } := rfl

/-- A lane of a group of a team, looked up after a change of it. -/
theorem State.modLane_get? {s : State} {t g l : Nat} {T : Team} {G : Group} {L : Lane} (hT : Tab.get? s.teams t = some T)
    (hG : Tab.get? T.groups g = some G) (hL : Tab.get? G.lanes l = some L) (f : Lane → Lane) :
    ∃ T' G', Tab.get? (s.modLane t g l f).teams t = some T' ∧ Tab.get? T'.groups g = some G' ∧
      Tab.get? G'.lanes l = some (f L) := by
  simp [State.modLane, State.modGroup, State.modTeam, Tab.get?_modify, hT, hG, hL]

theorem parkLane_spec {s : State} {c : Ctx} {l : Nat} {T : Team} {G : Group} {L : Lane} (hT : Tab.get? s.teams c.t = some T)
    (hG : Tab.get? T.groups c.g = some G) (hL : Tab.get? G.lanes l = some L) (va : Nat) (k : AccKind) (f : XFail) :
    let raised := raiseFault s c.space va k f c.team.pcore 0
    ∃ T' G' L', Tab.get? (s.parkLane c l va k f).teams c.t = some T' ∧ Tab.get? T'.groups c.g = some G' ∧
      Tab.get? G'.lanes l = some L' ∧ s.parkLane c l va k f = { raised.1 with teams := (s.parkLane c l va k f).teams } ∧
      L' = { L with q := Latches.invalid, halt := false, stalled := false, hold := match raised.2 with
        | some tok => .parked tok
        | none => .parkedFree va k.code f.cause f.level f.lod } := by
  intro raised
  rw [State.parkLane_eq]
  obtain ⟨T', G', hT', hG', hL'⟩ := State.modLane_get? (s := raised.1) (by simpa [raised] using hT) hG hL fun L =>
    { L with q := Latches.invalid, halt := false, stalled := false, hold := match raised.2 with
      | some tok => .parked tok
      | none => .parkedFree va k.code f.cause f.level f.lod }
  exact ⟨T', G', _, hT', hG', hL', rfl, rfl⟩

theorem waitOp_spec {s : State} {n : Nat} {o : EngineOp} (ho : Tab.get? s.ops n = some o) (sp : Space) (va : Nat)
    (k : AccKind) (f : XFail) :
    let raised := raiseFault s sp va k f o.unit (o.room.getD 0)
    s.waitOp n o sp va k f = { raised.1 with ops := (s.waitOp n o sp va k f).ops } ∧
      EntryOnly s.ops (s.waitOp n o sp va k f).ops n { o with token := raised.2 } := by
  intro raised
  refine ⟨rfl, ?_⟩
  have hops : (s.waitOp n o sp va k f).ops = Tab.modify s.ops n (fun o => { o with token := raised.2 }) := by
    rw [← raiseFault_ops s sp va k f o.unit (o.room.getD 0)]; rfl
  rw [hops]
  exact EntryOnly.modify ho _

/-! ## Record rings (R333, R377) -/

theorem Ring.hasRoom_iff (r : Ring) :
    r.hasRoom = true ↔ r.en = true ∧ (r.produce - r.consume).toNat < 2 ^ r.log.toNat := by
  simp [Ring.hasRoom]

theorem Ring.hasRoom_eq_false_iff (r : Ring) :
    r.hasRoom = false ↔ ¬(r.en = true ∧ (r.produce - r.consume).toNat < 2 ^ r.log.toNat) := by
  rw [← Ring.hasRoom_iff, Bool.not_eq_true]

theorem Ring.advance_eq {r : Ring} {x : BitVec 256} {rest : List (BitVec 256)} (h : r.waiting = x :: rest) :
    r.advance = { r with produce := r.produce + 1, waiting := rest } := by
  simp [Ring.advance, h]

@[simp] theorem State.performByte_parts (s : State) (t : Nat) (e : Place × Byte) : (s.performByte t e).parts = s.parts := by
  obtain ⟨p, b⟩ := e
  cases p with
  | scratch o => rfl
  | phys a => simp only [State.performByte]; split <;> rfl
  | enc a => rfl

@[simp] theorem State.performBytes_parts (s : State) (t : Nat) (bs : List (Place × Byte)) :
    (s.performBytes t bs).parts = s.parts :=
  foldl_keeps (P := fun u => u.parts = s.parts) _ (fun u e hu => (u.performByte_parts t e).trans hu) bs s rfl

@[simp] theorem State.deviceWrite_parts (s : State) (pa : Nat) (bs : List Byte) : (s.deviceWrite pa bs).parts = s.parts :=
  s.performBytes_parts 0 _

theorem exec_faultRecordWrite (p : Nat) (s : State) : exec (.faultRecordWrite p) s = execFaultRecordWrite p s := rfl

theorem exec_errorRecordWrite (p : Nat) (s : State) : exec (.errorRecordWrite p) s = execErrorRecordWrite p s := rfl

/-- A record dropped from behind records of other classes leaves the rest in their order. -/
theorem erase_first_corrected {before after : List (BitVec 256)} {x : BitVec 256}
    (hbefore : ∀ y ∈ before, y.extractLsb' 0 2 ≠ 0#2) (hx : x.extractLsb' 0 2 = 0#2) :
    (before ++ x :: after).erase x = before ++ after := by
  rw [List.erase_append_right _ fun hmem => hbefore x hmem hx, List.erase_cons_head]

section Rings
variable {s : State} {p : Nat} {P : Part} (hP : Tab.get? s.parts p = some P)
include hP

/-- A record written by the device, and its partition changed. -/
theorem OnlyPart.deviceWrite (pa : Nat) (bs : List Byte) (f : Part → Part) :
    OnlyPart (s.deviceWrite pa bs) ((s.deviceWrite pa bs).modPart p f) p (f P) :=
  OnlyPart.modPart (by rw [State.deviceWrite_parts, hP]) f

theorem faultRecordWrite_idle (h : P.fault.waiting = [] ∨ P.fault.hasRoom = false) :
    exec (.faultRecordWrite p) s = .next s := by
  rw [exec_faultRecordWrite, execFaultRecordWrite, hP]
  rcases h with h | h
  · simp [h]
  · cases hw : P.fault.waiting <;> simp [h, hw]

theorem faultRecordWrite_writes {x : BitVec 256} {rest : List (BitVec 256)} (hw : P.fault.waiting = x :: rest)
    (hr : P.fault.hasRoom = true) :
    ∃ u, exec (.faultRecordWrite p) s = .next u ∧ OnlyPart (s.deviceWrite P.fault.nextAddr (toBytes 32 x.toNat)) u p
      (({ P with fault := { P.fault with produce := P.fault.produce + 1, waiting := rest } } : Part).interrupt 0) := by
  rw [← Ring.advance_eq hw, exec_faultRecordWrite, execFaultRecordWrite, hP]
  simp only [hw, hr, Bool.true_eq_false, if_false]
  exact ⟨_, rfl, OnlyPart.deviceWrite hP ..⟩

theorem errorRecordWrite_idle
    (h : P.error.waiting = [] ∨ P.error.hasRoom = false ∧ ∀ x ∈ P.error.waiting, x.extractLsb' 0 2 ≠ 0#2) :
    exec (.errorRecordWrite p) s = .next s := by
  rw [exec_errorRecordWrite, execErrorRecordWrite, hP]
  rcases h with h | ⟨hr, hc⟩
  · simp [h]
  · have none_corrected : P.error.waiting.find? correctedClass = none :=
      List.find?_eq_none.2 fun x hx => by simpa [correctedClass] using hc x hx
    cases hw : P.error.waiting with
    | nil => simp [hw]
    | cons y ys => rw [hw] at none_corrected; simp [hr, hw, none_corrected]

theorem errorRecordWrite_writes {x : BitVec 256} {rest : List (BitVec 256)} (hw : P.error.waiting = x :: rest)
    (hr : P.error.hasRoom = true) :
    ∃ u, exec (.errorRecordWrite p) s = .next u ∧ OnlyPart (s.deviceWrite P.error.nextAddr (toBytes 32 x.toNat)) u p
      (({ P with error := { P.error with produce := P.error.produce + 1, waiting := rest } } : Part).interrupt 17) := by
  rw [← Ring.advance_eq hw, exec_errorRecordWrite, execErrorRecordWrite, hP]
  simp only [hw, hr, if_true]
  exact ⟨_, rfl, OnlyPart.deviceWrite hP ..⟩

/-- A ring without room drops the first of its waiting records that is of class 0 (log 52). -/
theorem errorRecordWrite_drops (hr : P.error.hasRoom = false) {before after : List (BitVec 256)} {x : BitVec 256}
    (hw : P.error.waiting = before ++ x :: after) (hbefore : ∀ y ∈ before, y.extractLsb' 0 2 ≠ 0#2)
    (hx : x.extractLsb' 0 2 = 0#2) :
    ∃ u, exec (.errorRecordWrite p) s = .next u ∧ OnlyPart s u p
      { P with error := { P.error with waiting := before ++ after }, cedrop := countDrop P.cedrop } := by
  have first_corrected : P.error.waiting.find? correctedClass = some x := by
    rw [hw, List.find?_append, List.find?_eq_none.2 fun y hy => by simpa [correctedClass] using hbefore y hy]
    simp [correctedClass, hx]
  have dropped : exec (.errorRecordWrite p) s = .next (s.modPart p fun P =>
      { P with error := { P.error with waiting := P.error.waiting.erase x }, cedrop := countDrop P.cedrop }) := by
    rw [exec_errorRecordWrite, execErrorRecordWrite, hP]
    cases hl : P.error.waiting with
    | nil => rw [hl] at first_corrected; cases first_corrected
    | cons y ys => rw [hl] at first_corrected; simp [hr, hl, first_corrected]
  rw [← erase_first_corrected hbefore hx, ← hw]
  exact ⟨_, dropped, OnlyPart.modPart hP _⟩

end Rings

/-! ## A token's waiters let go (R336) -/

/-- The lanes of a group of a team, where there is such a group. -/
def State.lanesAt (s : State) (t g : Nat) : Option (Tab Lane) :=
  (Tab.get? s.teams t).bind fun T => (Tab.get? T.groups g).map (·.lanes)

theorem State.lanesAt_eq {s : State} {t g : Nat} {T : Team} {G : Group} (hT : Tab.get? s.teams t = some T)
    (hG : Tab.get? T.groups g = some G) : s.lanesAt t g = some G.lanes := by
  simp [State.lanesAt, hT, hG]

theorem State.lanesAt_some {s : State} {t g : Nat} {ls : Tab Lane} (h : s.lanesAt t g = some ls) :
    ∃ T G, Tab.get? s.teams t = some T ∧ Tab.get? T.groups g = some G ∧ G.lanes = ls := by
  simpa [State.lanesAt, Option.bind_eq_some_iff] using h

/-- A change of every team that leaves the groups' lanes under a function of them. -/
theorem State.lanesAt_map {s u : State} {f : Nat × Team → Nat × Team} (hu : u.teams = s.teams.map f)
    (hf : ∀ e, (f e).1 = e.1) {φ : Tab Lane → Tab Lane} {g : Nat}
    (hg : ∀ e, (Tab.get? (f e).2.groups g).map (·.lanes) = ((Tab.get? e.2.groups g).map (·.lanes)).map φ) (t : Nat) :
    u.lanesAt t g = (s.lanesAt t g).map φ := by
  rw [State.lanesAt, State.lanesAt, hu, Tab.get?_map _ f hf]
  cases Tab.get? s.teams t with
  | none => rfl
  | some T => exact hg (t, T)

@[simp] theorem Group.release_lanes (G : Group) (tok : Nat) :
    (G.release tok).lanes = G.lanes.map (fun e => (e.1, e.2.release tok)) := by
  simp only [Group.release]; split <;> rfl

theorem Lane.release_parked {L : Lane} {tok : Nat} (h : L.hold = .parked tok) : L.release tok = { L with hold := .run } := by
  simp [Lane.release, h]

theorem Lane.release_other {L : Lane} {tok : Nat} (h : L.hold ≠ .parked tok) : L.release tok = L := by
  simp [Lane.release, h]

theorem Group.lane_of_release {G H : Group} {tok : Nat} (h : H.lanes = G.lanes.map (fun e => (e.1, e.2.release tok)))
    (l : Nat) : H.lane l = (G.lane l).release tok := by
  rw [Group.lane, Group.lane, h, Tab.get?_map]
  · cases Tab.get? G.lanes l <;> rfl
  · exact fun _ => rfl

@[simp] theorem State.freeToken_tokens (s : State) (tok : Nat) : (s.freeToken tok).tokens = Tab.drop s.tokens tok := rfl
@[simp] theorem State.freeToken_mem (s : State) (tok : Nat) : (s.freeToken tok).mem = s.mem := rfl

theorem State.freeToken_grid (s : State) (tok n : Nat) : Tab.get? (s.freeToken tok).grids n =
    (Tab.get? s.grids n).map (fun g => { g with wait := g.wait.release tok }) := by
  change Tab.get? (s.grids.map _) n = _
  rw [Tab.get?_map]
  exact fun _ => rfl

theorem State.freeToken_op (s : State) (tok n : Nat) : Tab.get? (s.freeToken tok).ops n =
    (Tab.get? s.ops n).map (fun o => if o.token = some tok then { o with token := none } else o) := by
  change Tab.get? (s.ops.map _) n = _
  rw [Tab.get?_map]
  exact fun _ => rfl

theorem State.freeToken_lanesAt (s : State) (tok t g : Nat) :
    (s.freeToken tok).lanesAt t g = (s.lanesAt t g).map (·.map (fun e => (e.1, e.2.release tok))) := by
  refine State.lanesAt_map (f := fun e => (e.1, e.2.release tok)) rfl (fun _ => rfl) (fun e => ?_) t
  simp only [Team.release]
  rw [Tab.get?_map]
  · cases Tab.get? e.2.groups g <;> simp
  · exact fun _ => rfl

/-! ## No lane waits for a token to become free (R335) -/

/-- No lane of the device waits without a token. -/
def State.NoneWaitFree (s : State) : Prop := ∀ t g ls, s.lanesAt t g = some ls → ∀ e ∈ ls,
  ∀ va kind cause level lod, e.2.hold ≠ .parkedFree va kind cause level lod

theorem State.noneWaitFree_of_lanes {s : State} (h : ∀ T ∈ s.teams, ∀ G ∈ T.2.groups, ∀ L ∈ G.2.lanes,
    ∀ va kind cause level lod, L.2.hold ≠ .parkedFree va kind cause level lod) : s.NoneWaitFree := by
  intro t g ls hls
  obtain ⟨T, G, hT, hG, rfl⟩ := State.lanesAt_some hls
  exact h _ (Tab.mem_of_get? hT) _ (Tab.mem_of_get? hG)

theorem State.serveLane_noneWaitFree {s : State} (h : s.NoneWaitFree) (t g l : Nat) : s.serveLane t g l = s := by
  unfold State.serveLane
  cases hT : Tab.get? s.teams t with
  | none => rfl
  | some T =>
    dsimp only
    split
    · next G gr hG _ =>
      cases hL : Tab.get? G.lanes l with
      | none => simp [Group.lane, hL, Lane.start]
      | some L =>
        have hl : G.lane l = L := by simp [Group.lane, hL]
        rw [hl]
        split
        · next hh => exact (h t g _ (State.lanesAt_eq hT hG) _ (Tab.mem_of_get? hL) _ _ _ _ _ hh).elim
        · rfl
    · rfl

theorem State.serveFree_noneWaitFree {s : State} (h : s.NoneWaitFree) : s.serveFree = s := by
  have lane (t g : Nat) : ∀ u l, u = s → u.serveLane t g l = s := by
    rintro _ l rfl
    exact State.serveLane_noneWaitFree h t g l
  have group (t : Nat) : ∀ (u : State) (g : Nat × Group), u = s →
      (List.range 32).foldl (fun s l => s.serveLane t g.1 l) u = s := fun u g =>
    foldl_keeps (P := fun u => u = s) _ (lane t g.1) _ u
  have team : ∀ (u : State) (t : Nat × Team), u = s →
      t.2.groups.foldl (fun s (g : Nat × Group) => (List.range 32).foldl (fun s l => s.serveLane t.1 g.1 l) s) u = s :=
    fun u t => foldl_keeps (P := fun u => u = s) _ (group t.1) _ u
  exact foldl_keeps (P := fun u => u = s) _ team _ s rfl

theorem Lane.release_not_parkedFree {L : Lane} {va kind cause level : Nat} {lod : Bool}
    (h : L.hold ≠ .parkedFree va kind cause level lod) (tok : Nat) :
    (L.release tok).hold ≠ .parkedFree va kind cause level lod := by
  unfold Lane.release
  split
  · exact Hold.noConfusion
  · exact h

theorem State.freeToken_noneWaitFree {s : State} (h : s.NoneWaitFree) (tok : Nat) : (s.freeToken tok).NoneWaitFree := by
  intro t g ls hls e he va kind cause level lod
  rw [State.freeToken_lanesAt] at hls
  obtain ⟨ls', hls', rfl⟩ := Option.map_eq_some_iff.1 hls
  obtain ⟨e', he', rfl⟩ := List.mem_map.1 he
  exact Lane.release_not_parkedFree (h t g ls' hls' e' he' va kind cause level lod) tok

/-! ## What aborts leave alone (R336, R363, R407) -/

/-- From s to u grids may have been aborted and engine operations stopped; memory, tokens and lanes are as they were. -/
structure State.AbortsOnly (s u : State) : Prop where
  mem : u.mem = s.mem
  tokens : u.tokens = s.tokens
  lanes : ∀ t g, u.lanesAt t g = s.lanesAt t g
  grids : ∀ n g, Tab.get? s.grids n = some g → ∃ h, Tab.get? u.grids n = some h ∧ (g.aborted = true → h.aborted = true)
  ops : ∀ n o, Tab.get? s.ops n = some o → ∃ b, Tab.get? u.ops n = some { o with aborted := o.aborted || b }

namespace State.AbortsOnly
variable {s u v : State}

theorem of_eq (hm : u.mem = s.mem) (ht : u.tokens = s.tokens) (hT : u.teams = s.teams) (hg : u.grids = s.grids)
    (ho : u.ops = s.ops) : s.AbortsOnly u where
  mem := hm
  tokens := ht
  lanes t g := by simp [State.lanesAt, hT]
  grids n g h := ⟨g, by rw [hg, h], id⟩
  ops n o h := ⟨false, by rw [ho, h, Bool.or_false]⟩

theorem refl (s : State) : s.AbortsOnly s := of_eq rfl rfl rfl rfl rfl

theorem trans (h : s.AbortsOnly u) (k : u.AbortsOnly v) : s.AbortsOnly v where
  mem := k.mem.trans h.mem
  tokens := k.tokens.trans h.tokens
  lanes t g := (k.lanes t g).trans (h.lanes t g)
  grids n g hs := by
    obtain ⟨g', hu, hg'⟩ := h.grids n g hs
    obtain ⟨g'', hv, hg''⟩ := k.grids n g' hu
    exact ⟨g'', hv, hg'' ∘ hg'⟩
  ops n o hs := by
    obtain ⟨b, hu⟩ := h.ops n o hs
    obtain ⟨b', hv⟩ := k.ops n _ hu
    exact ⟨b || b', by rw [hv, Bool.or_assoc]⟩

/-- Aborts one after another. -/
theorem foldl {α : Type} {f : State → α → State} (hf : ∀ (s : State) a, s.AbortsOnly (f s a)) (l : List α) (s : State) :
    s.AbortsOnly (l.foldl f s) := foldl_keeps f (fun u a hu => hu.trans (hf u a)) l s (refl s)

theorem noneWaitFree (h : s.AbortsOnly u) (hs : s.NoneWaitFree) : u.NoneWaitFree :=
  fun t g ls hls => hs t g ls (h.lanes t g ▸ hls)

theorem aborted (h : s.AbortsOnly u) {n : Nat} (hs : (Tab.get? s.grids n).map (·.aborted) = some true) :
    (Tab.get? u.grids n).map (·.aborted) = some true := by
  obtain ⟨g, hg, ha⟩ := Option.map_eq_some_iff.1 hs
  obtain ⟨g', hu, ha'⟩ := h.grids n g hg
  simp [hu, ha' ha]

theorem grid_isSome (h : s.AbortsOnly u) {n : Nat} (hs : (Tab.get? s.grids n).isSome = true) :
    (Tab.get? u.grids n).isSome = true := by
  obtain ⟨g, hg⟩ := Option.isSome_iff_exists.1 hs
  obtain ⟨g', hu, -⟩ := h.grids n g hg
  simp [hu]

end State.AbortsOnly

theorem State.modGrid_abortsOnly {s : State} {n : Nat} {f : Grid → Grid} (hf : ∀ g, g.aborted = true → (f g).aborted = true) :
    s.AbortsOnly (s.modGrid n f) := by
  refine { State.AbortsOnly.refl s with grids := fun m g h => ?_ }
  by_cases hm : n = m
  · exact ⟨f g, by simp [State.modGrid, Tab.get?_modify, hm, h], hf g⟩
  · exact ⟨g, by simp [State.modGrid, Tab.get?_modify, hm, h], id⟩

theorem State.modQueue_abortsOnly (s : State) (p q : Nat) (f : Queue → Queue) : s.AbortsOnly (s.modQueue p q f) :=
  .of_eq rfl rfl rfl rfl rfl

@[simp] theorem Team.askStop_lanes (T : Team) (on : Bool) (g : Nat) :
    (Tab.get? (T.askStop on).groups g).map (·.lanes) = (Tab.get? T.groups g).map (·.lanes) := by
  rw [Team.askStop, Tab.get?_map]
  · cases Tab.get? T.groups g <;> rfl
  · exact fun _ => rfl

/-- The groups of an aborted grid's teams asked to stop, its engine operations stopped, its triangles dropped. -/
def State.stopGrid (s : State) (n : Nat) : State :=
  { s with
    teams := s.teams.map (fun e => if e.2.grid = n then (e.1, e.2.askStop true) else e)
    ops := s.ops.map (fun e => if e.2.grid = n then (e.1, { e.2 with aborted := true }) else e)
    cores := s.cores.map (fun e => (e.1, e.2.dropGrid n)) }

theorem State.stopGrid_abortsOnly (s : State) (n : Nat) : s.AbortsOnly (s.stopGrid n) := by
  refine { State.AbortsOnly.refl s with lanes := fun t g => ?_, ops := fun m o h => ?_ }
  · rw [State.lanesAt_map (s := s) (u := s.stopGrid n) (φ := id) rfl, Option.map_id_fun, id]
    · intro e; split <;> rfl
    · intro e; split <;> simp
  · refine ⟨decide (o.grid = n), ?_⟩
    change Tab.get? (s.ops.map _) m = _
    rw [Tab.get?_map, h]
    · by_cases ho : o.grid = n <;> simp [ho]
    · intro e; split <;> rfl

/-- An abort of a grid that exists: its queue drops what a restore has still to make again, the grid is marked, and what
belongs to it stops. -/
theorem State.abortGrid_eq {s : State} {n : Nat} {gr : Grid} (h : Tab.get? s.grids n = some gr) :
    ∃ (f : Queue → Queue) (k : Nat), s.abortGrid n = ((s.modQueue gr.part gr.queue f).modGrid n fun G =>
      { G with aborted := true, wait := .none, liveTeams := G.liveTeams - k }).stopGrid n := by
  unfold State.abortGrid
  rw [h]
  exact ⟨_, _, rfl⟩

theorem State.abortGrid_abortsOnly (s : State) (n : Nat) : s.AbortsOnly (s.abortGrid n) := by
  cases h : Tab.get? s.grids n with
  | none => rw [State.abortGrid, h]; exact .refl s
  | some gr =>
    obtain ⟨f, k, heq⟩ := State.abortGrid_eq h
    rw [heq]
    exact ((State.modQueue_abortsOnly ..).trans (State.modGrid_abortsOnly fun _ _ => rfl)).trans
      (State.stopGrid_abortsOnly ..)

theorem State.abortGrid_aborted {s : State} {n : Nat} (h : (Tab.get? s.grids n).isSome = true) :
    (Tab.get? (s.abortGrid n).grids n).map (·.aborted) = some true := by
  obtain ⟨gr, hgr⟩ := Option.isSome_iff_exists.1 h
  obtain ⟨f, k, heq⟩ := State.abortGrid_eq hgr
  rw [heq]
  refine (State.stopGrid_abortsOnly ..).aborted ?_
  simp [State.modGrid, State.modQueue, Tab.get?_modify, hgr]

/-- Of some grids that are aborted, each that exists is aborted in the end. -/
theorem State.foldl_abortGrid_aborted {n : Nat} : ∀ (gs : List Nat) (s : State), n ∈ gs →
    (Tab.get? s.grids n).isSome = true → (Tab.get? (gs.foldl State.abortGrid s).grids n).map (·.aborted) = some true
  | [], _, hn, _ => absurd hn List.not_mem_nil
  | m :: gs, s, hn, hs => by
    by_cases hm : n = m
    · subst hm
      exact (State.AbortsOnly.foldl State.abortGrid_abortsOnly gs _).aborted (State.abortGrid_aborted hs)
    · exact foldl_abortGrid_aborted gs _ ((List.mem_cons.1 hn).resolve_left hm)
        ((State.abortGrid_abortsOnly s m).grid_isSome hs)

theorem State.abortWait_abortsOnly (s : State) (g : Nat) (w : CWait) : s.AbortsOnly (s.abortWait g w) := by
  cases w with
  | none => exact .refl s
  | token _ what =>
    cases what with
    | dependence => exact .refl s
    | record => exact State.modGrid_abortsOnly fun _ h => h
    | counter => exact State.modGrid_abortsOnly fun _ h => h
    | graph => exact State.abortGrid_abortsOnly s g
    | hostel => exact State.abortGrid_abortsOnly s g

/-! ## RESUME (R336) -/

theorem exec_resumeRetry (p : Nat) (tok : BitVec 16) (s : State) :
    exec (.resumeRetry p tok) s = execResumeRetry p tok s := rfl

theorem exec_resumeAbort (p : Nat) (tok : BitVec 16) (s : State) :
    exec (.resumeAbort p tok) s = execResumeAbort p tok s := rfl

theorem State.ownToken_eq_true {s : State} {p tok : Nat} {k : Token} (h : Tab.get? s.tokens tok = some k) (hp : k.part = p) :
    s.ownToken p tok = true := by
  simp [State.ownToken, h, hp]

theorem State.ownToken_eq_false {s : State} {p tok : Nat} (h : ∀ k, Tab.get? s.tokens tok = some k → k.part ≠ p) :
    s.ownToken p tok = false := by
  unfold State.ownToken
  cases hk : Tab.get? s.tokens tok with
  | none => rfl
  | some k => simpa using h k hk

/-- What waits on an aborted token and cannot run again stops: engine operations, and a raster unit's triangles. -/
def State.stopWaiters (s : State) (tok : Nat) : State :=
  { s with
    ops := s.ops.map (fun e => (e.1, if e.2.token = some tok then { e.2 with aborted := true } else e.2))
    cores := s.cores.map (fun e => (e.1, { e.2 with raster := e.2.raster.filter (fun k => k.token != some tok) })) }

/-- What both answers to a token come to: the token is free, memory is as it was, and the lanes that were parked on it run
again. -/
structure State.Settles (s u : State) (tok : Nat) : Prop where
  token : Tab.get? u.tokens tok = none
  mem : u.mem = s.mem
  lanes : ∀ t g, u.lanesAt t g = (s.lanesAt t g).map (·.map (fun e => (e.1, e.2.release tok)))

theorem State.freeToken_settles {s v : State} {tok : Nat} (hw : Tab.wf s.tokens = true) (ht : v.tokens = s.tokens)
    (hm : v.mem = s.mem) (hT : v.teams = s.teams) : s.Settles (v.freeToken tok) tok where
  token := by rw [State.freeToken_tokens, ht, Tab.get?_drop hw, if_pos rfl]
  mem := hm
  lanes t g := by rw [State.freeToken_lanesAt]; simp only [State.lanesAt, hT]

theorem State.Settles.abortsOnly {s u v : State} {tok : Nat} (h : s.Settles u tok) (k : u.AbortsOnly v) : s.Settles v tok where
  token := k.tokens ▸ h.token
  mem := k.mem.trans h.mem
  lanes t g := (k.lanes t g).trans (h.lanes t g)

/-- The group of a settled token, lane by lane. -/
theorem State.Settles.group {s u : State} {tok t g : Nat} {T : Team} {G : Group} (h : s.Settles u tok)
    (hT : Tab.get? s.teams t = some T) (hG : Tab.get? T.groups g = some G) :
    ∃ T' H, Tab.get? u.teams t = some T' ∧ Tab.get? T'.groups g = some H ∧ ∀ l < 32,
      ((G.lane l).hold = .parked tok → H.lane l = { G.lane l with hold := .run }) ∧
      (¬(G.lane l).hold = .parked tok → H.lane l = G.lane l) := by
  have hu := h.lanes t g
  rw [State.lanesAt_eq hT hG] at hu
  obtain ⟨T', H, hT', hH, hlanes⟩ := State.lanesAt_some hu
  refine ⟨T', H, hT', hH, fun l _ => ?_⟩
  rw [Group.lane_of_release hlanes l]
  exact ⟨Lane.release_parked, Lane.release_other⟩

theorem resumeRetry_next {s : State} {p : Nat} {tok : BitVec 16} (own : s.ownToken p tok.toNat = true) (free : s.NoneWaitFree) :
    exec (.resumeRetry p tok) s = .next (s.freeToken tok.toNat) := by
  rw [exec_resumeRetry, execResumeRetry, if_pos own,
    State.serveFree_noneWaitFree (State.freeToken_noneWaitFree free _)]

/-- RESUME_ABORT frees the token, aborts the grids of its waiting lanes, and after that only aborts what the Concierge waits
with. -/
theorem resumeAbort_next {s : State} {p : Nat} {tok : BitVec 16} (own : s.ownToken p tok.toNat = true) (free : s.NoneWaitFree) :
    ∃ u, exec (.resumeAbort p tok) s = .next u ∧
      ((s.waitingGrids tok.toNat).foldl State.abortGrid ((s.stopWaiters tok.toNat).freeToken tok.toNat)).AbortsOnly u := by
  have freed : ((s.stopWaiters tok.toNat).freeToken tok.toNat).NoneWaitFree :=
    State.freeToken_noneWaitFree (s := s.stopWaiters tok.toNat) free tok.toNat
  have aborted := State.AbortsOnly.foldl State.abortGrid_abortsOnly (s.waitingGrids tok.toNat)
    ((s.stopWaiters tok.toNat).freeToken tok.toNat)
  have concierge (waits : Tab Grid) (queues : List (Nat × Nat)) (v : State) :
      v.AbortsOnly (queues.foldl (fun s q => s.refusePacket q.1 q.2 5) (waits.foldl (fun s e => s.abortWait e.1 e.2.wait) v)) :=
    (State.AbortsOnly.foldl (fun u (e : Nat × Grid) => u.abortWait_abortsOnly e.1 e.2.wait) _ _).trans
      (State.AbortsOnly.foldl (fun u (q : Nat × Nat) => u.modQueue_abortsOnly q.1 q.2 _) _ _)
  rw [exec_resumeAbort, execResumeAbort]
  simp only [own, Bool.true_eq_false, if_false]
  exact ⟨_, congrArg Host.Outcome.next (State.serveFree_noneWaitFree ((aborted.trans (concierge _ _ _)).noneWaitFree freed)),
    concierge _ _ _⟩

theorem State.mem_waitingGrids {s : State} {tok t g l : Nat} {T : Team} {G : Group} (hT : Tab.get? s.teams t = some T)
    (hG : Tab.get? T.groups g = some G) (live : (G.lane l).live = true) (parked : (G.lane l).hold = .parked tok) :
    T.grid ∈ s.waitingGrids tok := by
  cases hL : Tab.get? G.lanes l with
  | none => simp [Group.lane, hL] at live
  | some L =>
    have hl : G.lane l = L := by simp [Group.lane, hL]
    rw [hl] at live parked
    have waits : T.groups.any (fun G => G.2.lanes.any (fun L => L.2.waitsOn tok)) = true :=
      List.any_eq_true.2 ⟨_, Tab.mem_of_get? hG, List.any_eq_true.2
        ⟨_, Tab.mem_of_get? hL, by simp [Lane.waitsOn, live, parked]⟩⟩
    rw [State.waitingGrids, List.mem_eraseDups]
    exact List.mem_map.2 ⟨(t, T), List.mem_filter.2 ⟨Tab.mem_of_get? hT, waits⟩, rfl⟩

/-- An engine operation that waited on an aborted token is stopped, and waits no more. -/
theorem State.stopped_op {s : State} {tok n : Nat} {o : EngineOp} (ho : Tab.get? s.ops n = some o) (ht : o.token = some tok) :
    Tab.get? ((s.stopWaiters tok).freeToken tok).ops n = some { o with aborted := true, token := none } := by
  have stopped : Tab.get? (s.stopWaiters tok).ops n = some { o with aborted := true } := by
    change Tab.get? (s.ops.map _) n = _
    rw [Tab.get?_map, ho]
    · simp [ht]
    · exact fun _ => rfl
  rw [State.freeToken_op, stopped]
  simp [ht]

/-- What RESUME_ABORT comes to: the token is settled, the grids of the lanes that waited on it are aborted, and the engine
operations that waited on it are stopped. -/
theorem resumeAbort_spec {s : State} {p : Nat} {tok : BitVec 16} (own : s.ownToken p tok.toNat = true)
    (hw : Tab.wf s.tokens = true) (free : s.NoneWaitFree) :
    ∃ u, exec (.resumeAbort p tok) s = .next u ∧ s.Settles u tok.toNat ∧
      (∀ n ∈ s.waitingGrids tok.toNat, (Tab.get? s.grids n).isSome = true →
        (Tab.get? u.grids n).map (·.aborted) = some true) ∧
      ∀ n o, Tab.get? s.ops n = some o → o.token = some tok.toNat →
        Tab.get? u.ops n = some { o with aborted := true, token := none } := by
  obtain ⟨u, hu, later⟩ := resumeAbort_next own free
  have freed : s.Settles ((s.stopWaiters tok.toNat).freeToken tok.toNat) tok.toNat :=
    State.freeToken_settles hw rfl rfl rfl
  have all_aborts := (State.AbortsOnly.foldl State.abortGrid_abortsOnly (s.waitingGrids tok.toNat)
    ((s.stopWaiters tok.toNat).freeToken tok.toNat)).trans later
  refine ⟨u, hu, freed.abortsOnly all_aborts, fun n hn hgrid => ?_, fun n o ho hwaits => ?_⟩
  · refine later.aborted (State.foldl_abortGrid_aborted _ _ hn ?_)
    simpa [State.freeToken_grid, State.stopWaiters] using hgrid
  · obtain ⟨b, hb⟩ := all_aborts.ops n _ (State.stopped_op ho hwaits)
    exact hb

/-! ## The obligation -/

/-- Settles O40: parking and waiting by the equations of the two operations, a raised fault by the three cases of the tokens,
rings by the branch that the room in them and their waiting records choose, RESUME by what every abort leaves alone. -/
theorem faultsParkAndResume : Obligations.FaultsParkAndResume := by
  unfold Obligations.FaultsParkAndResume
  refine ⟨⟨?parking, ?waiting, ?raising⟩, ?rings, ?foreign, ?answers⟩
  case parking =>
    intro s c l va k f T G L hT hG hL _
    exact parkLane_spec hT hG hL va k f
  case waiting =>
    intro s n o sp va k f ho
    exact waitOp_spec ho sp va k f
  case raising =>
    intro s sp va k f source room P hw hP
    rw [← AccKind.writes_eq]
    refine ⟨fun ⟨tok, h⟩ => raiseFault_joins hw h, fun h => ⟨raiseFault_full hw h, fun i hi hfree least => ?_⟩⟩
    obtain ⟨hu, htokens, hparts⟩ := State.takeToken_spec hP va k f source room i
    exact ⟨_, _, raiseFault_takes hw h hi hfree least, hu, htokens, hparts, fun hva hsource hroom hcause hlevel =>
      faultRecord_fields hva (by omega) sp.asid.isLt hsource k.code_lt hroom hcause hlevel⟩
  case rings =>
    intro s p P hP
    refine ⟨fun h => faultRecordWrite_idle hP (h.imp id P.fault.hasRoom_eq_false_iff.2),
      fun x rest hwait hroom => faultRecordWrite_writes hP hwait (P.fault.hasRoom_iff.2 hroom),
      fun x rest hwait hroom => errorRecordWrite_writes hP hwait (P.error.hasRoom_iff.2 hroom),
      fun h => errorRecordWrite_idle hP (h.imp id (And.imp_left P.error.hasRoom_eq_false_iff.2)),
      fun before x after hroom hwait hbefore hx =>
        errorRecordWrite_drops hP (P.error.hasRoom_eq_false_iff.2 hroom) hwait hbefore hx⟩
  case foreign =>
    intro s p tok h
    have other := State.ownToken_eq_false h
    simp [exec_resumeRetry, exec_resumeAbort, execResumeRetry, execResumeAbort, other]
  case answers =>
    intro s p tok k hk hp hw _ hfree
    have own := State.ownToken_eq_true hk hp
    have free := State.noneWaitFree_of_lanes hfree
    have retried : s.Settles (s.freeToken tok.toNat) tok.toNat := State.freeToken_settles hw rfl rfl rfl
    obtain ⟨u, hu, aborted, hgrids, hops⟩ := resumeAbort_spec own hw free
    exact ⟨⟨_, resumeRetry_next own free, retried.token, retried.mem, fun t g T G => retried.group⟩,
      u, hu, ⟨aborted.token, aborted.mem, fun t g T G => aborted.group⟩,
      fun t T hT ⟨g, G, l, hG, _, live, parked⟩ => hgrids _ (State.mem_waitingGrids hT hG live parked),
      fun o O hO hwaits => ⟨_, hops o O hO hwaits, rfl⟩⟩

end Sys2Proof.Machine

/-!
PROOFS. The store FIFO, the team's buffer and storage (04_ordering.md R93, R94, R97, R98).
-/
namespace Sys2Proof.Machine

/-! ## The bytes that stores leave at a place -/

/-- The byte that one store leaves at a place. -/
def byteIn (bs : List (Place × Byte)) (p : Place) : Option Byte := (bs.find? (fun b => b.1 == p)).map (·.2)

@[simp] theorem byteIn_nil (p : Place) : byteIn [] p = none := rfl

theorem byteIn_cons (q : Place) (a : Byte) (bs : List (Place × Byte)) (p : Place) :
    byteIn ((q, a) :: bs) p = if q = p then some a else byteIn bs p := by
  by_cases h : q = p <;> simp [byteIn, h]

theorem byteIn_eq_none_iff {bs : List (Place × Byte)} {p : Place} : byteIn bs p = none ↔ ∀ b ∈ bs, b.1 ≠ p := by
  simp [byteIn]

theorem exists_mem_of_byteIn {bs : List (Place × Byte)} {p : Place} (h : byteIn bs p ≠ none) : ∃ b ∈ bs, b.1 = p := by
  simpa [byteIn_eq_none_iff] using h

/-- Of a store cut down to chosen places, the bytes there are as they were, and no others are left. -/
theorem byteIn_filter (bs : List (Place × Byte)) (q : Place → Bool) (p : Place) :
    byteIn (bs.filter (fun b => q b.1)) p = if q p then byteIn bs p else none := by
  induction bs with
  | nil => simp
  | cons b bs ih =>
    obtain ⟨r, a⟩ := b
    by_cases hp : r = p
    · subst hp
      cases hq : q r <;> simp [hq, byteIn_cons, ih]
    · cases hq : q r <;> simp [hq, byteIn_cons, hp, ih]

@[simp] theorem latestByte_nil (p : Place) : latestByte [] p = none := rfl

/-- One more store: its byte, else what the older ones left. -/
theorem latestByte_concat (es : List (List (Place × Byte))) (bs : List (Place × Byte)) (p : Place) :
    latestByte (es ++ [bs]) p = (byteIn bs p).or (latestByte es p) := by
  rw [latestByte, List.foldl_append]
  cases h : bs.find? (fun b => b.1 == p) <;> simp [byteIn, latestByte, h]

theorem latestByte_append (es ds : List (List (Place × Byte))) (p : Place) :
    latestByte (es ++ ds) p = (latestByte ds p).or (latestByte es p) := by
  induction ds generalizing es with
  | nil => rw [List.append_nil, latestByte_nil, Option.none_or]
  | cons d ds ih =>
    have older : latestByte [d] p = byteIn d p := by
      rw [← List.nil_append [d], latestByte_concat, latestByte_nil, Option.or_none]
    rw [← List.singleton_append, ih [d], ← List.append_assoc, ih (es ++ [d]), latestByte_concat, older, Option.or_assoc]

theorem latestByte_cons (bs : List (Place × Byte)) (es : List (List (Place × Byte))) (p : Place) :
    latestByte (bs :: es) p = (latestByte es p).or (byteIn bs p) := by
  rw [← List.singleton_append, latestByte_append, ← List.nil_append [bs], latestByte_concat, latestByte_nil, Option.or_none]

theorem latestByte_eq_none {es : List (List (Place × Byte))} {p : Place} (h : ∀ bs ∈ es, byteIn bs p = none) :
    latestByte es p = none := by
  induction es with
  | nil => rfl
  | cons bs es ih => simp [latestByte_cons, h bs, ih fun d hd => h d (List.mem_cons_of_mem _ hd)]

/-- Stores that have no byte at a place may be left out. -/
theorem latestByte_filter {es : List Buffered} {pick : Buffered → Bool} {p : Place}
    (h : ∀ e ∈ es, pick e = false → byteIn e.bytes p = none) :
    latestByte ((es.filter pick).map (·.bytes)) p = latestByte (es.map (·.bytes)) p := by
  induction es with
  | nil => rfl
  | cons e es ih =>
    have rest := ih fun d hd => h d (List.mem_cons_of_mem _ hd)
    cases hp : pick e with
    | true => simp [hp, latestByte_cons, rest]
    | false => simp [hp, latestByte_cons, rest, h e List.mem_cons_self hp]

/-- Stores split so that those with a byte at a place stay together: the one part's byte there, else the other's. -/
theorem latestByte_split {es : List Buffered} {pick : Buffered → Bool} {p : Place} {c : Bool}
    (h : ∀ e ∈ es, byteIn e.bytes p ≠ none → pick e = c) :
    (latestByte ((es.filter (fun e => !pick e)).map (·.bytes)) p).or (latestByte ((es.filter pick).map (·.bytes)) p) =
      latestByte (es.map (·.bytes)) p := by
  have none_in {q : Buffered → Bool} (hq : ∀ e, q e = true → pick e ≠ c) :
      latestByte ((es.filter q).map (·.bytes)) p = none :=
    latestByte_eq_none fun bs hbs => by
      obtain ⟨e, he, rfl⟩ := List.mem_map.1 hbs
      obtain ⟨he, hqe⟩ := List.mem_filter.1 he
      exact Classical.byContradiction fun hne => hq e hqe (h e he hne)
  have all_in {q : Buffered → Bool} (hq : ∀ e, q e = false → pick e ≠ c) :
      latestByte ((es.filter q).map (·.bytes)) p = latestByte (es.map (·.bytes)) p :=
    latestByte_filter fun e he hqe => Classical.byContradiction fun hne => hq e hqe (h e he hne)
  cases c with
  | false => rw [all_in (by simp), none_in (by simp), Option.or_none]
  | true => rw [none_in (by simp), all_in (by simp), Option.none_or]

theorem mem_sectorsOf {ps : List Place} {n : Nat} : n ∈ sectorsOf ps ↔ ∃ p ∈ ps, p.sector = some n := by
  simp [sectorsOf]

/-- A store cut by some sectors of global memory. -/
theorem latestByte_cut (bs : List (Place × Byte)) (ss : List Nat) (p : Place) :
    latestByte (ss.map fun n => bs.filter (fun b => b.1.sector == some n)) p =
      if ∃ n ∈ ss, p.sector = some n then byteIn bs p else none := by
  induction ss with
  | nil => simp
  | cons n ss ih =>
    rw [List.map_cons, latestByte_cons, ih, byteIn_filter bs (fun p => p.sector == some n)]
    by_cases hn : p.sector = some n
    · have here : ∃ m ∈ n :: ss, p.sector = some m := ⟨n, List.mem_cons_self, hn⟩
      rw [if_pos here, hn, if_pos (beq_self_eq_true _)]
      split <;> simp
    · simp [hn]

/-- A store cut by its own sectors of global memory keeps its bytes there, and none of the scratchpad's. -/
theorem latestByte_sectorsOf (bs : List (Place × Byte)) (p : Place) :
    latestByte ((sectorsOf (bs.map (·.1))).map fun n => bs.filter (fun b => b.1.sector == some n)) p =
      if p.sector.isSome then byteIn bs p else none := by
  rw [latestByte_cut]
  cases hb : byteIn bs p with
  | none => simp
  | some b =>
    obtain ⟨c, hc, hcp⟩ := exists_mem_of_byteIn (bs := bs) (p := p) (by simp [hb])
    have listed (n : Nat) (hn : p.sector = some n) : n ∈ sectorsOf (bs.map (·.1)) :=
      mem_sectorsOf.2 ⟨p, List.mem_map.2 ⟨c, hc, hcp⟩, hn⟩
    cases hs : p.sector with
    | none => simp
    | some n => simp [listed n hs]

/-! ## Storage, as a team has it -/

@[simp] theorem State.clearPoison_teams (s : State) (bs : List (Place × Byte)) : (s.clearPoison bs).teams = s.teams := by
  refine foldl_keeps (P := fun u => u.teams = s.teams) _ (fun u n hu => ?_) _ s rfl
  split
  · simpa using hu
  · exact hu

/-- A place that a store of this device reaches in its storage: not another device's, and not in a frame mapped with another Z
value than its encoding. -/
def Place.Own (p : Place) : Prop := ∀ a, p ≠ .enc a ∧ (p = .phys a → remotePa a = false)

/-- One store's bytes: each place once, and all of this device. -/
def FifoEntry.Own (e : FifoEntry) : Prop := (e.bytes.map (·.1)).Nodup ∧ ∀ b ∈ e.bytes, b.1.Own

theorem FifoEntry.Own.filter {e : FifoEntry} (h : e.Own) (p : Place × Byte → Bool) :
    FifoEntry.Own ⟨e.bytes.filter p⟩ :=
  ⟨h.1.sublist (List.filter_sublist.map _), fun b hb => h.2 b (List.mem_filter.1 hb).1⟩

/-- The team with another content of its scratchpad. -/
def Team.withScratch (T : Team) (m : Store 8) : Team := { T with scratch := m }

@[simp] theorem Team.withScratch_scratch (T : Team) (m : Store 8) : (T.withScratch m).scratch = m := rfl
@[simp] theorem Team.withScratch_buffer (T : Team) (m : Store 8) : (T.withScratch m).buffer = T.buffer := rfl

/-- A team's scratchpad and memory are in canonical form, and hold what is said at each place. -/
structure State.Stores (s : State) (t : Nat) (T : Team) (held : Place → Byte) : Prop where
  team : Tab.get? s.teams t = some T
  memory : Memory.wf s.mem = true
  scratch : Store.wf T.scratch = true
  byte : ∀ p, (∀ a, p ≠ .enc a) → s.stored T p = held p

namespace State.Stores
variable {s u : State} {t : Nat} {T : Team} {held held' : Place → Byte}

theorem of_eq (h : s.Stores t T held) (heq : ∀ p, held' p = held p) : s.Stores t T held' := funext heq ▸ h

theorem of_kept (h : s.Stores t T held) (hm : u.mem = s.mem) (hT : u.teams = s.teams) : u.Stores t T held where
  team := hT ▸ h.team
  memory := hm ▸ h.memory
  scratch := h.scratch
  byte p hp := by
    rw [← h.byte p hp]
    cases p with
    | scratch o => rfl
    | phys a => simp only [State.stored, State.byte, hm]
    | enc a => exact absurd rfl (hp a)

theorem performByte (h : s.Stores t T held) {p : Place} (hp : p.Own) (b : Byte) :
    ∃ m, (s.performByte t (p, b)).Stores t (T.withScratch m) fun q => if p = q then b else held q := by
  cases p with
  | scratch o =>
    refine ⟨Store.set T.scratch o b, ?_, h.memory, Store.set_wf h.scratch o b, fun q hq => ?_⟩
    · simp [State.performByte, State.modTeam, Tab.get?_modify, h.team, Team.withScratch]
    · rw [← h.byte q hq]
      cases q with
      | scratch i => simp [State.stored, Store.get_set h.scratch]
      | phys a => simp [State.stored, State.performByte, State.byte]
      | enc a => exact absurd rfl (hq a)
  | phys a =>
    have near : s.performByte t (.phys a, b) = { s with mem := Store.set s.mem a b } := by
      simp [State.performByte, (hp a).2, State.writePhys, Store.setRange]
    rw [near]
    refine ⟨T.scratch, h.team, Store.set_wf h.memory a b, h.scratch, fun q hq => ?_⟩
    rw [← h.byte q hq]
    cases q with
    | scratch i => simp [State.stored]
    | phys i => simp [State.stored, State.byte, Store.get_set h.memory]
    | enc i => exact absurd rfl (hq i)
  | enc a => exact absurd rfl (hp a).1

theorem performBytes {bs : List (Place × Byte)} (h : s.Stores t T held) (hd : (bs.map (·.1)).Nodup)
    (own : ∀ b ∈ bs, b.1.Own) :
    ∃ m, (s.performBytes t bs).Stores t (T.withScratch m) fun p => (byteIn bs p).getD (held p) := by
  induction bs generalizing s T held with
  | nil => exact ⟨T.scratch, h⟩
  | cons b bs ih =>
    obtain ⟨q, a⟩ := b
    obtain ⟨hq, hd⟩ := List.nodup_cons.1 hd
    obtain ⟨m, h⟩ := h.performByte (own _ List.mem_cons_self) a
    obtain ⟨m', h⟩ := ih h hd fun b hb => own b (List.mem_cons_of_mem _ hb)
    refine ⟨m', h.of_eq fun p => ?_⟩
    rw [byteIn_cons]
    by_cases hp : q = p
    · have unlisted : byteIn bs p = none :=
        byteIn_eq_none_iff.2 fun b hb hbp => hq (List.mem_map.2 ⟨b, hb, hbp.trans hp.symm⟩)
      rw [if_pos hp, if_pos hp, unlisted, Option.getD_none, Option.getD_some]
    · rw [if_neg hp, if_neg hp]

theorem performEntry {e : FifoEntry} (h : s.Stores t T held) (own : e.Own) :
    ∃ m, (s.performEntry t e).Stores t (T.withScratch m) fun p => (byteIn e.bytes p).getD (held p) := by
  obtain ⟨m, h⟩ := h.performBytes own.1 own.2
  exact ⟨m, h.of_kept (State.clearPoison_mem ..) (State.clearPoison_teams ..)⟩

/-- Stores performed one after another leave their latest bytes. -/
theorem performEntries {es : List Buffered} (h : s.Stores t T held)
    (hes : ∀ e ∈ es, FifoEntry.Own ⟨e.bytes⟩) :
    ∃ m, (es.foldl (fun s e => s.performEntry t ⟨e.bytes⟩) s).Stores t (T.withScratch m) fun p =>
      (latestByte (es.map (·.bytes)) p).getD (held p) := by
  induction es generalizing s T held with
  | nil => exact ⟨T.scratch, h⟩
  | cons e es ih =>
    obtain ⟨m, h⟩ := h.performEntry (hes e List.mem_cons_self)
    obtain ⟨m', h⟩ := ih h fun d hd => hes d (List.mem_cons_of_mem _ hd)
    exact ⟨m', h.of_eq fun p => by rw [List.map_cons, latestByte_cons, Option.getD_or]⟩

end State.Stores

/-! ## What a team's groups read (R98) -/

/-- A buffered store lies in one sector of this device's memory, each byte once. -/
def Buffered.OneSector (e : Buffered) : Prop :=
  (e.bytes.map (·.1)).Nodup ∧ ∃ n, ∀ b ∈ e.bytes, ∃ a, b.1 = .phys a ∧ remotePa a = false ∧ a / 32 = n

theorem Buffered.OneSector.own {e : Buffered} (h : e.OneSector) : FifoEntry.Own ⟨e.bytes⟩ := by
  obtain ⟨once, n, hn⟩ := h
  refine ⟨once, fun b hb i => ?_⟩
  obtain ⟨a, ha, near, -⟩ := hn b hb
  rw [ha]
  exact ⟨Place.noConfusion, fun hi => by cases hi; exact near⟩

theorem Buffered.OneSector.byteIn_scratch {e : Buffered} (h : e.OneSector) (o : Nat) : byteIn e.bytes (.scratch o) = none := by
  obtain ⟨-, n, hn⟩ := h
  refine byteIn_eq_none_iff.2 fun b hb => ?_
  obtain ⟨a, ha, -⟩ := hn b hb
  simp [ha]

/-- A buffered store with a byte at a place lies in some sectors just when the place does. -/
theorem Buffered.OneSector.inSectors {e : Buffered} (h : e.OneSector) {p : Place} (hp : byteIn e.bytes p ≠ none)
    (ss : List Nat) : e.inSectors ss = ss.any (fun n => p.sector == some n) := by
  obtain ⟨-, n, hn⟩ := h
  obtain ⟨b, hb, rfl⟩ := exists_mem_of_byteIn hp
  have sector : ∀ c ∈ e.bytes, c.1.sector = some n := fun c hc => by
    obtain ⟨a, ha, -, hs⟩ := hn c hc
    simp [ha, Place.sector, hs]
  rw [Bool.eq_iff_iff]
  simp only [Buffered.inSectors, List.any_eq_true, mem_sectorsOf, List.contains_iff_mem, sector b hb]
  constructor
  · rintro ⟨m, ⟨_, hq, hm⟩, hss⟩
    obtain ⟨c, hc, rfl⟩ := List.mem_map.1 hq
    exact ⟨m, hss, by simpa [sector c hc] using hm⟩
  · rintro ⟨m, hss, hm⟩
    obtain rfl : n = m := by simpa using hm
    exact ⟨n, ⟨_, List.mem_map.2 ⟨b, hb, rfl⟩, sector b hb⟩, hss⟩

/-- A team with one of its groups: memory, its scratchpad and its buffer are in order, and its groups read at each place what
is said. -/
structure State.Shows (s : State) (t g : Nat) (T : Team) (seen : Place → Byte) : Prop where
  team : Tab.get? s.teams t = some T
  memory : Memory.wf s.mem = true
  scratch : Store.wf T.scratch = true
  group : (Tab.get? T.groups g).isSome = true
  buffer : ∀ e ∈ T.buffer, e.OneSector
  byte : ∀ p, (∀ a, p ≠ .enc a) → s.teamByte T p = seen p

namespace State.Shows
variable {s : State} {t g : Nat} {T : Team} {seen seen' : Place → Byte}

theorem of_eq (h : s.Shows t g T seen) (heq : ∀ p, seen' p = seen p) : s.Shows t g T seen' := funext heq ▸ h

theorem stores (h : s.Shows t g T seen) : s.Stores t T (s.stored T) := ⟨h.team, h.memory, h.scratch, fun _ _ => rfl⟩

theorem buffer_scratch (h : s.Shows t g T seen) (o : Nat) : latestByte (T.buffer.map (·.bytes)) (.scratch o) = none := by
  refine latestByte_eq_none fun bs hbs => ?_
  obtain ⟨e, he, rfl⟩ := List.mem_map.1 hbs
  exact (h.buffer e he).byteIn_scratch o

/-- Bytes of the scratchpad performed: the team reads them there, past its buffer. -/
theorem performScratch (h : s.Shows t g T seen) {bs : List (Place × Byte)} (hd : (bs.map (·.1)).Nodup)
    (hbs : ∀ b ∈ bs, ∃ o, b.1 = .scratch o) :
    ∃ m, (s.performBytes t bs).Shows t g (T.withScratch m) fun p => (byteIn bs p).getD (seen p) := by
  have own : ∀ b ∈ bs, b.1.Own := fun b hb a => by
    obtain ⟨o, ho⟩ := hbs b hb
    simp [ho]
  obtain ⟨m, hm⟩ := h.stores.performBytes hd own
  refine ⟨m, hm.team, hm.memory, hm.scratch, h.group, h.buffer, fun p hp => ?_⟩
  rw [State.teamByte, hm.byte p hp, ← h.byte p hp, State.teamByte]
  cases p with
  | scratch o => simp [h.buffer_scratch]
  | phys a =>
    have none_there : byteIn bs (.phys a) = none := byteIn_eq_none_iff.2 fun b hb => by
      obtain ⟨o, ho⟩ := hbs b hb
      simp [ho]
    simp [none_there]
  | enc a => exact absurd rfl (hp a)

/-- Stores that enter the buffer: the team reads them. -/
theorem pushBuffer (h : s.Shows t g T seen) {es : List Buffered} (hes : ∀ e ∈ es, e.OneSector) :
    (s.modTeam t fun T => { T with buffer := T.buffer ++ es }).Shows t g { T with buffer := T.buffer ++ es }
      fun p => (latestByte (es.map (·.bytes)) p).getD (seen p) where
  team := by simp [State.modTeam, Tab.get?_modify, h.team]
  memory := h.memory
  scratch := h.scratch
  group := h.group
  buffer e he := (List.mem_append.1 he).elim (h.buffer e) (hes e)
  byte p hp := by
    rw [← h.byte p hp, State.teamByte, State.teamByte, List.map_append, latestByte_append, Option.getD_or]
    cases p <;> rfl

/-- A change of the groups leaves what they read of their team. -/
theorem modGroups (h : s.Shows t g T seen) (f : Tab Group → Tab Group) (hg : (Tab.get? (f T.groups) g).isSome = true) :
    (s.modTeam t fun T => { T with groups := f T.groups }).Shows t g { T with groups := f T.groups } seen where
  team := by simp [State.modTeam, Tab.get?_modify, h.team]
  memory := h.memory
  scratch := h.scratch
  group := hg
  buffer := h.buffer
  byte p hp := by
    rw [← h.byte p hp]
    cases p <;> rfl

theorem modGroup (h : s.Shows t g T seen) (f : Group → Group) :
    (s.modGroup t g f).Shows t g { T with groups := Tab.modify T.groups g f } seen :=
  h.modGroups (fun m => Tab.modify m g f) (by simpa [Tab.get?_modify] using h.group)

theorem dropEarly (h : s.Shows t g T seen) (ss : List Nat) :
    (s.dropEarly t ss).Shows t g { T with groups := T.groups.map (fun e => (e.1, e.2.dropEarly ss)) } seen := by
  refine h.modGroups (fun m => m.map (fun e => (e.1, e.2.dropEarly ss))) ?_
  rw [Tab.get?_map T.groups (fun e => (e.1, e.2.dropEarly ss)) fun _ => rfl]
  simpa using h.group

/-- Buffered stores performed, all of a place or none: what the team reads does not change. -/
theorem spillWhere (h : s.Shows t g T seen) {pick : Buffered → Bool}
    (whole : ∀ p, ∃ c, ∀ e ∈ T.buffer, byteIn e.bytes p ≠ none → pick e = c) :
    ∃ U, (s.spillWhere t pick).Shows t g U seen ∧ U.buffer = T.buffer.filter (fun e => !pick e) ∧ U.groups = T.groups := by
  obtain ⟨m, hm⟩ := h.stores.performEntries (es := T.buffer.filter pick) fun e he =>
    (h.buffer e (List.mem_filter.1 he).1).own
  refine ⟨{ T.withScratch m with buffer := T.buffer.filter (fun e => !pick e) }, ?_, rfl, rfl⟩
  rw [State.spillWhere, h.team]
  refine ⟨by simp [State.modTeam, Tab.get?_modify, hm.team], hm.memory, hm.scratch, h.group,
    fun e he => h.buffer e (List.mem_filter.1 he).1, fun p hp => ?_⟩
  obtain ⟨c, hc⟩ := whole p
  rw [← h.byte p hp, State.teamByte, State.teamByte, ← latestByte_split hc, Option.getD_or, ← hm.byte p hp]
  cases p <;> rfl

theorem spillSectors (h : s.Shows t g T seen) (ss : List Nat) :
    ∃ U, (s.spillSectors t ss).Shows t g U seen ∧ U.groups = T.groups := by
  obtain ⟨U, hU, -, hg⟩ := h.spillWhere (pick := fun b => b.inSectors ss) fun p =>
    ⟨_, fun e he hne => (h.buffer e he).inSectors hne ss⟩
  exact ⟨U, hU, hg⟩

theorem spillTeam (h : s.Shows t g T seen) :
    ∃ U, (s.spillTeam t).Shows t g U seen ∧ U.buffer = [] ∧ U.groups = T.groups := by
  obtain ⟨U, hU, hb, hg⟩ := h.spillWhere (pick := fun _ => true) fun _ => ⟨true, fun _ _ _ => rfl⟩
  exact ⟨U, hU, hb.trans (List.filter_eq_nil_iff.2 fun _ _ => Bool.false_ne_true), hg⟩

end State.Shows

/-! ## A store made visible to the team (R98) -/

/-- A place without a sector of global memory is one of the scratchpad. -/
theorem Place.exists_scratch {p : Place} (h : p.sector.isNone = true) : ∃ o, p = .scratch o := by
  cases p with
  | scratch o => exact ⟨o, rfl⟩
  | phys a => simp [Place.sector] at h
  | enc a => simp [Place.sector] at h

theorem Place.Own.exists_phys {p : Place} (h : p.Own) {n : Nat} (hn : p.sector = some n) :
    ∃ a, p = .phys a ∧ remotePa a = false ∧ a / 32 = n := by
  cases p with
  | scratch o => simp [Place.sector] at hn
  | phys a => exact ⟨a, rfl, (h a).2 rfl, by simpa [Place.sector] using hn⟩
  | enc a => exact absurd rfl (h a).1

/-- What a store of a group leaves in each sector of global memory. -/
def FifoEntry.buffered (e : FifoEntry) (g : Nat) : List Buffered :=
  (sectorsOf (e.bytes.map (·.1))).map fun n => ⟨g, e.bytes.filter (fun b => b.1.sector == some n)⟩

theorem FifoEntry.Own.buffered {e : FifoEntry} (h : e.Own) (g : Nat) : ∀ b ∈ e.buffered g, b.OneSector := by
  intro b hb
  obtain ⟨n, -, rfl⟩ := List.mem_map.1 hb
  refine ⟨(h.filter _).1, n, fun c hc => ?_⟩
  obtain ⟨hc, hs⟩ := List.mem_filter.1 hc
  exact (h.2 c hc).exists_phys (by simpa using hs)

theorem FifoEntry.latestByte_buffered (e : FifoEntry) (g : Nat) (p : Place) :
    latestByte ((e.buffered g).map (·.bytes)) p = if p.sector.isSome then byteIn e.bytes p else none := by
  rw [FifoEntry.buffered, List.map_map]
  exact latestByte_sectorsOf e.bytes p

/-- A store with its scratchpad bytes performed and the others in the team's buffer. -/
def State.takeStore (s : State) (t g : Nat) (e : FifoEntry) : State :=
  (s.performBytes t (e.bytes.filter (fun b => b.1.sector.isNone))).modTeam t fun T =>
    { T with buffer := T.buffer ++ e.buffered g }

/-- A store made visible is taken, the groups' notes of its places go, and what it left in poisoned sectors is performed. -/
theorem State.shareEntry_eq (s : State) (t g : Nat) (e : FifoEntry) :
    let ss := sectorsOf (e.bytes.map (·.1))
    s.shareEntry t g e = (((s.takeStore t g e).dropEarly t ss).modGroup t g (·.dropPieces e.pieces)).spillSectors t
      (ss.filter (fun n => (s.takeStore t g e).poisoned (32 * n))) := rfl

section Share
variable {s : State} {t g : Nat} {T : Team} {seen : Place → Byte} (h : s.Shows t g T seen)
include h

theorem State.Shows.takeStore {e : FifoEntry} (he : e.Own) :
    ∃ U, (s.takeStore t g e).Shows t g U fun p => (byteIn e.bytes p).getD (seen p) := by
  obtain ⟨m, performed⟩ := h.performScratch (he.filter _).1 fun b hb => Place.exists_scratch (List.mem_filter.1 hb).2
  refine ⟨_, (performed.pushBuffer (he.buffered g)).of_eq fun p => ?_⟩
  rw [e.latestByte_buffered, byteIn_filter e.bytes (fun p => p.sector.isNone)]
  cases p.sector <;> simp

theorem State.Shows.shareEntry {e : FifoEntry} (he : e.Own) :
    ∃ U, (s.shareEntry t g e).Shows t g U fun p => (byteIn e.bytes p).getD (seen p) := by
  obtain ⟨U, taken⟩ := h.takeStore he
  obtain ⟨V, hV, -⟩ := ((taken.dropEarly _).modGroup (·.dropPieces e.pieces)).spillSectors _
  exact ⟨V, State.shareEntry_eq s t g e ▸ hV⟩

/-- Stores made visible, oldest first: the team reads the latest bytes. -/
theorem State.Shows.shareEntries {es : List FifoEntry} (hes : ∀ e ∈ es, e.Own) :
    ∃ U, (es.foldl (fun s e => s.shareEntry t g e) s).Shows t g U fun p => (forwarded es p).getD (seen p) := by
  induction es generalizing s T seen with
  | nil => exact ⟨T, h⟩
  | cons e es ih =>
    obtain ⟨U, hU⟩ := h.shareEntry (hes e List.mem_cons_self)
    obtain ⟨V, hV⟩ := ih hU fun d hd => hes d (List.mem_cons_of_mem _ hd)
    exact ⟨V, hV.of_eq fun p => by rw [forwarded, List.map_cons, latestByte_cons, Option.getD_or, forwarded]⟩

/-- The group's FIFO set to what is left of it: the team reads what it did. -/
theorem State.Shows.setFifo (es : List FifoEntry) :
    ∃ U, (s.modGroup t g fun G => { G with fifo := es }).Shows t g U seen ∧
      (Tab.get? U.groups g).map (·.fifo) = some es ∧ U.buffer = T.buffer := by
  obtain ⟨G, hG⟩ := Option.isSome_iff_exists.1 h.group
  exact ⟨_, h.modGroup _, by simp [Tab.get?_modify, hG], rfl⟩

/-- A group's stores performed: the FIFO and the buffer are empty, and storage holds what the group read. -/
theorem State.Shows.drainGroup {G : Group} (hG : Tab.get? T.groups g = some G) (own : ∀ e ∈ G.fifo, e.Own) :
    ∃ U, (s.drainGroup t g).Shows t g U (fun p => (forwarded G.fifo p).getD (seen p)) ∧ U.buffer = [] ∧
      (Tab.get? U.groups g).map (·.fifo) = some [] := by
  obtain ⟨U, hU⟩ := h.shareEntries own
  obtain ⟨V, hV, empty, -⟩ := hU.setFifo []
  obtain ⟨W, hW, spilled, kept⟩ := hV.spillTeam
  refine ⟨W, ?_, spilled, kept ▸ empty⟩
  rw [State.drainGroup, State.drainFifo, h.team]
  simpa only [hG] using hW

end Share

/-- With nothing left in the buffer, the team reads what storage holds. -/
theorem State.Shows.stored_of_drained {s : State} {t g : Nat} {T : Team} {seen : Place → Byte} (h : s.Shows t g T seen)
    (hb : T.buffer = []) {p : Place} (hp : ∀ a, p ≠ .enc a) : s.stored T p = seen p := by
  simpa [State.teamByte, hb] using h.byte p hp

/-! ## One piece of the oldest store (R11, R94) -/

/-- The piece of a store that a number chooses. -/
def FifoEntry.pieceAt (e : FifoEntry) (n : Nat) : Nat := (e.pieces[n % e.pieces.length]?).getD 0

theorem FifoEntry.mem_pieces {e : FifoEntry} {q : Nat} : q ∈ e.pieces ↔ ∃ b ∈ e.bytes, b.1.pieceNo = q := by
  simp [FifoEntry.pieces, piecesOf]

/-- The chosen piece is one of the store's. -/
theorem FifoEntry.pieceAt_mem {e : FifoEntry} (h : e.bytes ≠ []) (n : Nat) : e.pieceAt n ∈ e.pieces := by
  obtain ⟨b, hb⟩ := List.exists_mem_of_ne_nil _ h
  have pos : 0 < e.pieces.length := List.length_pos_of_mem (FifoEntry.mem_pieces.2 ⟨b, hb, rfl⟩)
  rw [FifoEntry.pieceAt, List.getElem?_eq_getElem (Nat.mod_lt n pos)]
  exact List.getElem_mem _

/-- Every piece of a store can be chosen. -/
theorem FifoEntry.exists_pieceAt {e : FifoEntry} {q : Nat} (h : q ∈ e.pieces) : ∃ n, e.pieceAt n = q := by
  obtain ⟨n, hn, hq⟩ := List.getElem_of_mem h
  exact ⟨n, by rw [FifoEntry.pieceAt, Nat.mod_eq_of_lt hn, List.getElem?_eq_getElem hn, hq, Option.getD_some]⟩

/-- The bytes of the piece that a store's bytes make, found among all of them. -/
theorem byteIn_piece (bs : List (Place × Byte)) (q : Nat) (p : Place) :
    byteIn (bs.filter (fun b => b.1.pieceNo == q)) p = (bs.find? (fun b => b.1 == p && p.pieceNo == q)).map (·.2) := by
  rw [byteIn_filter bs (fun p => p.pieceNo == q), byteIn]
  cases p.pieceNo == q with
  | true => simp only [Bool.and_true, if_true]
  | false =>
    have unfound : bs.find? (fun b => b.1 == p && false) = none :=
      List.find?_eq_none.2 fun b _ => by rw [Bool.and_false]; exact Bool.false_ne_true
    rw [unfound, if_neg Bool.false_ne_true, Option.map_none]

theorem State.drainOne_eq {s : State} {t g : Nat} {T : Team} {G : Group} {e : FifoEntry} {es : List FifoEntry}
    (hT : Tab.get? s.teams t = some T) (hG : Tab.get? T.groups g = some G) (hf : G.fifo = e :: es) (n : Nat) :
    let rest := e.bytes.filter (fun b => b.1.pieceNo != e.pieceAt n)
    s.drainOne t g n = (s.shareEntry t g ⟨e.bytes.filter (fun b => b.1.pieceNo == e.pieceAt n)⟩).modGroup t g fun G =>
      { G with fifo := if rest = [] then es else ⟨rest⟩ :: es } := by
  simp only [State.drainOne, hT, hG, hf]
  rfl

/-- Bytes of the scratchpad performed leave memory and its poison alone. -/
theorem State.performScratch_kept {s : State} (t : Nat) {bs : List (Place × Byte)} (h : ∀ b ∈ bs, b.1.sector.isNone = true) :
    (s.performBytes t bs).mem = s.mem ∧ (s.performBytes t bs).poison = s.poison := by
  induction bs generalizing s with
  | nil => exact ⟨rfl, rfl⟩
  | cons b bs ih =>
    obtain ⟨p, a⟩ := b
    obtain ⟨o, rfl⟩ := Place.exists_scratch (h _ List.mem_cons_self)
    exact ih (s := s.performByte t (.scratch o, a)) fun b hb => h b (List.mem_cons_of_mem _ hb)

theorem State.spillSectors_nil_mem (s : State) (t : Nat) : (s.spillSectors t []).mem = s.mem := by
  have unpicked (bs : List Buffered) : bs.filter (fun b => b.inSectors []) = [] :=
    List.filter_eq_nil_iff.2 fun b _ => by simp [Buffered.inSectors]
  unfold State.spillSectors State.spillWhere
  split
  · rfl
  · rw [State.modTeam_mem, unpicked]; rfl

/-- A store to sectors that are not poisoned, made visible: memory holds what it held. -/
theorem State.shareEntry_mem {s : State} {t g : Nat} {e : FifoEntry} (own : e.Own)
    (clean : ∀ b ∈ e.bytes, ∀ a, b.1 = .phys a → s.poisoned a = false) : (s.shareEntry t g e).mem = s.mem := by
  obtain ⟨hmem, hpoison⟩ := State.performScratch_kept (s := s) t (bs := e.bytes.filter (fun b => b.1.sector.isNone))
    fun b hb => (List.mem_filter.1 hb).2
  have none_poisoned : (sectorsOf (e.bytes.map (·.1))).filter (fun n => (s.takeStore t g e).poisoned (32 * n)) = [] := by
    refine List.filter_eq_nil_iff.2 fun n hn => ?_
    obtain ⟨p, hp, hs⟩ := mem_sectorsOf.1 hn
    obtain ⟨b, hb, rfl⟩ := List.mem_map.1 hp
    obtain ⟨a, ha, -, rfl⟩ := (own.2 b hb).exists_phys hs
    simpa [State.takeStore, State.poisoned, hpoison] using clean b hb a ha
  rw [State.shareEntry_eq, none_poisoned, State.spillSectors_nil_mem]
  exact hmem

/-- A piece of the oldest store made visible: its team reads the bytes of the piece, memory is as it was, and the FIFO holds
the rest. -/
theorem State.Shows.drainOne {s : State} {t g : Nat} {T : Team} {seen : Place → Byte} (h : s.Shows t g T seen) {G : Group}
    (hG : Tab.get? T.groups g = some G) {e : FifoEntry} {es : List FifoEntry} (hf : G.fifo = e :: es) (own : e.Own)
    (clean : ∀ b ∈ e.bytes, ∀ a, b.1 = .phys a → s.poisoned a = false) (n : Nat) :
    let rest := e.bytes.filter (fun b => b.1.pieceNo != e.pieceAt n)
    ∃ U, (s.drainOne t g n).Shows t g U (fun p =>
        (byteIn (e.bytes.filter (fun b => b.1.pieceNo == e.pieceAt n)) p).getD (seen p)) ∧
      (s.drainOne t g n).mem = s.mem ∧
      (Tab.get? U.groups g).map (·.fifo) = some (if rest = [] then es else ⟨rest⟩ :: es) := by
  intro rest
  have piece := own.filter (fun b => b.1.pieceNo == e.pieceAt n)
  obtain ⟨U, shared⟩ := h.shareEntry piece
  obtain ⟨V, hV, left, -⟩ := shared.setFifo (if rest = [] then es else ⟨rest⟩ :: es)
  rw [State.drainOne_eq h.team hG hf]
  exact ⟨V, hV, State.shareEntry_mem piece fun b hb => clean b (List.mem_filter.1 hb).1, left⟩

/-! ## The obligation -/

/-- Settles O7: forwarding by the latest byte of a longer FIFO; draining by what the team's groups read, which every store made
visible changes at its own places alone and every buffered store performed leaves as it is. -/
theorem storeForwardsAndDrains : Obligations.StoreForwardsAndDrains := by
  unfold Obligations.StoreForwardsAndDrains
  refine ⟨fun fifo bs p => ?forwards, fun s t g T G hT hG hmem hscratch hfifo hbuffer => ?drains⟩
  case forwards =>
    rw [forwarded, List.map_append, List.map_singleton, latestByte_concat, byteIn]
    cases bs.find? (fun b => b.1 == p) <;> rfl
  case drains =>
    have shows : s.Shows t g T (s.teamByte T) := ⟨hT, hmem, hscratch, by simp [hG], hbuffer, fun _ _ => rfl⟩
    refine ⟨fun e es hf hne clean => ?pieces, ?all⟩
    case pieces =>
      intro shares
      have chosen (n : Nat) : shares n (e.pieceAt n) := by
        obtain ⟨U, hU, kept, left⟩ := shows.drainOne hG hf (hfifo e (by simp [hf])) clean n
        refine ⟨U, hU.team, kept, left, fun p hp => ?_⟩
        rw [hU.byte p hp, byteIn_piece]
        cases e.bytes.find? (fun b => b.1 == p && p.pieceNo == e.pieceAt n) <;> rfl
      refine ⟨fun n => ?_, fun b hb => ?_⟩
      · obtain ⟨b, hb, hq⟩ := FifoEntry.mem_pieces.1 (e.pieceAt_mem hne n)
        exact ⟨b, hb, hq ▸ chosen n⟩
      · obtain ⟨n, hn⟩ := FifoEntry.exists_pieceAt (FifoEntry.mem_pieces.2 ⟨b, hb, rfl⟩)
        exact ⟨n, hn ▸ chosen n⟩
    case all =>
      obtain ⟨U, hU, drained, empty⟩ := shows.drainGroup hG hfifo
      exact ⟨U, hU.team, drained, empty, fun a => hU.stored_of_drained drained (p := .phys a) (by simp),
        fun o => hU.stored_of_drained drained (p := .scratch o) (by simp)⟩

end Sys2Proof.Machine
